-- ==== Sys2Proof/Word.lean ====
section
/-!
DEFINITION. The word types of the device and the sparse store that every large array of the model (memory,
registers, counters, cores, engines, links) is held in. Bit 0 is the least significant bit of a word (R11).
The operations over them stand in Machine/Bits.lean.
-/

namespace Sys2Proof

/-- A byte. -/
abbrev Byte := BitVec 8
/-- A 32-bit register word (R520: CSR access is by aligned 32-bit words only). -/
abbrev Word := BitVec 32
/-- A 64-bit word: fabric addresses, counters, sketches. -/
abbrev DWord := BitVec 64

/-- A sparse array: key and value pairs with strictly rising keys, holding no entry that equals what an
unlisted key reads as. -/
abbrev SMap (α : Type) := List (Nat × α)

/-- A core of the device by its index 288d + c for core d.c (R14, R521). -/
abbrev CoreId := Fin 2304
/-- A descriptor ring of a core (R129). -/
abbrev RingId := Fin 8
/-- A flag of a core (R137). -/
abbrev FlagId := Fin 4096
/-- A matrix array of a core (R35). -/
abbrev ArrId := Fin 4
/-- An aquatint engine (R20). -/
abbrev AqtId := Fin 16
/-- A Strelist instance (R20). -/
abbrev StlId := Fin 8
/-- A fibre of a Strelist die (R236). -/
abbrev FibreId := Fin 8
/-- A ring of a fibre: 0 to 17 transmit, 18 to 35 drop (R236). -/
abbrev KeyRing := Fin 36
/-- A plane p0 to p63 (R14). -/
abbrev PlaneId := Fin 64
/-- A line of the comb grid (R227). -/
abbrev LineId := Fin 32
/-- A logical plate (R20). -/
abbrev PlateId := Fin 16
/-- A link of the device: 0 to 31 the sheet link to that sheet index, 32 + k the circuit link of plane
p(48 + k) (R273). -/
abbrev LinkId := Fin 48
/-- An MCT session (R478). -/
abbrev SessId := Fin 16
/-- A compute die (R18). -/
abbrev DieId := Fin 8
/-- A device number, 0x3FFF meaning this device (R308). -/
abbrev DevNum := Fin 16384
/-- A COLL engine (R339). -/
abbrev CollId := Fin 8
/-- A group of the group table, or a tree of the tree table (R300, R339). -/
abbrev GroupId := Fin 256

end Sys2Proof
end

