-- ==== Sys2Proof/Syntax.lean ====
section
/-!
DEFINITION. The commands the device takes: one constructor of `Instr` for each row of the spec's table of
operations and events, with the operands the command needs. A command is either a step one of the device's own
agents takes (an issue, a completion, a timer that runs out) or an input from outside (a frame, a pin, a
sensor reading). What only the outside world decides (a measured value, a test result, the light at an
input) is an operand. Messages enter the device only through `frameReceive` and `hostFrameReceive`; the rows
that receive one message take it from the queue that holds it.
-/

namespace Sys2Proof

/-- A fabric packet (R280), its CRC apart. -/
structure Packet where
  /-- KIND (R282) -/
  kind : Nat
  flagged : Bool
  poison : Bool
  e2eRetx : Bool
  /-- destination device number, or the tree number for MPUT and MSIG -/
  dst : Nat
  src : Nat
  addr : Nat
  seq : Nat
  aux : Nat
  rtag : Nat
  /-- STAGE of ROUTE -/
  stage : Nat
  payload : List Byte
deriving DecidableEq, Repr

/-- An error found new in a codeword: the symbol, and what the cells or lanes changed in it (R211). -/
structure SymErr where
  sym : Nat
  flip : Byte
deriving DecidableEq, Repr

/-- A short stamp (R400): SEC bits [17:0], NS and FRAC. -/
structure Stamp where
  sec : Nat
  ns : Nat
  frac : Nat
deriving DecidableEq, Repr

/-- A frame as it reaches a lane receiver (R257, R258): the 2,625 information bytes the sender formed, the frame symbols that changed
on the way, each with the exclusive or of what was sent and what was received, and this device's stamps of the two frames that its
TSYNC reports on: the arrival of the peer's frame whose departure is TX_T, and the departure of the own frame that RX_FSEQ names
(R405). -/
structure Frame where
  bytes : List Byte
  errs : List (Nat × Nat)
  arrival : Stamp
  depart : Stamp
deriving DecidableEq, Repr

/-- A received Ethernet frame: its bytes from destination address to FCS, and what the port's RS(544,514) made of the codewords that
carried it: how many it corrected, and how many were beyond it (R473, R492). -/
structure HostFrame where
  bytes : List Byte
  fecCorr : Nat
  fecLost : Nat
deriving DecidableEq, Repr

/-- Who makes a CSR access: an MCT session, the easel firmware, another device, or this device's own
hardware acting for a descriptor (R526). -/
inductive Writer where
  | session (k : Nat)
  | firmware
  | device (n : Nat)
deriving DecidableEq, Repr

/-- Where a flag-space write comes from (R140). -/
inductive FlagFrom where
  | host
  | outside
  | ownCore
deriving DecidableEq, Repr

/-- The two moments of a command of a shared engine: its issue by a core's graver into the engine's queue,
and its run at the engine's queue head (R185, R325). -/
inductive EngStep where
  | issue (c : CoreId)
  | run (e : Fin 32)
deriving DecidableEq, Repr

/-- What a monitor ring measures of a tone (R239): the line whose bin is the strongest, by how many dB, and the depth of its dither in
thousandths. -/
structure Tone where
  strongest : LineId
  marginDb : Nat
  depth : Nat
deriving DecidableEq, Repr

/-- The part of a page's blocks that becomes ready (R463): one of the four arrays, a plate with the channel, if any, that does not answer
its interface check, or the page's one block. -/
inductive WakePart where
  | array (a : ArrId)
  | plate (mute : Option (Fin 64))
  | block
deriving DecidableEq, Repr

/-- One sensor sample: a temperature in units of 0.125 °C (R449). -/
structure Sample where
  sensor : Nat
  temp : Int
deriving DecidableEq, Repr

/-- One entry of an allocation grant (R251). -/
structure GrantEntry where
  plane : Nat
  peer : Nat
  add : Bool
deriving DecidableEq, Repr

/-- The outcomes of the optical tests that fall at an epoch boundary: lane pairs in QUAR whose test passed,
spare rings whose test passed, planes whose test passed (R256, R261, R263). -/
structure EpochTests where
  quarPass : List (Nat × Nat)
  quarFail : List (Nat × Nat)
  sparePass : List (Nat × Nat × Nat)
  planePass : List Nat
deriving DecidableEq, Repr

/-- The band of the input voltage (R536): `absent` is 54 V gone. -/
inductive VinBand where
  | normal
  | soft
  | softLong
  | hard
  | absent
deriving DecidableEq, Repr

/-- An edge of MOD_RESET_N: it falls, or it rises after a low level of so many nanoseconds (R539). -/
inductive ResetEdge where
  | fall
  | rise (lowNs : Nat)
deriving DecidableEq, Repr

/-- Outcomes of the start-up tests of the Strelist dies and the engines of the hub die (R494, R496): planes that passed the λ0 test over the
shuffle, dies that failed an electrical test, and XDMA and COLL engines that failed theirs. -/
structure StlTests where
  shuffle : List Nat
  deadDies : List Nat
  deadXdma : List Nat
  deadColl : List Nat
deriving DecidableEq, Repr

/-- The event a capture slot or the strobe sees (R415, R530). -/
inductive CapEvent where
  | softArm
  | errN
  | throtN
  | switchover
  | epoch
deriving DecidableEq, Repr

/-- The commands of the device. -/
inductive Instr where
  -- the graver
  | descriptorFetch (c : CoreId)
  | haltErrResume (c : CoreId) (q : RingId)
  | nop (c : CoreId)
  | flagSet (c : CoreId)
  | trigger (c : CoreId)
  | event (c : CoreId)
  | matmul (c : CoreId)
  | vew (c : CoreId)
  | vtr (c : CoreId)
  | vred (c : CoreId)
  | vsmx (c : CoreId)
  | vcvt (c : CoreId)
  | vbq (c : CoreId)
  | vls (c : CoreId)
  | copy (c : CoreId)
  | fill (c : CoreId)
  | rget (c : CoreId)
  | rput (c : CoreId)
  | ratomic (c : CoreId)
  | select (c : CoreId)
  | xcopy (at_ : EngStep)
  | xmcast (at_ : EngStep)
  | xmsig (at_ : EngStep)
  | cbarrier (c : CoreId)
  | cbcast (c : CoreId)
  | callgather (c : CoreId)
  | credscat (c : CoreId)
  | callred (c : CoreId)
  | calltoall (c : CoreId)
  | aload (at_ : EngStep)
  | amul (at_ : EngStep)
  | asketch (at_ : EngStep)
  | acal (at_ : EngStep)
  | descriptorComplete (c : CoreId) (cls : Fin 8) (inst : Fin 32) (ahead : Nat)
  | flagIncrementApply (c : CoreId)
  | qtailWrite (c : CoreId) (q : RingId) (tail : BitVec 16)
  | queueFlush (c : CoreId) (q : RingId)
  | flushComplete (c : CoreId) (q : RingId)
  | stallTracerExpiry (c : CoreId)
  | waitTimeout (c : CoreId) (q : RingId)
  | breakpointResume (c : CoreId)
  | breakpointStep (c : CoreId)
  | flagSpaceWrite (origin : FlagFrom) (c : CoreId) (f : FlagId) (v : Word)
  | fpoisonClear (c : CoreId) (k : Fin 128) (mask : Word)
  -- the arrays
  | arrayFeedStart (c : CoreId) (a : ArrId)
  | arrayColumnDrain (c : CoreId) (a : ArrId)
  | burnisherBlockEnd (c : CoreId) (a : ArrId)
  | shadeThreshExpiry (c : CoreId) (a : ArrId)
  | shadeRampStep (c : CoreId) (a : ArrId)
  -- core memory
  | inboundWriteCommit (c : CoreId)
  | fetchComplete (c : CoreId) (e : Fin 2)
  | mergeBufferEvict (c : CoreId) (line : Fin 32768)
  | sramCorrectedWriteback (c : CoreId) (line : Fin 32768)
  | sramScrubRead (c : CoreId) (line : Fin 32768) (errs : List SymErr)
  | srSeedWrite (c : CoreId) (v : Word)
  | srSeedReload (c : CoreId)
  -- aquatint engines
  | aqtHeaterSettleDone (e : AqtId) (identOk : Bool)
  | aqtCalCheckDone (e : AqtId) (calErr : BitVec 16)
  | driftRecalDue (e : AqtId) (byPeriod : Bool)
  | driftRecalStart (e : AqtId)
  | aqtLightLoss (e : AqtId) (inWindow : Bool)
  | aqtLightConfirm (e : AqtId)
  | aqtSwitchoverRecal (e : AqtId)
  | aqtReadmitWrite (e : AqtId)
  | aqtReadmitTest (e : AqtId) (identOk : Bool) (calErr : BitVec 16)
  | aqtConfigApply (e : AqtId)
  -- plates
  | plateRead (off : Nat) (errs : List SymErr)
  | plateWrite (off : Nat) (data : List Byte) (poison : Bool)
  | plateRefresh (p : PlateId) (ch : Fin 64) (refreshed answered : Bool)
  | plateScrubRead (off : Nat) (errs : List SymErr)
  | laneCountPeriodExpiry (p : PlateId)
  | plateChannelTimeout (p : PlateId) (ch : Fin 64)
  -- light and lanes
  | laserLoss (d : StlId)
  | selectorSwitchDone (d : StlId)
  | standbyToneCheckStep (d : StlId) (inputB : Bool) (tone : Tone)
  | inputQualify (d : StlId) (inputB : Bool)
  | standbyLightLoss (d : StlId) (checkFailed : Bool)
  | selReqWrite (d : StlId)
  | dieDark (d : StlId)
  | keylineLoopUpdate (d : StlId) (f : FibreId) (r : KeyRing) (track : BitVec 8) (faulty : Bool)
  | ringCapture (d : StlId) (f : FibreId) (r : KeyRing)
  | ringLockLoss (d : StlId) (f : FibreId) (r : KeyRing)
  | identityVerifyDone (d : StlId) (f : FibreId) (r : KeyRing) (strongest : LineId) (marginDb : Nat) (depth : Nat)
  | periodicVerifyTimer (d : StlId) (f : FibreId) (r : KeyRing)
  | ringReadmitWrite (d : StlId) (f : FibreId) (r : KeyRing)
  | epochBoundary (tests : EpochTests)
  | allocReportReceive
  | reportWaitExpiry
  | allocPlan
  | grantReceive
  | grantPrepare
  | laneAbandon (p : PlaneId) (k : LineId)
  | laneTuneDone (p : PlaneId) (k : LineId)
  | laneVerifyDone (p : PlaneId) (k : LineId)
  | laneAlignDone (p : PlaneId) (k : LineId)
  | laneIdentDone (p : PlaneId) (k : LineId)
  | laneCheckDone (p : PlaneId) (k : LineId)
  | frameReceive (p : PlaneId) (k : LineId) (fr : Frame)
  | laneDegradeRemove (p : PlaneId) (k : LineId)
  | opeerValidClear (d : StlId) (j : Fin 2)
  | planeRxLos (p : PlaneId)
  | transmitHoldOrder (d : StlId)
  | transmitHoldRelease (d : StlId)
  | opticalPowerSample (d : StlId) (inA inB : BitVec 16) (fibOut fibIn : List (BitVec 16))
  | linkCounterSample (d : StlId) (f : FibreId)
  -- fabric transport
  | linkUnitSend (l : LinkId) (p : PlaneId) (k : LineId)
  | linkUnitReceive
  | linkRetransmit (l : LinkId) (lseq : Nat)
  | linkReset (l : LinkId)
  | sequencedPacketSend (dst : DevNum)
  | flaggedPacketRelease (tree : Bool) (dst : DevNum)
  | forwardPacket
  | transitMaxExpiry
  | storeReceive
  | loadReceive
  | atomicReceive
  | csrRdPacketReceive
  | csrWrPacketReceive
  | ldataReceive
  | aresReceive
  | csrDataReceive
  | putReceive
  | pullReceive
  | pullServe
  | sigReceive
  | trigReceive
  | ackReceive
  | ackSend (src : DevNum)
  | e2eRetransmit (tree : Bool) (dst : DevNum) (eseq : Nat)
  | mputReceive
  | msigReceive
  | mackReceive
  | mackSend (tree : GroupId)
  | mtValidWrite (tree : GroupId) (src up : DevNum)
  | windowCommit
  | windowCommitDone
  | requestTimeout (c : CoreId) (slot : Fin 256)
  | pullTimeout (pullId : BitVec 16)
  -- collectives
  | groupValidate (g : GroupId)
  | groupWithdraw (g : GroupId)
  | collStart (e : CollId)
  | chunkDataSend (e : CollId) (ctx : Fin 4) (peer : DevNum)
  | chunkDataReceive
  | chunkGrantReceive
  | chunkCackReceive
  | chunkHoldReceive
  | chunkAbortReceive
  | chunkResend (e : CollId) (ctx : Fin 4) (peer : DevNum)
  | collNoProgress (e : CollId) (ctx : Fin 4)
  | abortResultPoison (e : CollId) (ctx : Fin 4)
  | lateWindowExpiry (e : CollId)
  -- membership
  | bundleVerify
  | changeCommand
  | policyCommand
  | snapshotCommand
  | changeEffectApply
  | bundleFragmentReceive
  | cmdReqReceive
  | cmdReqTimer
  | staleTimer
  | circuitsSend
  | circuitsReceive
  | circuitsAgeOut (src : DevNum)
  | healthScoreUpdate
  | healthEvent
  -- fabric time
  | aliveTick
  | rootLivenessExpiry
  | holdoverEntry
  | timeLaneChange
  | lockAchieved
  | ocxoFail
  | timeSetGo
  | timeSetApply
  | ppsPulse (rising : Bool)
  | captureEvent (slot : Fin 4) (ev : CapEvent)
  | nowNsRead
  | ptpSyncSend
  | ptpAnnounceSend
  | ptpDelayReqReceive
  -- faults
  | errorOccurrence (page : BitVec 16) (src : Fin 32) (detail : BitVec 16)
  | faultHubReport
  | trapTake
  | blockReset (c : CoreId) (cls : Fin 4)
  | errNAssert
  | errNMinExpiry
  | errNHighExpiry
  | pinHoldRelease
  | irqHoldExpiry (page : BitVec 16) (src : Fin 32)
  | faultStateEntry
  | quietExpiry
  | fctrlExitWrite
  | fctrlRclr
  | errFirstRead (page : BitVec 16)
  | errFirstClear (page : BitVec 16) (v : Word)
  | errActionWrite (page : BitVec 16) (src : Fin 32) (v : Word)
  | errInjectArm (page : BitVec 16) (v : Word)
  -- temperature and power
  | sensorSample (samples : List Sample)
  | sensorSelfCheck (sensor : Fin 128) (pass : Bool)
  | sensorSilentExpiry (sensor : Fin 128)
  | graceExpiry (d : DieId)
  | enforceStepExpiry (d : DieId)
  | reliefStepExpiry (d : DieId)
  | powerLimitAverage (watts : BitVec 16)
  | throttleStepChange (d : DieId)
  | holdReleaseExpiry (south : Bool)
  | clampEndExpiry (d : DieId)
  | clampReliefStep (d : DieId)
  | powerStateEntry (page : BitVec 16) (sub : ArrId)
  | powerStateWake (page : BitVec 16) (sub : ArrId)
  | wakeReady (page : BitVec 16) (part : WakePart)
  | capStepWrite (step : Fin 8)
  -- host port
  | hostFrameReceive (fr : HostFrame)
  | arpRequest
  | neighborSolicitation
  | pfcFrameReceive
  | openSession
  | close (k : SessId)
  | mctAck
  | csrRd (k : SessId)
  | csrWr (k : SessId)
  | doorbell (k : SessId)
  | memWr (k : SessId)
  | memRd (k : SessId)
  | throttle (k : SessId)
  | boot (k : SessId)
  | attestReport (k : SessId)
  | attestLog (k : SessId)
  | attestCert (k : SessId)
  | attestTrust (k : SessId)
  | member (k : SessId)
  | eventMessageSend
  | eventResend
  | sessionIdleClose (k : SessId)
  | hostLinkDown
  -- start-up and module
  | pwrEnAssert
  | pwrGoodAssert
  | fuseLoad
  | bootRomSelfTest (shakeOk mldsaOk : Bool)
  | imageComplete
  | plateTrainingDone (failed : List Nat)
  | coreTestDone (failed : List (Nat × Fin 4 × Fin 16))
  | bridgeTestDone (failed : List Nat)
  | strelistStartupTest (tests : StlTests) (loopback : List Nat) (engines : List (Nat × Bool × Nat))
  | startupComplete
  | svnAdvance
  | modReset (edge : ResetEdge)
  | pwrEnDeassert
  | prsntNMate (slot : BitVec 6)
  | prsntNBreak
  | inputVoltageExcursion (band : VinBand)
  | claimAcquire (w : Writer) (r : Fin 21) (v : Word)
  | claimRelease (w : Writer) (r : Fin 21) (v : Word)
  | claimForceRelease (w : Writer) (r : Fin 21) (v : Word)
  | cntClr (page : BitVec 16)
  | pageLock (page : BitVec 16)
  | counterLowRead (page : BitVec 16) (i : Fin 8)
  | counterHighRead (page : BitVec 16) (i : Fin 8)
  | csrRegisterWrite (w : Writer) (page : BitVec 16) (off : BitVec 12) (v : Word)
  | dbgPulse
  | dbgStrobe (ev : CapEvent)
  | dbgDieChange (w : Writer) (d : DieId)
  | dbgCounterSample (flits blocked meshRetry bridgeRetry : Nat)
  | heartbeatTick
  | hostLinkUp
  | vinPresent
  | arrayGapBegin (c : CoreId) (a : ArrId)
deriving DecidableEq, Repr

end Sys2Proof
end

