-- ==== Sys2Proof/Decode.lean ====
section
/-!
DEFINITION. The spec's table of operations and events gives no row any bits: the device takes commands, not words. So
no word spells a command.
-/

namespace Sys2Proof

/-- The command a table word spells: none, for no row of the table gives bits. -/
def decodeTableWord (_nbits _w : Nat) : Option Instr := none

end Sys2Proof
end

