-- ==== Sys2Proof/Config.lean ====
section
/-!
DEFINITION. What the spec leaves open and what it takes from published standards: constants without a body, so
that no proof can rest on a value of theirs. A free value is one of these functions applied to the draw counter of
the state (`State.draw`, log entry 2), or to the operands it depends on.
-/

namespace Sys2Proof.Config

/-- A free number, one for each draw: the values the spec leaves undefined or does not state (log entry 2). -/
opaque freeNat : Nat → Nat

/-- SHAKE256 of R494: the first `n` bytes of output over a message, as a little-endian number (log entry 3). -/
opaque shake : (n : Nat) → List Byte → Nat

/-- The ML-DSA-65 public key that key generation derives from a seed (R503), as a number of 1,952 bytes. -/
opaque mldsaPublic : List Byte → Nat

/-- ML-DSA-65 verification (R500, R508): public key, message, context string and signature. -/
opaque mldsaVerify : List Byte → List Byte → List Byte → List Byte → Bool

/-- ML-DSA-65 signing (R510): seed, message, context string and draw, as a number of 3,309 bytes. -/
opaque mldsaSign : List Byte → List Byte → List Byte → Nat → Nat

/-- The 64-byte digest of the boot ROM, fixed at manufacture (R505). -/
opaque bootRomDigest : Nat

/-- The 64-byte digest of the measurement log's first item over the DEV page words, SVN_MIN and the key-slot fuses: R505 does not say how they
are laid out as bytes (log entry 60). -/
opaque fuseDigest : List Nat → Nat

/-- The size of each firmware target of R500, which check 7 of R501 names and no rule gives (log entry 61). -/
opaque targetSize : Nat → Nat

/-- What the spec leaves open of the headers of the IP packets that the host port sends: traffic class, time to live, identification and
flow (log entry 116). -/
opaque ipTos : Byte
opaque ipTtl : Byte
opaque ipIdent : Nat
opaque ipFlow : Nat

/-- What the spec leaves open of an Announce message: offsetScaledLogVariance and timeSource (R412, log entry 116). -/
opaque ptpVariance : Nat
opaque ptpTimeSource : Byte

/-- LSTATE of the frames of a test on λ0, by FSEQ: a test is no lane pair, and the spec gives it no state (R261, log entry 129). -/
opaque loopState : Nat → Nat

/-- The hash of destination and ESEQ that chooses a relay or a gateway (R289, R290). -/
opaque routeHash : Nat → Nat → Nat

end Sys2Proof.Config
end

