-- ==== Sys2Proof/Machine/Bits.lean ====
section
/-!
DEFINITION. Bit fields, byte order (little-endian everywhere on the device, R11), the CRCs and the operations of the
sparse store `SMap`.
-/

namespace Sys2Proof.Machine

/-! ### Bit fields -/

/-- Bits `hi` down to `lo` of a natural number. -/
def natBits (n hi lo : Nat) : Nat := (n >>> lo) % 2 ^ (hi + 1 - lo)

/-- Bits `hi` down to `lo` of a bit vector, as a number. -/
def bits {w : Nat} (x : BitVec w) (hi lo : Nat) : Nat := natBits x.toNat hi lo

/-- Bit `i` of a bit vector. -/
def bitAt {w : Nat} (x : BitVec w) (i : Nat) : Bool := x.getLsbD i

/-- The mask of bits `hi` down to `lo`. -/
def fieldMask (w hi lo : Nat) : BitVec w := BitVec.ofNat w ((2 ^ (hi + 1 - lo) - 1) <<< lo)

/-- `x` with bits `hi` down to `lo` replaced by the low bits of `v`. -/
def putBits {w : Nat} (x : BitVec w) (hi lo v : Nat) : BitVec w :=
  (x &&& ~~~ fieldMask w hi lo) ||| (BitVec.ofNat w (v <<< lo) &&& fieldMask w hi lo)

/-- `x` with bit `i` set to `b`. -/
def putBit {w : Nat} (x : BitVec w) (i : Nat) (b : Bool) : BitVec w := putBits x i i b.toNat

/-- The two's-complement value of the low `w` bits of `n`. -/
def sext (w n : Nat) : Int := (BitVec.ofNat w n).toInt

/-- The two's-complement code of width `w` of an integer, wrapping. -/
def wrapInt (w : Nat) (i : Int) : Nat := (BitVec.ofInt w i).toNat

/-- An integer held within the range of `w`-bit two's complement. -/
def clampInt (w : Nat) (i : Int) : Int := max (-(2 ^ (w - 1) : Int)) (min i (2 ^ (w - 1) - 1 : Int))

/-! ### Byte order -/

/-- The number a little-endian byte string holds (R11). -/
def leNat : List Byte → Nat
  | [] => 0
  | b :: bs => b.toNat + 256 * leNat bs

/-- `n` bytes of a number, least significant first. -/
def leBytes : Nat → Nat → List Byte
  | 0, _ => []
  | n + 1, v => BitVec.ofNat 8 v :: leBytes n (v / 256)

/-- `n` bytes of a byte string starting at `off`, short bytes reading 0, as a number. -/
def leAt (bs : List Byte) (off n : Nat) : Nat := leNat ((bs.drop off).take n)

/-! ### Lists -/

/-- `l` with the element at `i` replaced, unchanged past its end. -/
def setAt {α : Type} : List α → Nat → α → List α
  | [], _, _ => []
  | _ :: xs, 0, v => v :: xs
  | x :: xs, n + 1, v => x :: setAt xs n v

/-- The list without its first element that satisfies `p`. -/
def dropFirst {α : Type} (p : α → Bool) : List α → List α
  | [] => []
  | x :: xs => if p x then xs else x :: dropFirst p xs

/-- The last `n` elements. -/
def lastN {α : Type} (n : Nat) (l : List α) : List α := l.drop (l.length - n)

/-- Consecutive pieces of `n` elements; a short piece ends the list. The first argument bounds the number of
pieces. -/
def pieces {α : Type} : Nat → Nat → List α → List (List α)
  | 0, _, _ => []
  | _, _, [] => []
  | f + 1, n, l => l.take n :: pieces f n (l.drop n)

/-- `a` placed before the first element that is not before it. -/
def insertBy {α : Type} (before : α → α → Bool) (a : α) : List α → List α
  | [] => [a]
  | x :: xs => if before x a then x :: insertBy before a xs else a :: x :: xs

/-- A list in the order `before` gives; equal elements keep their order when `before` is reflexive on them. -/
def sortBy {α : Type} (before : α → α → Bool) (l : List α) : List α :=
  l.foldl (fun acc a => insertBy before a acc) []

/-- The number of elements that satisfy `p`. -/
def countIf {α : Type} (p : α → Bool) (l : List α) : Nat := (l.filter p).length

/-! ### Cyclic redundancy checks -/

/-- One bit of CRC-16 with polynomial 0x1021, most significant bit first. -/
def crc16Bit (c : BitVec 16) (b : Bool) : BitVec 16 :=
  let t := bitAt c 15 != b
  let s := c <<< 1
  if t then s ^^^ 0x1021#16 else s

/-- CRC-16 of R257: polynomial 0x1021, initial value 0xFFFF, no reflection, no final inversion. -/
def crc16 (bs : List Byte) : BitVec 16 :=
  bs.foldl (fun c b => (List.range 8).foldl (fun c i => crc16Bit c (bitAt b (7 - i))) c) 0xFFFF#16

/-- One bit of CRC-32C in its reflected form. -/
def crc32cBit (c : BitVec 32) (b : Bool) : BitVec 32 :=
  let t := bitAt c 0 != b
  let s := c >>> 1
  if t then s ^^^ 0x82F63B78#32 else s

/-- CRC-32C of R11: Castagnoli polynomial, reflected, initial value and final inversion 0xFFFFFFFF. -/
def crc32c (bs : List Byte) : BitVec 32 :=
  ~~~ bs.foldl (fun c b => (List.range 8).foldl (fun c i => crc32cBit c (bitAt b i)) c) 0xFFFFFFFF#32

/-! ### The sparse store -/

/-- The entry of key `k`, if listed. -/
def smFind {α : Type} : SMap α → Nat → Option α
  | [], _ => none
  | (j, v) :: m, k => if j = k then some v else smFind m k

/-- What key `k` reads as, `d` being what an unlisted key reads as. -/
def smGet {α : Type} (d : α) (m : SMap α) (k : Nat) : α := (smFind m k).getD d

/-- The map with key `k` listed with value `v`. -/
def smInsert {α : Type} : SMap α → Nat → α → SMap α
  | [], k, v => [(k, v)]
  | (j, w) :: m, k, v =>
    if k < j then (k, v) :: (j, w) :: m
    else if k = j then (k, v) :: m
    else (j, w) :: smInsert m k v

/-- The map with key `k` unlisted. -/
def smErase {α : Type} (m : SMap α) (k : Nat) : SMap α := m.filter (fun e => e.1 != k)

/-- The map with key `k` reading `v`, in canonical form with respect to the unlisted value `d`. -/
def smSet {α : Type} [DecidableEq α] (d : α) (m : SMap α) (k : Nat) (v : α) : SMap α :=
  if v = d then smErase m k else smInsert m k v

/-- The map with the value of key `k` changed by `f`. -/
def smMod {α : Type} [DecidableEq α] (d : α) (m : SMap α) (k : Nat) (f : α → α) : SMap α :=
  smSet d m k (f (smGet d m k))

/-- Keys above `lo` strictly rising, and no entry equal to `d`. -/
def smWfFrom {α : Type} [DecidableEq α] (d : α) : Nat → SMap α → Bool
  | _, [] => true
  | lo, (k, v) :: m => decide (lo ≤ k) && decide (v ≠ d) && smWfFrom d (k + 1) m

/-- The canonical form: keys strictly rising, and no entry that equals what an unlisted key reads as. -/
def smWf {α : Type} [DecidableEq α] (d : α) (m : SMap α) : Bool := smWfFrom d 0 m

/-- Set-like use of `SMap Unit`: is `k` listed. -/
def smHas {α : Type} (m : SMap α) (k : Nat) : Bool := (smFind m k).isSome

end Sys2Proof.Machine
end

