-- ==== Sys2Proof/Machine/RegTable.lean ====
section
/-!
DEFINITION. The register pages' layout: one name per register field, and for every page type the table of
its registers (offset, access codes of R15, reset values, and the ranges of values that are not reserved on
their own account, R16), as the register tables of the chapters give them. The common head (R514) stands at
the end. A reset value that a chapter gives as "per grade", "fuses", "derived" or "provisioned" is 0 here and is supplied by
`regReset` in State.lean.
-/

namespace Sys2Proof.Machine

/-- A field of a register: page offset of the register, most and least significant bit. -/
structure Fld where
  off : Nat
  hi : Nat
  lo : Nat
deriving DecidableEq, Repr

/-- Access codes of R15; RSV bits are not listed (they read 0 and ignore writes). -/
inductive Acc where
  | rw | ro | w1c | wo | rwl
deriving DecidableEq, Repr

/-- One field of a register table row. `ok` lists the ranges of values that are not reserved on the
field's own account; an empty list means that every value is allowed. -/
structure FieldDef where
  hi : Nat
  lo : Nat
  acc : Acc
  reset : Nat
  ok : List (Nat × Nat)
deriving DecidableEq, Repr

/-- A register, or an array of `count` registers `stride` bytes apart, with its fields. -/
structure RegDef where
  off : Nat
  stride : Nat
  count : Nat
  fields : List FieldDef
deriving DecidableEq, Repr

/-- The block types that own register pages (R521). -/
inductive PageType where
  | grv | arr | vec | dma | skm | srm | dev | flt | thm | pwr | sec | eas | mbr | tim | hpt | mem
  | xdm | col | fab | stl | key | aqt | plt | dbg
deriving DecidableEq, Repr

/-! ### Fields of the DEV page -/

def DEV_GRADE_AQT_ENG : Fld := ⟨0x100, 28, 24⟩
def DEV_GRADE_STL_DIES : Fld := ⟨0x100, 19, 16⟩
def DEV_GRADE_PLATES : Fld := ⟨0x100, 12, 8⟩
def DEV_GRADE_PART_CODE : Fld := ⟨0x100, 7, 0⟩
def DEV_LINKS_COLL : Fld := ⟨0x104, 27, 24⟩
def DEV_LINKS_XDMA : Fld := ⟨0x104, 21, 16⟩
def DEV_LINKS_OUTER_PLANES : Fld := ⟨0x104, 12, 8⟩
def DEV_LINKS_SHEET_PLANES : Fld := ⟨0x104, 5, 0⟩
def DEV_PLATE_MAP_PRESENT : Fld := ⟨0x108, 15, 0⟩
def DEV_STL_MAP_PRESENT : Fld := ⟨0x10C, 7, 0⟩
def DEV_CORE_MESH_COLS : Fld := ⟨0x110, 28, 24⟩
def DEV_CORE_MESH_ROWS : Fld := ⟨0x110, 20, 16⟩
def DEV_CORE_COMPUTE_DIES : Fld := ⟨0x110, 15, 12⟩
def DEV_CORE_CORES_PER_DIE : Fld := ⟨0x110, 8, 0⟩
def DEV_PLATE_SPAN_LO : Fld := ⟨0x118, 31, 0⟩
def DEV_PLATE_SPAN_HI_SPAN_HI : Fld := ⟨0x11C, 15, 0⟩

/-! ### Fields of the ARR page -/

def ARR_SHADE_CTRL_RAMP_STEP : Fld := ⟨0x100, 23, 20⟩
def ARR_SHADE_CTRL_THRESH : Fld := ⟨0x100, 19, 8⟩
def ARR_SHADE_CTRL_RAMP_UP : Fld := ⟨0x100, 2, 2⟩
def ARR_SHADE_CTRL_RAMP_DOWN : Fld := ⟨0x100, 1, 1⟩
def ARR_SHADE_CTRL_EN : Fld := ⟨0x100, 0, 0⟩

/-! ### Fields of the VEC page -/

def VEC_SR_SEED : Fld := ⟨0x100, 31, 0⟩
def VEC_ARITH_STAT_NAN_TO_INT : Fld := ⟨0x104, 5, 5⟩
def VEC_ARITH_STAT_INT_SAT : Fld := ⟨0x104, 4, 4⟩
def VEC_ARITH_STAT_BLOCK_NAN : Fld := ⟨0x104, 3, 3⟩
def VEC_ARITH_STAT_OVF : Fld := ⟨0x104, 2, 2⟩
def VEC_ARITH_STAT_INVALID : Fld := ⟨0x104, 1, 1⟩
def VEC_ARITH_STAT_NAN_IN : Fld := ⟨0x104, 0, 0⟩

/-! ### Fields of the GRV page -/

def GRV_GCTRL_LOCAL_LIMIT : Fld := ⟨0x100, 19, 8⟩
def GRV_GCTRL_STALL_DLY : Fld := ⟨0x100, 7, 1⟩
def GRV_GCTRL_STALL_EN : Fld := ⟨0x100, 0, 0⟩
def GRV_PAT_CFG_COUNT : Fld := ⟨0x104, 29, 20⟩
def GRV_PAT_CFG_BASE : Fld := ⟨0x104, 19, 6⟩
def GRV_BRK_CTRL_DESC : Fld := ⟨0x108, 7, 7⟩
def GRV_BRK_CTRL_RING : Fld := ⟨0x108, 6, 4⟩
def GRV_BRK_CTRL_ANYRING : Fld := ⟨0x108, 3, 3⟩
def GRV_BRK_CTRL_SCOPE : Fld := ⟨0x108, 2, 2⟩
def GRV_BRK_CTRL_MODE : Fld := ⟨0x108, 1, 1⟩
def GRV_BRK_CTRL_EN : Fld := ⟨0x108, 0, 0⟩
def GRV_BRK_COUNT : Fld := ⟨0x10C, 31, 0⟩
def GRV_BRK_TAG_MASK : Fld := ⟨0x110, 31, 16⟩
def GRV_BRK_TAG_VALUE : Fld := ⟨0x110, 15, 0⟩
def GRV_BRK_STAT_TAG : Fld := ⟨0x114, 31, 16⟩
def GRV_BRK_STAT_CAUSE : Fld := ⟨0x114, 7, 5⟩
def GRV_BRK_STAT_RING : Fld := ⟨0x114, 4, 2⟩
def GRV_BRK_STAT_STEP : Fld := ⟨0x114, 1, 1⟩
def GRV_BRK_STAT_HIT : Fld := ⟨0x114, 0, 0⟩
def GRV_STALL_STAT_RINGS : Fld := ⟨0x118, 7, 0⟩
def GRV_QCTRL_TMO : Fld := ⟨0x140, 27, 16⟩
def GRV_QCTRL_LOG2SIZE : Fld := ⟨0x140, 15, 12⟩
def GRV_QCTRL_WMAX : Fld := ⟨0x140, 9, 4⟩
def GRV_QCTRL_PRIO : Fld := ⟨0x140, 3, 2⟩
def GRV_QCTRL_FLUSH : Fld := ⟨0x140, 1, 1⟩
def GRV_QCTRL_EN : Fld := ⟨0x140, 0, 0⟩
def GRV_QBASE_BASE : Fld := ⟨0x144, 19, 6⟩
def GRV_QTAIL_TAIL : Fld := ⟨0x148, 15, 0⟩
def GRV_QHEAD_FETCH : Fld := ⟨0x14C, 31, 16⟩
def GRV_QHEAD_HEAD : Fld := ⟨0x14C, 15, 0⟩
def GRV_QCBASE_BASE : Fld := ⟨0x150, 19, 4⟩
def GRV_QCBASE_EN : Fld := ⟨0x150, 0, 0⟩
def GRV_QSTAT_LAST_TAG : Fld := ⟨0x154, 31, 16⟩
def GRV_QSTAT_FLUSH_PEND : Fld := ⟨0x154, 8, 8⟩
def GRV_QSTAT_HALT_ERR : Fld := ⟨0x154, 7, 7⟩
def GRV_QSTAT_HALT_BRK : Fld := ⟨0x154, 6, 6⟩
def GRV_QSTAT_INWIN : Fld := ⟨0x154, 5, 0⟩
def GRV_STALL_REC : Fld := ⟨0x300, 31, 0⟩
def GRV_FPOISON : Fld := ⟨0x400, 31, 0⟩

/-! ### Fields of the AQT page -/

def AQT_CFG_RECAL_DT : Fld := ⟨0x100, 27, 24⟩
def AQT_CFG_RECAL_MS : Fld := ⟨0x100, 23, 16⟩
def AQT_CFG_FS_SIGMA : Fld := ⟨0x100, 11, 8⟩
def AQT_CFG_LINE : Fld := ⟨0x100, 4, 0⟩
def AQT_STAT_QDEPTH : Fld := ⟨0x104, 14, 8⟩
def AQT_STAT_OOS : Fld := ⟨0x104, 7, 7⟩
def AQT_STAT_LOADING : Fld := ⟨0x104, 6, 6⟩
def AQT_STAT_RECAL : Fld := ⟨0x104, 5, 5⟩
def AQT_STAT_HELD : Fld := ⟨0x104, 4, 4⟩
def AQT_STAT_INPUT : Fld := ⟨0x104, 3, 3⟩
def AQT_STAT_READY : Fld := ⟨0x104, 2, 2⟩
def AQT_MATRIX_ID : Fld := ⟨0x108, 31, 0⟩
def AQT_MSCALE : Fld := ⟨0x10C, 31, 0⟩
def AQT_CAL_CAL_TOL : Fld := ⟨0x110, 31, 16⟩
def AQT_CAL_CAL_ERR : Fld := ⟨0x110, 15, 0⟩
def AQT_SVC_CAUSE : Fld := ⟨0x114, 7, 4⟩
def AQT_SVC_READMIT_PEND : Fld := ⟨0x114, 1, 1⟩
def AQT_SVC_READMIT : Fld := ⟨0x114, 0, 0⟩
def AQT_SMASK_LO : Fld := ⟨0x120, 31, 0⟩
def AQT_SMASK_HI : Fld := ⟨0x124, 31, 0⟩

/-! ### Fields of the PLT page -/

def PLT_PCFG_WR_HI : Fld := ⟨0x100, 13, 8⟩
def PLT_PCFG_WR_LO : Fld := ⟨0x100, 5, 0⟩
def PLT_PSTAT_FAIL_CH : Fld := ⟨0x104, 13, 8⟩
def PLT_PSTAT_REF_2X : Fld := ⟨0x104, 2, 2⟩
def PLT_PSTAT_LOST : Fld := ⟨0x104, 1, 1⟩
def PLT_PSTAT_READY : Fld := ⟨0x104, 0, 0⟩
def PLT_SCRUB_CFG_PERIOD : Fld := ⟨0x108, 8, 1⟩
def PLT_SCRUB_CFG_EN : Fld := ⟨0x108, 0, 0⟩
def PLT_LANE_CFG_LANE_LIMIT : Fld := ⟨0x10C, 7, 0⟩
def PLT_ERR_LOC0_CHANNEL : Fld := ⟨0x110, 31, 26⟩
def PLT_ERR_LOC0_INDEX : Fld := ⟨0x110, 25, 7⟩
def PLT_ERR_LOC0_BURST : Fld := ⟨0x110, 6, 6⟩
def PLT_ERR_LOC0_CW : Fld := ⟨0x110, 5, 5⟩
def PLT_ERR_LOC1_NSYM : Fld := ⟨0x114, 15, 8⟩
def PLT_ERR_LOC1_SYMBOL : Fld := ⟨0x114, 6, 0⟩

/-! ### Fields of the SRM page -/

def SRM_SCFG_SCRUB_MS : Fld := ⟨0x100, 8, 1⟩
def SRM_SCFG_EN : Fld := ⟨0x100, 0, 0⟩
def SRM_ERR_LOC_SYMBOL : Fld := ⟨0x104, 31, 26⟩
def SRM_ERR_LOC_NSYM : Fld := ⟨0x104, 25, 24⟩
def SRM_ERR_LOC_LINE : Fld := ⟨0x104, 19, 5⟩

/-! ### Fields of the STL page -/

def STL_SCTRL_VERIFY_MS : Fld := ⟨0x100, 15, 8⟩
def STL_SCTRL_EN : Fld := ⟨0x100, 0, 0⟩
def STL_LASER_SEL_PEND : Fld := ⟨0x104, 2, 2⟩
def STL_LASER_SEL_REQ : Fld := ⟨0x104, 1, 1⟩
def STL_LASER_AUTO : Fld := ⟨0x104, 0, 0⟩
def STL_LSTAT_DARK : Fld := ⟨0x108, 5, 5⟩
def STL_LSTAT_B_QUAL : Fld := ⟨0x108, 4, 4⟩
def STL_LSTAT_A_QUAL : Fld := ⟨0x108, 3, 3⟩
def STL_LSTAT_B_LIGHT : Fld := ⟨0x108, 2, 2⟩
def STL_LSTAT_A_LIGHT : Fld := ⟨0x108, 1, 1⟩
def STL_LSTAT_INPUT : Fld := ⟨0x108, 0, 0⟩
def STL_LOS_THR_THR : Fld := ⟨0x10C, 15, 0⟩
def STL_RX_LOS_THR_THR : Fld := ⟨0x110, 15, 0⟩
def STL_LANE_CFG_CHECK_SYM : Fld := ⟨0x114, 23, 16⟩
def STL_LANE_CFG_DEG_SYM : Fld := ⟨0x114, 15, 8⟩
def STL_LANE_CFG_UC_LIMIT : Fld := ⟨0x114, 7, 0⟩
def STL_HOLD_STAT_VERIFYING : Fld := ⟨0x118, 1, 1⟩
def STL_HOLD_STAT_HELD : Fld := ⟨0x118, 0, 0⟩
def STL_PWR_IN_B : Fld := ⟨0x11C, 31, 16⟩
def STL_PWR_IN_A : Fld := ⟨0x11C, 15, 0⟩
def STL_OPEER_PLANE : Fld := ⟨0x120, 22, 17⟩
def STL_OPEER_VALID : Fld := ⟨0x120, 16, 16⟩
def STL_OPEER_DEV : Fld := ⟨0x120, 13, 0⟩
def STL_PLANE_STAT_RX_LOS : Fld := ⟨0x140, 10, 10⟩
def STL_PLANE_STAT_UP : Fld := ⟨0x140, 9, 9⟩
def STL_PLANE_STAT_SPARE_RX : Fld := ⟨0x140, 8, 7⟩
def STL_PLANE_STAT_SPARE_TX : Fld := ⟨0x140, 6, 5⟩
def STL_PLANE_STAT_CAP : Fld := ⟨0x140, 4, 0⟩
def STL_TX_MAP : Fld := ⟨0x144, 31, 0⟩
def STL_RX_MAP : Fld := ⟨0x148, 31, 0⟩
def STL_QUAR_MAP : Fld := ⟨0x14C, 31, 0⟩
def STL_PWR_FIB_IN : Fld := ⟨0x150, 31, 16⟩
def STL_PWR_FIB_OUT : Fld := ⟨0x150, 15, 0⟩
def STL_LANE_CNT_BRINGUP : Fld := ⟨0x154, 15, 8⟩
def STL_LANE_CNT_ACTIVE : Fld := ⟨0x154, 7, 0⟩
def STL_ALLOC_CTRL_HYST : Fld := ⟨0x300, 31, 28⟩
def STL_ALLOC_CTRL_MAX_MOVES : Fld := ⟨0x300, 27, 20⟩
def STL_ALLOC_CTRL_FLOOR : Fld := ⟨0x300, 19, 16⟩
def STL_ALLOC_CTRL_EPOCH : Fld := ⟨0x300, 15, 8⟩
def STL_ALLOC_CTRL_EN : Fld := ⟨0x300, 0, 0⟩
def STL_ALLOC_STAT_CHANGES : Fld := ⟨0x304, 15, 8⟩
def STL_ALLOC_STAT_GRANT_REJ : Fld := ⟨0x304, 7, 7⟩
def STL_ALLOC_STAT_GRANT_OK : Fld := ⟨0x304, 6, 6⟩
def STL_ALLOC_STAT_IS_LEADER : Fld := ⟨0x304, 5, 5⟩
def STL_ALLOC_STAT_LEADER : Fld := ⟨0x304, 4, 0⟩
def STL_ALLOC_EPOCH : Fld := ⟨0x308, 31, 0⟩
def STL_DEMAND : Fld := ⟨0x380, 31, 0⟩

/-! ### Fields of the KEY page -/

def KEY_KCFG_DEPTH_MIN : Fld := ⟨0x100, 15, 8⟩
def KEY_KCFG_TONE_MARGIN : Fld := ⟨0x100, 7, 0⟩
def KEY_KSTAT_FAILED : Fld := ⟨0x104, 15, 8⟩
def KEY_KSTAT_VERIFYING : Fld := ⟨0x104, 7, 0⟩
def KEY_RING_TRACK : Fld := ⟨0x200, 31, 24⟩
def KEY_RING_TONE_SEEN : Fld := ⟨0x200, 20, 16⟩
def KEY_RING_READMIT : Fld := ⟨0x200, 10, 10⟩
def KEY_RING_VERIFIED : Fld := ⟨0x200, 9, 9⟩
def KEY_RING_LOCKED : Fld := ⟨0x200, 8, 8⟩
def KEY_RING_FAILED : Fld := ⟨0x200, 7, 7⟩
def KEY_RING_SPARE : Fld := ⟨0x200, 6, 6⟩
def KEY_RING_INUSE : Fld := ⟨0x200, 5, 5⟩
def KEY_RING_LINE : Fld := ⟨0x200, 4, 0⟩

/-! ### Fields of the FAB page -/

def FAB_TCFG_RETRY_MAX : Fld := ⟨0x100, 31, 28⟩
def FAB_TCFG_E2E_RTO : Fld := ⟨0x100, 27, 16⟩
def FAB_TCFG_ACK_DELAY : Fld := ⟨0x100, 15, 8⟩
def FAB_TCFG_TRANSIT_MAX : Fld := ⟨0x100, 7, 0⟩
def FAB_MT_SEL_TREE : Fld := ⟨0x104, 7, 0⟩
def FAB_MT_SRC_VALID : Fld := ⟨0x108, 31, 31⟩
def FAB_MT_SRC_UP : Fld := ⟨0x108, 27, 14⟩
def FAB_MT_SRC_SRC : Fld := ⟨0x108, 13, 0⟩
def FAB_MT_LOCAL : Fld := ⟨0x10C, 31, 0⟩
def FAB_MT_RELAY : Fld := ⟨0x110, 31, 0⟩
def FAB_MT_OUTER_MASK : Fld := ⟨0x114, 15, 0⟩
def FAB_MT_CUM : Fld := ⟨0x118, 31, 0⟩
def FAB_MT_DROP_DROPPED : Fld := ⟨0x11C, 15, 0⟩
def FAB_LSTAT : Fld := ⟨0x120, 31, 0⟩
def FAB_SRT : Fld := ⟨0x800, 31, 0⟩

/-! ### Fields of the MEM page -/

def MEM_WCTRL_COMMIT_PEND : Fld := ⟨0x100, 1, 1⟩
def MEM_WCTRL_COMMIT : Fld := ⟨0x100, 0, 0⟩
def MEM_RCFG_REQ_TMO : Fld := ⟨0x104, 12, 0⟩
def MEM_WBASE_LO_BASE_LO : Fld := ⟨0x200, 31, 12⟩
def MEM_WBASE_HI_BASE_HI : Fld := ⟨0x204, 15, 0⟩
def MEM_WSIZE : Fld := ⟨0x208, 31, 0⟩
def MEM_WDEV_DEV_HI : Fld := ⟨0x20C, 29, 16⟩
def MEM_WDEV_DEV_LO : Fld := ⟨0x20C, 13, 0⟩
def MEM_WATTR_VALID : Fld := ⟨0x210, 31, 31⟩
def MEM_WATTR_SPACE : Fld := ⟨0x210, 30, 29⟩
def MEM_WATTR_T : Fld := ⟨0x210, 28, 28⟩
def MEM_WATTR_S : Fld := ⟨0x210, 27, 27⟩
def MEM_WATTR_A : Fld := ⟨0x210, 26, 26⟩
def MEM_WATTR_W : Fld := ⟨0x210, 25, 25⟩
def MEM_WATTR_R : Fld := ⟨0x210, 24, 24⟩

/-! ### Fields of the XDM page -/

def XDM_XSTAT_OUTST : Fld := ⟨0x100, 25, 16⟩
def XDM_XSTAT_QDEPTH : Fld := ⟨0x100, 8, 0⟩

/-! ### Fields of the COL page -/

def COL_CSTAT_ACTIVE : Fld := ⟨0x100, 10, 8⟩
def COL_CSTAT_QDEPTH : Fld := ⟨0x100, 6, 0⟩
def COL_CCFG0_WAIT_MS : Fld := ⟨0x200, 31, 24⟩
def COL_CCFG0_LATE : Fld := ⟨0x200, 23, 16⟩
def COL_CCFG0_GWIN : Fld := ⟨0x200, 15, 8⟩
def COL_CCFG0_CRETRY : Fld := ⟨0x200, 3, 0⟩
def COL_CCFG1_CRTO : Fld := ⟨0x204, 7, 0⟩
def COL_GT_SEL_GID : Fld := ⟨0x208, 7, 0⟩
def COL_GT_CFG_VALID : Fld := ⟨0x20C, 31, 31⟩
def COL_GT_CFG_ENGINE : Fld := ⟨0x20C, 30, 28⟩
def COL_GT_CFG_ODOM : Fld := ⟨0x20C, 27, 24⟩
def COL_GT_CFG_POS : Fld := ⟨0x20C, 21, 12⟩
def COL_GT_SHAPE_MM1 : Fld := ⟨0x210, 25, 16⟩
def COL_GT_SHAPE_Q : Fld := ⟨0x210, 5, 0⟩
def COL_GT_LOCAL : Fld := ⟨0x214, 31, 0⟩
def COL_GT_RING_PREV : Fld := ⟨0x218, 31, 16⟩
def COL_GT_RING_NEXT : Fld := ⟨0x218, 15, 0⟩
def COL_GT_SEQ : Fld := ⟨0x21C, 31, 0⟩
def COL_ABORT_REC_CAUSE : Fld := ⟨0x220, 31, 28⟩
def COL_ABORT_REC_ORIGIN : Fld := ⟨0x220, 21, 8⟩
def COL_ABORT_REC_GID : Fld := ⟨0x220, 7, 0⟩
def COL_DOM_ORD_LAST : Fld := ⟨0x244, 11, 0⟩
def COL_ABORT_SEQ : Fld := ⟨0x284, 31, 0⟩

/-! ### Fields of the MBR page -/

def MBR_MSTAT_INDEX : Fld := ⟨0x100, 12, 8⟩
def MBR_MSTAT_UP : Fld := ⟨0x100, 7, 7⟩
def MBR_MSTAT_PEND : Fld := ⟨0x100, 6, 6⟩
def MBR_MSTAT_SLOT_ERR : Fld := ⟨0x100, 5, 5⟩
def MBR_MSTAT_STALE : Fld := ⟨0x100, 4, 4⟩
def MBR_MSTAT_VIEW_VALID : Fld := ⟨0x100, 3, 3⟩
def MBR_MSTAT_STATE : Fld := ⟨0x100, 2, 0⟩
def MBR_DEVNUM_VALID : Fld := ⟨0x104, 31, 31⟩
def MBR_DEVNUM_NUMBER : Fld := ⟨0x104, 13, 0⟩
def MBR_MEPOCH : Fld := ⟨0x108, 31, 0⟩
def MBR_QUORUM_N : Fld := ⟨0x10C, 7, 4⟩
def MBR_QUORUM_K : Fld := ⟨0x10C, 3, 0⟩
def MBR_POLICY_RATE_MAX : Fld := ⟨0x110, 31, 16⟩
def MBR_POLICY_RATE_WIN : Fld := ⟨0x110, 15, 0⟩
def MBR_RATE_STAT_REFUSED : Fld := ⟨0x114, 31, 16⟩
def MBR_RATE_STAT_COUNT : Fld := ⟨0x114, 15, 0⟩
def MBR_CMD_LAST_MEPOCH : Fld := ⟨0x118, 31, 16⟩
def MBR_CMD_LAST_KIND : Fld := ⟨0x118, 15, 8⟩
def MBR_CMD_LAST_STATUS : Fld := ⟨0x118, 3, 0⟩
def MBR_VIEW_SEL_WORD : Fld := ⟨0x11C, 10, 0⟩
def MBR_VIEW_DATA : Fld := ⟨0x120, 31, 0⟩
def MBR_HCFG_WIN_S : Fld := ⟨0x124, 31, 24⟩
def MBR_HCFG_PROB_MS : Fld := ⟨0x124, 23, 16⟩
def MBR_HCFG_PERIOD_MS : Fld := ⟨0x124, 15, 0⟩
def MBR_HSCORE_TOP_PEN : Fld := ⟨0x128, 23, 16⟩
def MBR_HSCORE_TOP : Fld := ⟨0x128, 10, 8⟩
def MBR_HSCORE_SCORE : Fld := ⟨0x128, 7, 0⟩
def MBR_HWEIGHT0 : Fld := ⟨0x12C, 31, 0⟩
def MBR_HWEIGHT1 : Fld := ⟨0x130, 31, 0⟩
def MBR_NBR_HEARD : Fld := ⟨0x200, 31, 31⟩
def MBR_NBR_MISMATCH : Fld := ⟨0x200, 30, 30⟩
def MBR_NBR_PLANES : Fld := ⟨0x200, 29, 24⟩
def MBR_NBR_DEV : Fld := ⟨0x200, 13, 0⟩

/-! ### Fields of the TIM page -/

def TIM_TCTL_PRIO : Fld := ⟨0x100, 31, 24⟩
def TIM_TCTL_SYNC_LOG : Fld := ⟨0x100, 23, 20⟩
def TIM_TCTL_ROOT_TMO : Fld := ⟨0x100, 15, 8⟩
def TIM_TCTL_ELIG : Fld := ⟨0x100, 0, 0⟩
def TIM_TSTAT_HOPS : Fld := ⟨0x104, 19, 16⟩
def TIM_TSTAT_STEPPED : Fld := ⟨0x104, 4, 4⟩
def TIM_TSTAT_HOLDOVER : Fld := ⟨0x104, 3, 3⟩
def TIM_TSTAT_LOCKED : Fld := ⟨0x104, 2, 2⟩
def TIM_TSTAT_LOCAL : Fld := ⟨0x104, 1, 1⟩
def TIM_TSTAT_ROOT : Fld := ⟨0x104, 0, 0⟩
def TIM_ROOT_PRIO : Fld := ⟨0x108, 31, 24⟩
def TIM_ROOT_VALID : Fld := ⟨0x108, 14, 14⟩
def TIM_ROOT_DEV : Fld := ⟨0x108, 13, 0⟩
def TIM_PARENT_PLANE : Fld := ⟨0x10C, 27, 22⟩
def TIM_PARENT_LINE : Fld := ⟨0x10C, 21, 17⟩
def TIM_PARENT_VALID : Fld := ⟨0x10C, 16, 16⟩
def TIM_PARENT_DEV : Fld := ⟨0x10C, 13, 0⟩
def TIM_OFFSET : Fld := ⟨0x110, 31, 0⟩
def TIM_FREQ : Fld := ⟨0x114, 31, 0⟩
def TIM_DELAY : Fld := ⟨0x118, 31, 0⟩
def TIM_NOW_NS : Fld := ⟨0x120, 31, 0⟩
def TIM_NOW_SEC_LO : Fld := ⟨0x124, 31, 0⟩
def TIM_NOW_HI_FRAC : Fld := ⟨0x128, 31, 16⟩
def TIM_NOW_HI_SEC_HI : Fld := ⟨0x128, 15, 0⟩
def TIM_SET_NS : Fld := ⟨0x130, 31, 0⟩
def TIM_SET_SEC_LO : Fld := ⟨0x134, 31, 0⟩
def TIM_SET_SEC_HI_SEC_HI : Fld := ⟨0x138, 15, 0⟩
def TIM_SET_CTL_REFUSED : Fld := ⟨0x13C, 2, 2⟩
def TIM_SET_CTL_PEND : Fld := ⟨0x13C, 1, 1⟩
def TIM_SET_CTL_GO : Fld := ⟨0x13C, 0, 0⟩
def TIM_PPS_CTL_WIDTH : Fld := ⟨0x140, 15, 8⟩
def TIM_PPS_CTL_EN : Fld := ⟨0x140, 0, 0⟩
def TIM_PTP_CTL_DOMAIN : Fld := ⟨0x144, 31, 24⟩
def TIM_PTP_CTL_LOG_ANN : Fld := ⟨0x144, 23, 20⟩
def TIM_PTP_CTL_LOG_SYNC : Fld := ⟨0x144, 19, 16⟩
def TIM_PTP_CTL_LOG_DREQ : Fld := ⟨0x144, 15, 12⟩
def TIM_PTP_CTL_TRANSPORT : Fld := ⟨0x144, 4, 3⟩
def TIM_PTP_CTL_TWO_STEP : Fld := ⟨0x144, 1, 1⟩
def TIM_PTP_CTL_EN : Fld := ⟨0x144, 0, 0⟩
def TIM_PTP_CLOCK_PRIORITY1 : Fld := ⟨0x148, 31, 24⟩
def TIM_PTP_CLOCK_PRIORITY2 : Fld := ⟨0x148, 23, 16⟩
def TIM_PTP_CLOCK_CLASS : Fld := ⟨0x148, 15, 8⟩
def TIM_PTP_CLOCK_ACCURACY : Fld := ⟨0x148, 7, 0⟩
def TIM_PTP_UTC_UTC_VALID : Fld := ⟨0x14C, 16, 16⟩
def TIM_PTP_UTC_UTC_OFFSET : Fld := ⟨0x14C, 15, 0⟩
def TIM_CAP_CTL_VALID : Fld := ⟨0x180, 7, 7⟩
def TIM_CAP_CTL_SRC : Fld := ⟨0x180, 3, 1⟩
def TIM_CAP_CTL_ARM : Fld := ⟨0x180, 0, 0⟩
def TIM_CAP_NS : Fld := ⟨0x184, 31, 0⟩
def TIM_CAP_SEC_LO : Fld := ⟨0x188, 31, 0⟩
def TIM_CAP_HI_FRAC : Fld := ⟨0x18C, 31, 16⟩
def TIM_CAP_HI_SEC_HI : Fld := ⟨0x18C, 15, 0⟩
def TIM_ASYM : Fld := ⟨0x200, 31, 0⟩

/-! ### Fields of the FLT page -/

def FLT_FCTRL_RLIMIT : Fld := ⟨0x100, 31, 24⟩
def FLT_FCTRL_QUIET : Fld := ⟨0x100, 23, 12⟩
def FLT_FCTRL_IRQ_HOLD : Fld := ⟨0x100, 11, 4⟩
def FLT_FCTRL_INJ_EN : Fld := ⟨0x100, 3, 3⟩
def FLT_FCTRL_RCLR : Fld := ⟨0x100, 2, 2⟩
def FLT_FCTRL_EXIT : Fld := ⟨0x100, 1, 1⟩
def FLT_FCTRL_AUTO : Fld := ⟨0x100, 0, 0⟩
def FLT_FSTAT_RCOUNT : Fld := ⟨0x104, 31, 24⟩
def FLT_FSTAT_TRAP_OVF : Fld := ⟨0x104, 4, 4⟩
def FLT_FSTAT_EXIT_REF : Fld := ⟨0x104, 3, 3⟩
def FLT_FSTAT_QUIET : Fld := ⟨0x104, 2, 2⟩
def FLT_FSTAT_LATCHED : Fld := ⟨0x104, 1, 1⟩
def FLT_FSTAT_FAULT : Fld := ⟨0x104, 0, 0⟩
def FLT_FCAUSE_VALID : Fld := ⟨0x108, 31, 31⟩
def FLT_FCAUSE_CLASS : Fld := ⟨0x108, 26, 25⟩
def FLT_FCAUSE_SOURCE : Fld := ⟨0x108, 24, 20⟩
def FLT_FCAUSE_PAGE : Fld := ⟨0x108, 19, 0⟩
def FLT_FT_NS : Fld := ⟨0x10C, 31, 0⟩
def FLT_FT_SEC : Fld := ⟨0x110, 31, 0⟩
def FLT_PIN_CTL_LEVEL : Fld := ⟨0x114, 1, 1⟩
def FLT_PIN_CTL_HOLD : Fld := ⟨0x114, 0, 0⟩
def FLT_LOG_HEAD : Fld := ⟨0x118, 31, 0⟩
def FLT_LOG : Fld := ⟨0x400, 31, 0⟩

/-! ### Fields of the THM page -/

def THM_TCFG_ROR_LIMIT : Fld := ⟨0x100, 31, 24⟩
def THM_TCFG_GRACE_MS : Fld := ⟨0x100, 23, 16⟩
def THM_TCFG_ENF_MS : Fld := ⟨0x100, 15, 12⟩
def THM_TCFG_HOLD_REL : Fld := ⟨0x100, 7, 4⟩
def THM_TCFG_CLAMP_MS : Fld := ⟨0x100, 3, 0⟩
def THM_TSTAT_HOT : Fld := ⟨0x104, 31, 24⟩
def THM_TSTAT_CLAMPED : Fld := ⟨0x104, 23, 16⟩
def THM_TSTAT_HOLD_S : Fld := ⟨0x104, 11, 11⟩
def THM_TSTAT_HOLD_N : Fld := ⟨0x104, 10, 10⟩
def THM_TSTAT_REQ : Fld := ⟨0x104, 9, 9⟩
def THM_TSTAT_WARN : Fld := ⟨0x104, 8, 8⟩
def THM_TSTAT_BROKEN : Fld := ⟨0x104, 7, 0⟩
def THM_HOTTEST_SENSOR : Fld := ⟨0x108, 22, 16⟩
def THM_HOTTEST_TEMP : Fld := ⟨0x108, 11, 0⟩
def THM_CRIT_LOG_VALID : Fld := ⟨0x10C, 31, 31⟩
def THM_CRIT_LOG_BROKEN : Fld := ⟨0x10C, 30, 30⟩
def THM_CRIT_LOG_SENSOR : Fld := ⟨0x10C, 22, 16⟩
def THM_CRIT_LOG_TEMP : Fld := ⟨0x10C, 11, 0⟩
def THM_TCFG2_RELIEF_MS : Fld := ⟨0x110, 7, 0⟩
def THM_THR_WARN : Fld := ⟨0x120, 31, 24⟩
def THM_THR_THROT : Fld := ⟨0x120, 23, 16⟩
def THM_THR_CRIT : Fld := ⟨0x120, 15, 8⟩
def THM_THR_HYST : Fld := ⟨0x120, 3, 0⟩
def THM_SENS_BROKEN : Fld := ⟨0x200, 31, 31⟩
def THM_SENS_CAUSE : Fld := ⟨0x200, 30, 29⟩
def THM_SENS_RATE : Fld := ⟨0x200, 27, 16⟩
def THM_SENS_TEMP : Fld := ⟨0x200, 11, 0⟩

/-! ### Fields of the PWR page -/

def PWR_PCTRL_CAP_STEP : Fld := ⟨0x100, 10, 8⟩
def PWR_PCTRL_CLAMP_STEP : Fld := ⟨0x100, 6, 4⟩
def PWR_PLIMIT_WATTS : Fld := ⟨0x104, 15, 0⟩
def PWR_PIN_VIN : Fld := ⟨0x108, 31, 16⟩
def PWR_PIN_POWER : Fld := ⟨0x108, 15, 0⟩
def PWR_STEP_GRACE : Fld := ⟨0x110, 10, 10⟩
def PWR_STEP_HOT : Fld := ⟨0x110, 9, 9⟩
def PWR_STEP_CLAMP : Fld := ⟨0x110, 8, 8⟩
def PWR_STEP_THERM : Fld := ⟨0x110, 6, 4⟩
def PWR_STEP_EFF : Fld := ⟨0x110, 2, 0⟩

/-! ### Fields of the HPT page -/

def HPT_HCTRL_PFC_EN : Fld := ⟨0x100, 4, 4⟩
def HPT_HCTRL_VLAN_EN : Fld := ⟨0x100, 3, 3⟩
def HPT_HCTRL_IPV6_EN : Fld := ⟨0x100, 2, 2⟩
def HPT_HCTRL_IPV4_EN : Fld := ⟨0x100, 1, 1⟩
def HPT_HCTRL_RAW_EN : Fld := ⟨0x100, 0, 0⟩
def HPT_VLAN_PCP : Fld := ⟨0x104, 15, 13⟩
def HPT_VLAN_VID : Fld := ⟨0x104, 11, 0⟩
def HPT_MAC_LO : Fld := ⟨0x108, 31, 0⟩
def HPT_MAC_HI_MAC : Fld := ⟨0x10C, 15, 0⟩
def HPT_IPV4 : Fld := ⟨0x110, 31, 0⟩
def HPT_UDP_PORT : Fld := ⟨0x114, 15, 0⟩
def HPT_PFC_PRIO : Fld := ⟨0x118, 18, 16⟩
def HPT_PFC_XOFF : Fld := ⟨0x118, 15, 8⟩
def HPT_PFC_XON : Fld := ⟨0x118, 7, 0⟩
def HPT_SCFG_IDLE_S : Fld := ⟨0x11C, 31, 24⟩
def HPT_SCFG_RTO : Fld := ⟨0x11C, 23, 16⟩
def HPT_LSTAT_LINK_UP : Fld := ⟨0x120, 2, 2⟩
def HPT_LSTAT_ALIGNED : Fld := ⟨0x120, 1, 1⟩
def HPT_LSTAT_SIGNAL : Fld := ⟨0x120, 0, 0⟩
def HPT_SSTAT_OPEN : Fld := ⟨0x124, 31, 16⟩
def HPT_SSTAT_EVT_VALID : Fld := ⟨0x124, 4, 4⟩
def HPT_SSTAT_EVT_SESSION : Fld := ⟨0x124, 3, 0⟩
def HPT_IPV6 : Fld := ⟨0x130, 31, 0⟩

/-! ### Fields of the SEC page -/

def SEC_BSTAT_WARM : Fld := ⟨0x100, 12, 12⟩
def SEC_BSTAT_REASON : Fld := ⟨0x100, 11, 8⟩
def SEC_BSTAT_STAGE : Fld := ⟨0x100, 3, 0⟩
def SEC_SVN_RUN : Fld := ⟨0x104, 14, 8⟩
def SEC_SVN_MIN : Fld := ⟨0x104, 6, 0⟩
def SEC_SVN_CTL_REFUSED : Fld := ⟨0x108, 2, 2⟩
def SEC_SVN_CTL_DONE : Fld := ⟨0x108, 1, 1⟩
def SEC_SVN_CTL_ADV : Fld := ⟨0x108, 0, 0⟩
def SEC_KEYSLOT_USED : Fld := ⟨0x10C, 9, 8⟩
def SEC_KEYSLOT_VALID : Fld := ⟨0x10C, 7, 4⟩
def SEC_KEYSLOT_REVOKED : Fld := ⟨0x10C, 3, 0⟩
def SEC_TRUST : Fld := ⟨0x110, 31, 0⟩
def SEC_TRUST_CFG_VALID : Fld := ⟨0x114, 8, 8⟩
def SEC_TRUST_CFG_N : Fld := ⟨0x114, 7, 4⟩
def SEC_TRUST_CFG_K : Fld := ⟨0x114, 3, 0⟩
def SEC_LOG_COUNT_COUNT : Fld := ⟨0x118, 7, 0⟩
def SEC_ID_HASH : Fld := ⟨0x120, 31, 0⟩
def SEC_SELFTEST_MLDSA_OK : Fld := ⟨0x140, 1, 1⟩
def SEC_SELFTEST_SHAKE_OK : Fld := ⟨0x140, 0, 0⟩

/-! ### Fields of the EAS page -/

def EAS_ESTAT_FW_RUN : Fld := ⟨0x100, 0, 0⟩
def EAS_HEARTBEAT : Fld := ⟨0x104, 31, 0⟩
def EAS_TRAPQ_DEPTH : Fld := ⟨0x108, 6, 0⟩
def EAS_CLAIM_HELD : Fld := ⟨0x200, 31, 31⟩
def EAS_CLAIM_KIND : Fld := ⟨0x200, 30, 28⟩
def EAS_CLAIM_OWNER : Fld := ⟨0x200, 27, 14⟩
def EAS_CLAIM_FUNC : Fld := ⟨0x200, 13, 12⟩
def EAS_CLAIM_FORCE : Fld := ⟨0x200, 2, 2⟩
def EAS_CLAIM_REL : Fld := ⟨0x200, 1, 1⟩
def EAS_CLAIM_ACQ : Fld := ⟨0x200, 0, 0⟩

/-! ### Fields of the DBG page -/

def DBG_DCTRL_DIE : Fld := ⟨0x100, 10, 8⟩
def DBG_DCTRL_STROBE_SRC : Fld := ⟨0x100, 3, 1⟩
def DBG_DCTRL_STROBE_EN : Fld := ⟨0x100, 0, 0⟩
def DBG_DSTRB_PULSE : Fld := ⟨0x104, 0, 0⟩

/-- Block-specific registers of the DEV page. -/
def regsDev : List RegDef := [
  -- GRADE
  ⟨0x100, 0x0, 1, [⟨28, 24, .ro, 0, []⟩, ⟨19, 16, .ro, 0, []⟩, ⟨12, 8, .ro, 0, []⟩, ⟨7, 0, .ro, 0, []⟩]⟩,
  -- LINKS
  ⟨0x104, 0x0, 1, [⟨27, 24, .ro, 0, []⟩, ⟨21, 16, .ro, 0, []⟩, ⟨12, 8, .ro, 0, []⟩, ⟨5, 0, .ro, 0, []⟩]⟩,
  -- PLATE_MAP
  ⟨0x108, 0x0, 1, [⟨15, 0, .ro, 0, []⟩]⟩,
  -- STL_MAP
  ⟨0x10C, 0x0, 1, [⟨7, 0, .ro, 0, []⟩]⟩,
  -- CORE
  ⟨0x110, 0x0, 1, [⟨28, 24, .ro, 17, []⟩, ⟨20, 16, .ro, 18, []⟩, ⟨15, 12, .ro, 8, []⟩, ⟨8, 0, .ro, 288, []⟩]⟩,
  -- PLATE_SPAN_LO
  ⟨0x118, 0x0, 1, [⟨31, 0, .ro, 0, []⟩]⟩,
  -- PLATE_SPAN_HI
  ⟨0x11C, 0x0, 1, [⟨15, 0, .ro, 0, []⟩]⟩,
  -- SPARE_MAP
  ⟨0x140, 0x4, 24, [⟨29, 25, .ro, 0, []⟩, ⟨24, 20, .ro, 0, []⟩, ⟨19, 15, .ro, 0, []⟩, ⟨14, 10, .ro, 0, []⟩, ⟨9, 5, .ro, 0, []⟩, ⟨4, 0, .ro, 0, []⟩]⟩]

/-- Block-specific registers of the ARR page. -/
def regsArr : List RegDef := [
  -- SHADE_CTRL
  ⟨0x100, 0x0, 1, [⟨23, 20, .rw, 3, []⟩, ⟨19, 8, .rw, 64, []⟩, ⟨2, 2, .rw, 1, []⟩, ⟨1, 1, .rw, 1, []⟩, ⟨0, 0, .rw, 1, []⟩]⟩]

/-- Block-specific registers of the VEC page. -/
def regsVec : List RegDef := [
  -- SR_SEED
  ⟨0x100, 0x0, 1, [⟨31, 0, .rw, 1, []⟩]⟩,
  -- ARITH_STAT
  ⟨0x104, 0x0, 1, [⟨5, 5, .w1c, 0, []⟩, ⟨4, 4, .w1c, 0, []⟩, ⟨3, 3, .w1c, 0, []⟩, ⟨2, 2, .w1c, 0, []⟩, ⟨1, 1, .w1c, 0, []⟩, ⟨0, 0, .w1c, 0, []⟩]⟩]

/-- Block-specific registers of the GRV page. -/
def regsGrv : List RegDef := [
  -- GCTRL
  ⟨0x100, 0x0, 1, [⟨19, 8, .rw, 2048, []⟩, ⟨7, 1, .rw, 10, [(1, 98)]⟩, ⟨0, 0, .rw, 1, []⟩]⟩,
  -- PAT_CFG
  ⟨0x104, 0x0, 1, [⟨29, 20, .rw, 0, []⟩, ⟨19, 6, .rw, 0, []⟩]⟩,
  -- BRK_CTRL
  ⟨0x108, 0x0, 1, [⟨7, 7, .rw, 0, []⟩, ⟨6, 4, .rw, 0, []⟩, ⟨3, 3, .rw, 0, []⟩, ⟨2, 2, .rw, 0, []⟩, ⟨1, 1, .rw, 0, []⟩, ⟨0, 0, .rw, 0, []⟩]⟩,
  -- BRK_COUNT
  ⟨0x10C, 0x0, 1, [⟨31, 0, .rw, 0, []⟩]⟩,
  -- BRK_TAG
  ⟨0x110, 0x0, 1, [⟨31, 16, .rw, 0, []⟩, ⟨15, 0, .rw, 0, []⟩]⟩,
  -- BRK_STAT
  ⟨0x114, 0x0, 1, [⟨31, 16, .ro, 0, []⟩, ⟨7, 5, .ro, 0, []⟩, ⟨4, 2, .ro, 0, []⟩, ⟨1, 1, .wo, 0, []⟩, ⟨0, 0, .w1c, 0, []⟩]⟩,
  -- STALL_STAT
  ⟨0x118, 0x0, 1, [⟨7, 0, .w1c, 0, []⟩]⟩,
  -- QCTRL
  ⟨0x140, 0x20, 8, [⟨27, 16, .rw, 0, []⟩, ⟨15, 12, .rw, 4, [(4, 12)]⟩, ⟨9, 4, .rw, 32, [(1, 32)]⟩, ⟨3, 2, .rw, 0, []⟩, ⟨1, 1, .wo, 0, []⟩, ⟨0, 0, .rw, 0, []⟩]⟩,
  -- QBASE
  ⟨0x144, 0x20, 8, [⟨19, 6, .rw, 0, []⟩]⟩,
  -- QTAIL
  ⟨0x148, 0x20, 8, [⟨15, 0, .rw, 0, []⟩]⟩,
  -- QHEAD
  ⟨0x14C, 0x20, 8, [⟨31, 16, .ro, 0, []⟩, ⟨15, 0, .ro, 0, []⟩]⟩,
  -- QCBASE
  ⟨0x150, 0x20, 8, [⟨19, 4, .rw, 0, []⟩, ⟨0, 0, .rw, 0, []⟩]⟩,
  -- QSTAT
  ⟨0x154, 0x20, 8, [⟨31, 16, .ro, 0, []⟩, ⟨8, 8, .ro, 0, []⟩, ⟨7, 7, .w1c, 0, []⟩, ⟨6, 6, .ro, 0, []⟩, ⟨5, 0, .ro, 0, []⟩]⟩,
  -- STALL_REC
  ⟨0x300, 0x4, 32, [⟨31, 0, .ro, 0, []⟩]⟩,
  -- FPOISON
  ⟨0x400, 0x4, 128, [⟨31, 0, .w1c, 0, []⟩]⟩]

/-- Block-specific registers of the AQT page. -/
def regsAqt : List RegDef := [
  -- CFG
  ⟨0x100, 0x0, 1, [⟨27, 24, .rw, 4, [(1, 15)]⟩, ⟨23, 16, .rw, 10, [(1, 10)]⟩, ⟨11, 8, .rw, 4, [(2, 8)]⟩, ⟨4, 0, .rw, 0, []⟩]⟩,
  -- STAT
  ⟨0x104, 0x0, 1, [⟨14, 8, .ro, 0, []⟩, ⟨7, 7, .ro, 1, []⟩, ⟨6, 6, .ro, 0, []⟩, ⟨5, 5, .ro, 0, []⟩, ⟨4, 4, .ro, 0, []⟩, ⟨3, 3, .ro, 0, []⟩, ⟨2, 2, .ro, 0, []⟩]⟩,
  -- MATRIX_ID
  ⟨0x108, 0x0, 1, [⟨31, 0, .ro, 0, []⟩]⟩,
  -- MSCALE
  ⟨0x10C, 0x0, 1, [⟨31, 0, .ro, 0, []⟩]⟩,
  -- CAL
  ⟨0x110, 0x0, 1, [⟨31, 16, .rw, 19, []⟩, ⟨15, 0, .ro, 0, []⟩]⟩,
  -- SVC
  ⟨0x114, 0x0, 1, [⟨7, 4, .ro, 1, []⟩, ⟨1, 1, .ro, 0, []⟩, ⟨0, 0, .wo, 0, []⟩]⟩,
  -- SMASK_LO
  ⟨0x120, 0x8, 4, [⟨31, 0, .rw, 0, []⟩]⟩,
  -- SMASK_HI
  ⟨0x124, 0x8, 4, [⟨31, 0, .rw, 0, []⟩]⟩]

/-- Block-specific registers of the PLT page. -/
def regsPlt : List RegDef := [
  -- PCFG
  ⟨0x100, 0x0, 1, [⟨13, 8, .rw, 32, [(2, 48)]⟩, ⟨5, 0, .rw, 8, [(0, 47)]⟩]⟩,
  -- PSTAT
  ⟨0x104, 0x0, 1, [⟨13, 8, .ro, 0, []⟩, ⟨2, 2, .ro, 0, []⟩, ⟨1, 1, .ro, 0, []⟩, ⟨0, 0, .ro, 0, []⟩]⟩,
  -- SCRUB_CFG
  ⟨0x108, 0x0, 1, [⟨8, 1, .rw, 12, [(1, 24)]⟩, ⟨0, 0, .rw, 1, []⟩]⟩,
  -- LANE_CFG
  ⟨0x10C, 0x0, 1, [⟨7, 0, .rw, 16, [(1, 255)]⟩]⟩,
  -- ERR_LOC0
  ⟨0x110, 0x0, 1, [⟨31, 26, .ro, 0, []⟩, ⟨25, 7, .ro, 0, []⟩, ⟨6, 6, .ro, 0, []⟩, ⟨5, 5, .ro, 0, []⟩]⟩,
  -- ERR_LOC1
  ⟨0x114, 0x0, 1, [⟨15, 8, .ro, 0, []⟩, ⟨6, 0, .ro, 0, []⟩]⟩]

/-- Block-specific registers of the SRM page. -/
def regsSrm : List RegDef := [
  -- SCFG
  ⟨0x100, 0x0, 1, [⟨8, 1, .rw, 100, [(10, 250)]⟩, ⟨0, 0, .rw, 1, []⟩]⟩,
  -- ERR_LOC
  ⟨0x104, 0x0, 1, [⟨31, 26, .ro, 0, []⟩, ⟨25, 24, .ro, 0, []⟩, ⟨19, 5, .ro, 0, []⟩]⟩]

/-- Block-specific registers of the STL page. ALLOC_CTRL.FLOOR is given as 0-12 with no word on 13 to 15: taken as reserved
encodings (DESIGN CHOICE, log entry 96; unsafe). -/
def regsStl : List RegDef := [
  -- SCTRL
  ⟨0x100, 0x0, 1, [⟨15, 8, .rw, 100, [(10, 250)]⟩, ⟨0, 0, .rw, 0, []⟩]⟩,
  -- LASER
  ⟨0x104, 0x0, 1, [⟨2, 2, .ro, 0, []⟩, ⟨1, 1, .wo, 0, []⟩, ⟨0, 0, .rw, 1, []⟩]⟩,
  -- LSTAT
  ⟨0x108, 0x0, 1, [⟨5, 5, .ro, 0, []⟩, ⟨4, 4, .ro, 0, []⟩, ⟨3, 3, .ro, 0, []⟩, ⟨2, 2, .ro, 0, []⟩, ⟨1, 1, .ro, 0, []⟩, ⟨0, 0, .ro, 0, []⟩]⟩,
  -- LOS_THR
  ⟨0x10C, 0x0, 1, [⟨15, 0, .rw, 180, []⟩]⟩,
  -- RX_LOS_THR
  ⟨0x110, 0x0, 1, [⟨15, 0, .rw, 65386, []⟩]⟩,
  -- LANE_CFG
  ⟨0x114, 0x0, 1, [⟨23, 16, .rw, 4, []⟩, ⟨15, 8, .rw, 8, []⟩, ⟨7, 0, .rw, 4, []⟩]⟩,
  -- HOLD_STAT
  ⟨0x118, 0x0, 1, [⟨1, 1, .ro, 0, []⟩, ⟨0, 0, .ro, 0, []⟩]⟩,
  -- PWR_IN
  ⟨0x11C, 0x0, 1, [⟨31, 16, .ro, 0, []⟩, ⟨15, 0, .ro, 0, []⟩]⟩,
  -- OPEER
  ⟨0x120, 0x4, 2, [⟨22, 17, .ro, 0, []⟩, ⟨16, 16, .w1c, 0, []⟩, ⟨13, 0, .ro, 0, []⟩]⟩,
  -- PLANE_STAT
  ⟨0x140, 0x20, 8, [⟨10, 10, .ro, 0, []⟩, ⟨9, 9, .ro, 0, []⟩, ⟨8, 7, .ro, 2, []⟩, ⟨6, 5, .ro, 2, []⟩, ⟨4, 0, .ro, 16, []⟩]⟩,
  -- TX_MAP
  ⟨0x144, 0x20, 8, [⟨31, 0, .ro, 0, []⟩]⟩,
  -- RX_MAP
  ⟨0x148, 0x20, 8, [⟨31, 0, .ro, 0, []⟩]⟩,
  -- QUAR_MAP
  ⟨0x14C, 0x20, 8, [⟨31, 0, .ro, 0, []⟩]⟩,
  -- PWR_FIB
  ⟨0x150, 0x20, 8, [⟨31, 16, .ro, 0, []⟩, ⟨15, 0, .ro, 0, []⟩]⟩,
  -- LANE_CNT
  ⟨0x154, 0x20, 8, [⟨15, 8, .ro, 0, []⟩, ⟨7, 0, .ro, 0, []⟩]⟩,
  -- ALLOC_CTRL
  ⟨0x300, 0x0, 1, [⟨31, 28, .rw, 12, [(8, 15)]⟩, ⟨27, 20, .rw, 8, [(1, 255)]⟩, ⟨19, 16, .rw, 8, [(0, 12)]⟩, ⟨15, 8, .rw, 10, [(5, 100)]⟩, ⟨0, 0, .rw, 0, []⟩]⟩,
  -- ALLOC_STAT
  ⟨0x304, 0x0, 1, [⟨15, 8, .ro, 0, []⟩, ⟨7, 7, .w1c, 0, []⟩, ⟨6, 6, .w1c, 0, []⟩, ⟨5, 5, .ro, 0, []⟩, ⟨4, 0, .ro, 0, []⟩]⟩,
  -- ALLOC_EPOCH
  ⟨0x308, 0x0, 1, [⟨31, 0, .ro, 0, []⟩]⟩,
  -- DEMAND
  ⟨0x380, 0x4, 32, [⟨31, 0, .ro, 0, []⟩]⟩]

/-- Block-specific registers of the KEY page. -/
def regsKey : List RegDef := [
  -- KCFG
  ⟨0x100, 0x0, 1, [⟨15, 8, .rw, 10, [(5, 20)]⟩, ⟨7, 0, .rw, 10, [(6, 20)]⟩]⟩,
  -- KSTAT
  ⟨0x104, 0x0, 1, [⟨15, 8, .ro, 0, []⟩, ⟨7, 0, .ro, 0, []⟩]⟩,
  -- RING
  ⟨0x200, 0x4, 288, [⟨31, 24, .ro, 0, []⟩, ⟨20, 16, .ro, 0, []⟩, ⟨10, 10, .wo, 0, []⟩, ⟨9, 9, .ro, 0, []⟩, ⟨8, 8, .ro, 0, []⟩, ⟨7, 7, .ro, 0, []⟩, ⟨6, 6, .ro, 0, []⟩, ⟨5, 5, .ro, 0, []⟩, ⟨4, 0, .ro, 0, []⟩]⟩]

/-- Block-specific registers of the FAB page. -/
def regsFab : List RegDef := [
  -- TCFG
  ⟨0x100, 0x0, 1, [⟨31, 28, .rw, 6, [(1, 15)]⟩, ⟨27, 16, .rw, 40, [(10, 4000)]⟩, ⟨15, 8, .rw, 5, [(1, 100)]⟩, ⟨7, 0, .rw, 20, [(5, 200)]⟩]⟩,
  -- MT_SEL
  ⟨0x104, 0x0, 1, [⟨7, 0, .rw, 0, []⟩]⟩,
  -- MT_SRC
  ⟨0x108, 0x0, 1, [⟨31, 31, .rw, 0, []⟩, ⟨27, 14, .rw, 0, []⟩, ⟨13, 0, .rw, 0, []⟩]⟩,
  -- MT_LOCAL
  ⟨0x10C, 0x0, 1, [⟨31, 0, .rw, 0, []⟩]⟩,
  -- MT_RELAY
  ⟨0x110, 0x0, 1, [⟨31, 0, .rw, 0, []⟩]⟩,
  -- MT_OUTER
  ⟨0x114, 0x0, 1, [⟨15, 0, .rw, 0, []⟩]⟩,
  -- MT_CUM
  ⟨0x118, 0x0, 1, [⟨31, 0, .ro, 0, []⟩]⟩,
  -- MT_DROP
  ⟨0x11C, 0x0, 1, [⟨15, 0, .ro, 0, []⟩]⟩,
  -- LSTAT
  ⟨0x120, 0x0, 1, [⟨31, 0, .ro, 0, []⟩]⟩,
  -- SRT
  ⟨0x800, 0x4, 512, [⟨31, 0, .rw, 0, []⟩]⟩]

/-- Block-specific registers of the MEM page. -/
def regsMem : List RegDef := [
  -- WCTRL
  ⟨0x100, 0x0, 1, [⟨1, 1, .ro, 0, []⟩, ⟨0, 0, .wo, 0, []⟩]⟩,
  -- RCFG
  ⟨0x104, 0x0, 1, [⟨12, 0, .rw, 100, [(20, 4000)]⟩]⟩,
  -- WBASE_LO
  ⟨0x200, 0x20, 64, [⟨31, 12, .rw, 0, []⟩]⟩,
  -- WBASE_HI
  ⟨0x204, 0x20, 64, [⟨15, 0, .rw, 0, []⟩]⟩,
  -- WSIZE
  ⟨0x208, 0x20, 64, [⟨31, 0, .rw, 0, []⟩]⟩,
  -- WDEV
  ⟨0x20C, 0x20, 64, [⟨29, 16, .rw, 0, []⟩, ⟨13, 0, .rw, 0, []⟩]⟩,
  -- WATTR
  ⟨0x210, 0x20, 64, [⟨31, 31, .rw, 0, []⟩, ⟨30, 29, .rw, 0, [(0, 2)]⟩, ⟨28, 28, .rw, 0, []⟩, ⟨27, 27, .rw, 0, []⟩, ⟨26, 26, .rw, 0, []⟩, ⟨25, 25, .rw, 0, []⟩, ⟨24, 24, .rw, 0, []⟩]⟩]

/-- Block-specific registers of the XDM page. -/
def regsXdm : List RegDef := [
  -- XSTAT
  ⟨0x100, 0x0, 1, [⟨25, 16, .ro, 0, []⟩, ⟨8, 0, .ro, 0, []⟩]⟩]

/-- Block-specific registers of the COL page. -/
def regsCol : List RegDef := [
  -- CSTAT
  ⟨0x100, 0x0, 1, [⟨10, 8, .ro, 0, []⟩, ⟨6, 0, .ro, 0, []⟩]⟩,
  -- CCFG0
  ⟨0x200, 0x0, 1, [⟨31, 24, .rw, 100, []⟩, ⟨23, 16, .rw, 20, [(15, 255)]⟩, ⟨15, 8, .rw, 160, [(2, 255)]⟩, ⟨3, 0, .rw, 8, [(1, 15)]⟩]⟩,
  -- CCFG1
  ⟨0x204, 0x0, 1, [⟨7, 0, .rw, 10, [(2, 100)]⟩]⟩,
  -- GT_SEL
  ⟨0x208, 0x0, 1, [⟨7, 0, .rw, 0, []⟩]⟩,
  -- GT_CFG
  ⟨0x20C, 0x0, 1, [⟨31, 31, .rw, 0, []⟩, ⟨30, 28, .rw, 0, []⟩, ⟨27, 24, .rw, 0, []⟩, ⟨21, 12, .rw, 0, []⟩]⟩,
  -- GT_SHAPE
  ⟨0x210, 0x0, 1, [⟨25, 16, .rw, 0, [(0, 511)]⟩, ⟨5, 0, .rw, 0, [(1, 32)]⟩]⟩,
  -- GT_LOCAL
  ⟨0x214, 0x0, 1, [⟨31, 0, .rw, 0, []⟩]⟩,
  -- GT_RING
  ⟨0x218, 0x0, 1, [⟨31, 16, .rw, 0, []⟩, ⟨15, 0, .rw, 0, []⟩]⟩,
  -- GT_SEQ
  ⟨0x21C, 0x0, 1, [⟨31, 0, .ro, 0, []⟩]⟩,
  -- ABORT_REC
  ⟨0x220, 0x0, 1, [⟨31, 28, .ro, 0, []⟩, ⟨21, 8, .ro, 0, []⟩, ⟨7, 0, .ro, 0, []⟩]⟩,
  -- DOM_ORD
  ⟨0x244, 0x4, 15, [⟨11, 0, .ro, 0, []⟩]⟩,
  -- ABORT_SEQ
  ⟨0x284, 0x0, 1, [⟨31, 0, .ro, 0, []⟩]⟩]

/-- Block-specific registers of the MBR page. -/
def regsMbr : List RegDef := [
  -- MSTAT
  ⟨0x100, 0x0, 1, [⟨12, 8, .ro, 0, []⟩, ⟨7, 7, .ro, 0, []⟩, ⟨6, 6, .ro, 0, []⟩, ⟨5, 5, .ro, 0, []⟩, ⟨4, 4, .ro, 0, []⟩, ⟨3, 3, .ro, 0, []⟩, ⟨2, 0, .ro, 0, []⟩]⟩,
  -- DEVNUM
  ⟨0x104, 0x0, 1, [⟨31, 31, .ro, 0, []⟩, ⟨13, 0, .ro, 16383, []⟩]⟩,
  -- MEPOCH
  ⟨0x108, 0x0, 1, [⟨31, 0, .ro, 0, []⟩]⟩,
  -- QUORUM
  ⟨0x10C, 0x0, 1, [⟨7, 4, .ro, 0, []⟩, ⟨3, 0, .ro, 0, []⟩]⟩,
  -- POLICY
  ⟨0x110, 0x0, 1, [⟨31, 16, .ro, 4, []⟩, ⟨15, 0, .ro, 60, []⟩]⟩,
  -- RATE_STAT
  ⟨0x114, 0x0, 1, [⟨31, 16, .ro, 0, []⟩, ⟨15, 0, .ro, 0, []⟩]⟩,
  -- CMD_LAST
  ⟨0x118, 0x0, 1, [⟨31, 16, .ro, 0, []⟩, ⟨15, 8, .ro, 0, []⟩, ⟨3, 0, .ro, 0, []⟩]⟩,
  -- VIEW_SEL
  ⟨0x11C, 0x0, 1, [⟨10, 0, .rw, 0, []⟩]⟩,
  -- VIEW_DATA
  ⟨0x120, 0x0, 1, [⟨31, 0, .ro, 0, []⟩]⟩,
  -- HCFG
  ⟨0x124, 0x0, 1, [⟨31, 24, .rw, 10, [(1, 255)]⟩, ⟨23, 16, .rw, 1, [(1, 100)]⟩, ⟨15, 0, .rw, 100, [(10, 10000)]⟩]⟩,
  -- HSCORE
  ⟨0x128, 0x0, 1, [⟨23, 16, .ro, 0, []⟩, ⟨10, 8, .ro, 0, []⟩, ⟨7, 0, .ro, 255, []⟩]⟩,
  -- HWEIGHT0
  ⟨0x12C, 0x0, 1, [⟨31, 0, .rw, 134291457, []⟩]⟩,
  -- HWEIGHT1
  ⟨0x130, 0x0, 1, [⟨31, 0, .rw, 17305616, []⟩]⟩,
  -- NBR
  ⟨0x200, 0x4, 32, [⟨31, 31, .ro, 0, []⟩, ⟨30, 30, .ro, 0, []⟩, ⟨29, 24, .ro, 0, []⟩, ⟨13, 0, .ro, 0, []⟩]⟩]

/-- Block-specific registers of the TIM page. SET_NS is given as below 10^9 with no word on larger values: taken as reserved
encodings (DESIGN CHOICE, log entry 96; unsafe). -/
def regsTim : List RegDef := [
  -- TCTL
  ⟨0x100, 0x0, 1, [⟨31, 24, .rw, 128, []⟩, ⟨23, 20, .rw, 6, [(4, 10)]⟩, ⟨15, 8, .rw, 5, [(2, 50)]⟩, ⟨0, 0, .rw, 1, []⟩]⟩,
  -- TSTAT
  ⟨0x104, 0x0, 1, [⟨19, 16, .ro, 0, []⟩, ⟨4, 4, .w1c, 0, []⟩, ⟨3, 3, .ro, 0, []⟩, ⟨2, 2, .ro, 0, []⟩, ⟨1, 1, .ro, 1, []⟩, ⟨0, 0, .ro, 0, []⟩]⟩,
  -- ROOT
  ⟨0x108, 0x0, 1, [⟨31, 24, .ro, 0, []⟩, ⟨14, 14, .ro, 0, []⟩, ⟨13, 0, .ro, 16383, []⟩]⟩,
  -- PARENT
  ⟨0x10C, 0x0, 1, [⟨27, 22, .ro, 0, []⟩, ⟨21, 17, .ro, 0, []⟩, ⟨16, 16, .ro, 0, []⟩, ⟨13, 0, .ro, 0, []⟩]⟩,
  -- OFFSET
  ⟨0x110, 0x0, 1, [⟨31, 0, .ro, 0, []⟩]⟩,
  -- FREQ
  ⟨0x114, 0x0, 1, [⟨31, 0, .ro, 0, []⟩]⟩,
  -- DELAY
  ⟨0x118, 0x0, 1, [⟨31, 0, .ro, 0, []⟩]⟩,
  -- NOW_NS
  ⟨0x120, 0x0, 1, [⟨31, 0, .ro, 0, []⟩]⟩,
  -- NOW_SEC_LO
  ⟨0x124, 0x0, 1, [⟨31, 0, .ro, 0, []⟩]⟩,
  -- NOW_HI
  ⟨0x128, 0x0, 1, [⟨31, 16, .ro, 0, []⟩, ⟨15, 0, .ro, 0, []⟩]⟩,
  -- SET_NS
  ⟨0x130, 0x0, 1, [⟨31, 0, .rw, 0, [(0, 999999999)]⟩]⟩,
  -- SET_SEC_LO
  ⟨0x134, 0x0, 1, [⟨31, 0, .rw, 0, []⟩]⟩,
  -- SET_SEC_HI
  ⟨0x138, 0x0, 1, [⟨15, 0, .rw, 0, []⟩]⟩,
  -- SET_CTL
  ⟨0x13C, 0x0, 1, [⟨2, 2, .w1c, 0, []⟩, ⟨1, 1, .ro, 0, []⟩, ⟨0, 0, .wo, 0, []⟩]⟩,
  -- PPS_CTL
  ⟨0x140, 0x0, 1, [⟨15, 8, .rw, 100, [(1, 255)]⟩, ⟨0, 0, .rw, 1, []⟩]⟩,
  -- PTP_CTL
  ⟨0x144, 0x0, 1, [⟨31, 24, .rw, 0, [(0, 127)]⟩, ⟨23, 20, .rw, 1, [(0, 4)]⟩, ⟨19, 16, .rw, 0, [(0, 1), (15, 15)]⟩, ⟨15, 12, .rw, 0, [(0, 5)]⟩, ⟨4, 3, .rw, 0, [(0, 2)]⟩, ⟨1, 1, .rw, 0, []⟩, ⟨0, 0, .rw, 0, []⟩]⟩,
  -- PTP_CLOCK
  ⟨0x148, 0x0, 1, [⟨31, 24, .rw, 128, []⟩, ⟨23, 16, .rw, 128, []⟩, ⟨15, 8, .rw, 248, []⟩, ⟨7, 0, .rw, 254, []⟩]⟩,
  -- PTP_UTC
  ⟨0x14C, 0x0, 1, [⟨16, 16, .rw, 0, []⟩, ⟨15, 0, .rw, 37, []⟩]⟩,
  -- CAP_CTL
  ⟨0x180, 0x10, 4, [⟨7, 7, .w1c, 0, []⟩, ⟨3, 1, .rw, 0, [(0, 4)]⟩, ⟨0, 0, .rw, 0, []⟩]⟩,
  -- CAP_NS
  ⟨0x184, 0x10, 4, [⟨31, 0, .ro, 0, []⟩]⟩,
  -- CAP_SEC_LO
  ⟨0x188, 0x10, 4, [⟨31, 0, .ro, 0, []⟩]⟩,
  -- CAP_HI
  ⟨0x18C, 0x10, 4, [⟨31, 16, .ro, 0, []⟩, ⟨15, 0, .ro, 0, []⟩]⟩,
  -- ASYM
  ⟨0x200, 0x4, 64, [⟨31, 0, .rw, 0, []⟩]⟩]

/-- Block-specific registers of the FLT page. -/
def regsFlt : List RegDef := [
  -- FCTRL
  ⟨0x100, 0x0, 1, [⟨31, 24, .rwl, 3, []⟩, ⟨23, 12, .rwl, 250, [(10, 4000)]⟩, ⟨11, 4, .rw, 10, [(1, 255)]⟩, ⟨3, 3, .rwl, 0, []⟩, ⟨2, 2, .wo, 0, []⟩, ⟨1, 1, .wo, 0, []⟩, ⟨0, 0, .rwl, 1, []⟩]⟩,
  -- FSTAT
  ⟨0x104, 0x0, 1, [⟨31, 24, .ro, 0, []⟩, ⟨4, 4, .w1c, 0, []⟩, ⟨3, 3, .w1c, 0, []⟩, ⟨2, 2, .ro, 0, []⟩, ⟨1, 1, .ro, 0, []⟩, ⟨0, 0, .ro, 0, []⟩]⟩,
  -- FCAUSE
  ⟨0x108, 0x0, 1, [⟨31, 31, .ro, 0, []⟩, ⟨26, 25, .ro, 0, []⟩, ⟨24, 20, .ro, 0, []⟩, ⟨19, 0, .ro, 0, []⟩]⟩,
  -- FT_NS
  ⟨0x10C, 0x0, 1, [⟨31, 0, .ro, 0, []⟩]⟩,
  -- FT_SEC
  ⟨0x110, 0x0, 1, [⟨31, 0, .ro, 0, []⟩]⟩,
  -- PIN_CTL
  ⟨0x114, 0x0, 1, [⟨1, 1, .ro, 0, []⟩, ⟨0, 0, .w1c, 0, []⟩]⟩,
  -- LOG_HEAD
  ⟨0x118, 0x0, 1, [⟨31, 0, .ro, 0, []⟩]⟩,
  -- LOG
  ⟨0x400, 0x4, 256, [⟨31, 0, .ro, 0, []⟩]⟩]

/-- Block-specific registers of the THM page. -/
def regsThm : List RegDef := [
  -- TCFG
  ⟨0x100, 0x0, 1, [⟨31, 24, .rwl, 64, [(16, 96)]⟩, ⟨23, 16, .rwl, 20, [(1, 100)]⟩, ⟨15, 12, .rwl, 2, [(1, 15)]⟩, ⟨7, 4, .rwl, 2, [(1, 15)]⟩, ⟨3, 0, .rwl, 5, [(1, 15)]⟩]⟩,
  -- TSTAT
  ⟨0x104, 0x0, 1, [⟨31, 24, .ro, 0, []⟩, ⟨23, 16, .ro, 0, []⟩, ⟨11, 11, .ro, 0, []⟩, ⟨10, 10, .ro, 0, []⟩, ⟨9, 9, .ro, 0, []⟩, ⟨8, 8, .ro, 0, []⟩, ⟨7, 0, .ro, 0, []⟩]⟩,
  -- HOTTEST
  ⟨0x108, 0x0, 1, [⟨22, 16, .ro, 0, []⟩, ⟨11, 0, .ro, 0, []⟩]⟩,
  -- CRIT_LOG
  ⟨0x10C, 0x0, 1, [⟨31, 31, .w1c, 0, []⟩, ⟨30, 30, .ro, 0, []⟩, ⟨22, 16, .ro, 0, []⟩, ⟨11, 0, .ro, 0, []⟩]⟩,
  -- TCFG2
  ⟨0x110, 0x0, 1, [⟨7, 0, .rwl, 10, [(1, 255)]⟩]⟩,
  -- THR
  ⟨0x120, 0x4, 5, [⟨31, 24, .rwl, 0, []⟩, ⟨23, 16, .rwl, 0, []⟩, ⟨15, 8, .rwl, 0, []⟩, ⟨3, 0, .rwl, 3, [(1, 15)]⟩]⟩,
  -- SENS
  ⟨0x200, 0x4, 128, [⟨31, 31, .ro, 0, []⟩, ⟨30, 29, .ro, 0, []⟩, ⟨27, 16, .ro, 0, []⟩, ⟨11, 0, .ro, 0, []⟩]⟩]

/-- Block-specific registers of the PWR page. -/
def regsPwr : List RegDef := [
  -- PCTRL
  ⟨0x100, 0x0, 1, [⟨10, 8, .rw, 0, []⟩, ⟨6, 4, .rwl, 5, [(1, 7)]⟩]⟩,
  -- PLIMIT
  ⟨0x104, 0x0, 1, [⟨15, 0, .rwl, 0, []⟩]⟩,
  -- PIN
  ⟨0x108, 0x0, 1, [⟨31, 16, .ro, 0, []⟩, ⟨15, 0, .ro, 0, []⟩]⟩,
  -- STEP
  ⟨0x110, 0x4, 8, [⟨10, 10, .ro, 0, []⟩, ⟨9, 9, .ro, 0, []⟩, ⟨8, 8, .ro, 0, []⟩, ⟨6, 4, .ro, 0, []⟩, ⟨2, 0, .ro, 0, []⟩]⟩]

/-- Block-specific registers of the HPT page. -/
def regsHpt : List RegDef := [
  -- HCTRL
  ⟨0x100, 0x0, 1, [⟨4, 4, .rw, 0, []⟩, ⟨3, 3, .rw, 0, []⟩, ⟨2, 2, .rw, 0, []⟩, ⟨1, 1, .rw, 0, []⟩, ⟨0, 0, .rw, 1, []⟩]⟩,
  -- VLAN
  ⟨0x104, 0x0, 1, [⟨15, 13, .rw, 0, []⟩, ⟨11, 0, .rw, 1, [(1, 4094)]⟩]⟩,
  -- MAC_LO
  ⟨0x108, 0x0, 1, [⟨31, 0, .ro, 0, []⟩]⟩,
  -- MAC_HI
  ⟨0x10C, 0x0, 1, [⟨15, 0, .ro, 0, []⟩]⟩,
  -- IPV4
  ⟨0x110, 0x0, 1, [⟨31, 0, .rw, 0, []⟩]⟩,
  -- UDP
  ⟨0x114, 0x0, 1, [⟨15, 0, .rw, 47300, [(1, 65535)]⟩]⟩,
  -- PFC
  ⟨0x118, 0x0, 1, [⟨18, 16, .rw, 0, []⟩, ⟨15, 8, .rw, 192, [(2, 255)]⟩, ⟨7, 0, .rw, 128, []⟩]⟩,
  -- SCFG
  ⟨0x11C, 0x0, 1, [⟨31, 24, .rw, 30, [(1, 255)]⟩, ⟨23, 16, .rw, 10, [(1, 255)]⟩]⟩,
  -- LSTAT
  ⟨0x120, 0x0, 1, [⟨2, 2, .ro, 0, []⟩, ⟨1, 1, .ro, 0, []⟩, ⟨0, 0, .ro, 0, []⟩]⟩,
  -- SSTAT
  ⟨0x124, 0x0, 1, [⟨31, 16, .ro, 0, []⟩, ⟨4, 4, .ro, 0, []⟩, ⟨3, 0, .ro, 0, []⟩]⟩,
  -- IPV6
  ⟨0x130, 0x4, 4, [⟨31, 0, .rw, 0, []⟩]⟩]

/-- Block-specific registers of the SEC page. -/
def regsSec : List RegDef := [
  -- BSTAT
  ⟨0x100, 0x0, 1, [⟨12, 12, .ro, 0, []⟩, ⟨11, 8, .ro, 0, []⟩, ⟨3, 0, .ro, 0, []⟩]⟩,
  -- SVN
  ⟨0x104, 0x0, 1, [⟨14, 8, .ro, 0, []⟩, ⟨6, 0, .ro, 0, []⟩]⟩,
  -- SVN_CTL
  ⟨0x108, 0x0, 1, [⟨2, 2, .w1c, 0, []⟩, ⟨1, 1, .w1c, 0, []⟩, ⟨0, 0, .wo, 0, []⟩]⟩,
  -- KEYSLOT
  ⟨0x10C, 0x0, 1, [⟨9, 8, .ro, 0, []⟩, ⟨7, 4, .ro, 0, []⟩, ⟨3, 0, .ro, 0, []⟩]⟩,
  -- TRUST
  ⟨0x110, 0x0, 1, [⟨31, 0, .ro, 0, []⟩]⟩,
  -- TRUST_CFG
  ⟨0x114, 0x0, 1, [⟨8, 8, .ro, 0, []⟩, ⟨7, 4, .ro, 0, []⟩, ⟨3, 0, .ro, 0, []⟩]⟩,
  -- LOG_COUNT
  ⟨0x118, 0x0, 1, [⟨7, 0, .ro, 0, []⟩]⟩,
  -- ID_HASH
  ⟨0x120, 0x4, 8, [⟨31, 0, .ro, 0, []⟩]⟩,
  -- SELFTEST
  ⟨0x140, 0x0, 1, [⟨1, 1, .ro, 0, []⟩, ⟨0, 0, .ro, 0, []⟩]⟩]

/-- Block-specific registers of the EAS page. -/
def regsEas : List RegDef := [
  -- ESTAT
  ⟨0x100, 0x0, 1, [⟨0, 0, .ro, 0, []⟩]⟩,
  -- HEARTBEAT
  ⟨0x104, 0x0, 1, [⟨31, 0, .ro, 0, []⟩]⟩,
  -- TRAPQ
  ⟨0x108, 0x0, 1, [⟨6, 0, .ro, 0, []⟩]⟩,
  -- CLAIM
  ⟨0x200, 0x4, 21, [⟨31, 31, .ro, 0, []⟩, ⟨30, 28, .rw, 0, []⟩, ⟨27, 14, .rw, 0, []⟩, ⟨13, 12, .rw, 0, []⟩, ⟨2, 2, .wo, 0, []⟩, ⟨1, 1, .wo, 0, []⟩, ⟨0, 0, .wo, 0, []⟩]⟩]

/-- Block-specific registers of the DBG page. -/
def regsDbg : List RegDef := [
  -- DCTRL
  ⟨0x100, 0x0, 1, [⟨10, 8, .rw, 0, []⟩, ⟨3, 1, .rw, 0, [(0, 3)]⟩, ⟨0, 0, .rw, 0, []⟩]⟩,
  -- DSTRB
  ⟨0x104, 0x0, 1, [⟨0, 0, .wo, 0, []⟩]⟩]


/-! ### The common head (R514 to R519) -/

def PG_CTRL_LOCK : Fld := ⟨0x008, 0, 0⟩
def PG_CTRL_CNT_CLR : Fld := ⟨0x008, 1, 1⟩
def PG_STAT_REJ_OFF : Fld := ⟨0x00C, 27, 16⟩
def PG_STAT_LOCKED_WR : Fld := ⟨0x00C, 1, 1⟩
def PG_STAT_REFUSED : Fld := ⟨0x00C, 0, 0⟩
def PG_LATTOL_STATE : Fld := ⟨0x010, 18, 16⟩
def PG_LATTOL_IDLE_US : Fld := ⟨0x010, 15, 8⟩
def PG_LATTOL_TOL : Fld := ⟨0x010, 2, 0⟩
def ERR_STAT_SEEN : Fld := ⟨0x020, 31, 0⟩
def ERR_MASK_MASK : Fld := ⟨0x024, 31, 0⟩
def ERR_INJECT_REFUSED : Fld := ⟨0x028, 15, 15⟩
def ERR_INJECT_NSYM : Fld := ⟨0x028, 14, 12⟩
def ERR_INJECT_MODE : Fld := ⟨0x028, 11, 10⟩
def ERR_INJECT_ARM : Fld := ⟨0x028, 8, 8⟩
def ERR_INJECT_SOURCE : Fld := ⟨0x028, 4, 0⟩
def ERR_FIRST_VALID : Fld := ⟨0x02C, 31, 31⟩
def ERR_FIRST_CLASS : Fld := ⟨0x02C, 30, 29⟩
def ERR_FIRST_SOURCE : Fld := ⟨0x02C, 28, 24⟩
def ERR_FIRST_MCOUNT : Fld := ⟨0x02C, 23, 16⟩
def ERR_FIRST_DETAIL : Fld := ⟨0x02C, 15, 0⟩
def ERR_MERGED_MASK : Fld := ⟨0x030, 31, 0⟩
def ERR_ACTION_RATE : Fld := ⟨0x080, 11, 8⟩
def ERR_ACTION_REACT : Fld := ⟨0x080, 5, 0⟩

/-- Head registers common to every page whose writes follow R16 alone. The error registers' own write rules
(R422, R425, R430, R441) stand in Errors.lean. -/
def regsHead : List RegDef := [
  -- PG_CTRL
  ⟨0x008, 0x0, 1, [⟨1, 1, .wo, 0, []⟩, ⟨0, 0, .rwl, 0, []⟩]⟩,
  -- PG_STAT
  ⟨0x00C, 0x0, 1, [⟨27, 16, .ro, 0, []⟩, ⟨1, 1, .w1c, 0, []⟩, ⟨0, 0, .w1c, 0, []⟩]⟩,
  -- ERR_STAT
  ⟨0x020, 0x0, 1, [⟨31, 0, .w1c, 0, []⟩]⟩,
  -- ERR_MASK
  ⟨0x024, 0x0, 1, [⟨31, 0, .rw, 0, []⟩]⟩,
  -- ERR_INJECT
  ⟨0x028, 0x0, 1, [⟨15, 15, .w1c, 0, []⟩, ⟨14, 12, .rw, 0, []⟩, ⟨11, 10, .rw, 0, [(0, 2)]⟩, ⟨8, 8, .rw, 0, []⟩, ⟨4, 0, .rw, 0, []⟩]⟩,
  -- ERR_FIRST
  ⟨0x02C, 0x0, 1, [⟨31, 31, .w1c, 0, []⟩, ⟨30, 29, .ro, 0, []⟩, ⟨28, 24, .ro, 0, []⟩, ⟨23, 16, .ro, 0, []⟩, ⟨15, 0, .ro, 0, []⟩]⟩,
  -- ERR_MERGED
  ⟨0x030, 0x0, 1, [⟨31, 0, .ro, 0, []⟩]⟩]

/-- PG_LATTOL (R462), on the pages with power states. -/
def regLattol : RegDef :=
  ⟨0x010, 0x0, 1, [⟨18, 16, .ro, 0, []⟩, ⟨15, 8, .rw, 16, [(1, 255)]⟩, ⟨2, 0, .rw, 0, [(0, 4)]⟩]⟩

/-- Pages that have power states (R462). -/
def PageType.hasLattol : PageType → Bool
  | .arr | .vec | .dma | .skm | .aqt | .plt => true
  | _ => false

/-- The block-specific registers of a page type; DMA and SKM pages have none (R521). -/
def PageType.body : PageType → List RegDef
  | .grv => regsGrv | .arr => regsArr | .vec => regsVec | .dma => [] | .skm => [] | .srm => regsSrm
  | .dev => regsDev | .flt => regsFlt | .thm => regsThm | .pwr => regsPwr | .sec => regsSec | .eas => regsEas
  | .mbr => regsMbr | .tim => regsTim | .hpt => regsHpt | .mem => regsMem | .xdm => regsXdm | .col => regsCol
  | .fab => regsFab | .stl => regsStl | .key => regsKey | .aqt => regsAqt | .plt => regsPlt | .dbg => regsDbg

/-- The registers of a page type that the generic write rules serve: the head and the block-specific part. -/
def PageType.regs (t : PageType) : List RegDef :=
  (if t.hasLattol then [regLattol] else []) ++ regsHead ++ t.body

/-- Block type code of R521. -/
def PageType.code : PageType → Nat
  | .grv => 0x01 | .arr => 0x02 | .vec => 0x03 | .dma => 0x04 | .skm => 0x05 | .srm => 0x06
  | .dev => 0x10 | .flt => 0x11 | .thm => 0x12 | .pwr => 0x13 | .sec => 0x14 | .eas => 0x15
  | .mbr => 0x16 | .tim => 0x17 | .hpt => 0x18 | .mem => 0x19 | .xdm => 0x1A | .col => 0x1B
  | .fab => 0x1C | .stl => 0x1D | .key => 0x1E | .aqt => 0x1F | .plt => 0x20 | .dbg => 0x21

/-- 64-bit counters the page's chapter defines (PG_FEAT.NCNT, R516). -/
def PageType.ncnt : PageType → Nat
  | .grv => 5 | .arr => 8 | .vec => 2 | .dma => 0 | .skm => 0 | .srm => 3
  | .dev => 0 | .flt => 6 | .thm => 2 | .pwr => 5 | .sec => 4 | .eas => 2
  | .mbr => 6 | .tim => 6 | .hpt => 8 | .mem => 5 | .xdm => 4 | .col => 7
  | .fab => 8 | .stl => 8 | .key => 4 | .aqt => 4 | .plt => 8 | .dbg => 4

/-- The error sources of a page type in index order: class code (R419), CHK and LATCH (R420). -/
def PageType.sources : PageType → List (Nat × Bool × Bool)
  | .arr => [(1, true, false), (1, true, false), (2, false, false), (1, true, false)]
  | .vec => [(1, true, false)]
  | .grv => [(1, false, false), (1, false, false), (1, false, false), (1, false, false), (1, true, false),
      (1, true, false), (1, false, false), (1, false, false), (1, false, false), (1, false, false),
      (1, false, false), (1, false, false)]
  | .dma => [(1, true, false), (1, true, false)]
  | .skm => [(1, true, false)]
  | .srm => [(0, true, false), (1, true, false), (1, true, false), (1, true, false)]
  | .plt => [(0, true, false), (1, true, false), (1, true, false), (2, false, true), (2, false, true),
      (1, true, false)]
  | .aqt => [(1, true, false), (1, false, false), (0, false, false), (1, false, false), (3, false, false),
      (3, false, false), (1, false, false), (1, true, false)]
  | .stl => [(0, true, false), (0, false, false), (1, false, false), (3, false, false), (3, false, false),
      (3, false, false), (1, false, false), (1, false, false), (0, false, false), (3, false, false)]
  | .key => [(0, false, false), (1, false, false), (0, false, false), (1, false, false), (3, false, false)]
  | .fab => [(0, true, false), (0, false, false), (1, false, false), (0, false, false), (1, false, false),
      (0, false, false), (1, false, false), (0, true, false), (0, false, false)]
  | .mem => [(1, false, false), (0, false, false), (1, false, false), (0, false, false), (1, true, false)]
  | .xdm => [(1, true, false), (1, false, false), (1, true, false)]
  | .col => [(1, false, false), (1, false, false), (1, true, false), (1, true, false), (1, false, false),
      (1, false, false), (1, false, false), (0, false, false), (1, false, false)]
  | .mbr => [(1, false, false), (1, false, false), (1, false, false), (1, false, false), (1, false, false),
      (1, true, false), (1, false, false), (0, false, false), (0, false, false)]
  | .tim => [(0, false, false), (0, false, false), (1, false, false), (3, false, false), (1, false, false)]
  | .flt => [(0, true, false), (2, false, true), (2, false, true), (2, false, true), (0, true, false),
      (2, false, false), (2, true, false), (2, true, false), (2, true, false), (2, true, false),
      (1, true, false), (2, false, false), (2, false, false), (2, false, false), (3, false, false),
      (1, false, false)]
  | .thm => [(3, false, false), (3, false, false), (3, false, false), (3, false, false), (3, false, false),
      (3, false, false)]
  | .pwr => [(3, false, false), (3, false, false), (2, false, true)]
  | .hpt => [(0, true, false), (1, false, false), (0, true, false), (0, true, false), (1, false, false),
      (0, false, false), (3, false, false), (0, false, false)]
  | .sec => [(1, false, false), (2, false, true), (1, false, false), (0, false, false), (1, false, false),
      (2, true, true)]
  | .eas => [(1, false, false), (1, false, false)]
  | .dbg => []
  | .dev => []

end Sys2Proof.Machine
end

