-- ==== Sys2Proof/Machine/Pages.lean ====
section
/-!
DEFINITION. The parts and their fuses (R7, R19, R31 to R33), the page index of R521, and the value each register
has at reset.
-/

namespace Sys2Proof.Machine

/-- The part numbers of R7. -/
inductive Part where
  | g1608 | g1604 | g0808 | g0804
deriving DecidableEq, Repr

/-- PART_CODE of R33. -/
def Part.code : Part → Nat
  | .g1608 => 1 | .g1604 => 2 | .g0808 => 3 | .g0804 => 4

/-- Fitted plates (R7). -/
def Part.plates : Part → Nat
  | .g1608 | .g1604 => 16
  | .g0808 | .g0804 => 8

/-- Fitted Strelist dies (R7). -/
def Part.dies : Part → Nat
  | .g1608 | .g0808 => 8
  | .g1604 | .g0804 => 4

/-- Aquatint engines: two for each Strelist die (R20). -/
def Part.aqts (p : Part) : Nat := 2 * p.dies
/-- Sheet planes (R7). -/
def Part.sheetPlanes (p : Part) : Nat := 6 * p.dies
/-- Outer planes (R7). -/
def Part.outerPlanes (p : Part) : Nat := 2 * p.dies
/-- XDMA engines present (R19). -/
def Part.xdmas (p : Part) : Nat := 4 * p.dies
/-- COLL engines present (R19). -/
def Part.colls (p : Part) : Nat := p.dies
/-- TDP in watts (R7). -/
def Part.tdp : Part → Nat
  | .g1608 => 3600 | .g1604 => 3150 | .g0808 => 3350 | .g0804 => 2900
/-- Size of the plate region in bytes: 6 GiB a plate (R12, R33). -/
def Part.span (p : Part) : Nat := 0x180000000 * p.plates
/-- DEV_PLATE_MAP.PRESENT (R33). -/
def Part.plateMap : Part → Nat
  | .g1608 | .g1604 => 0xFFFF
  | .g0808 | .g0804 => 0x5555
/-- DEV_STL_MAP.PRESENT (R33). -/
def Part.stlMap : Part → Nat
  | .g1608 | .g0808 => 0xFF
  | .g1604 | .g0804 => 0x55
/-- Position Sk of Strelist instance i (R20). -/
def Part.stlPos (p : Part) (i : Nat) : Nat := if p.dies = 8 then i else 2 * i
/-- Plate position of plate k (R20). -/
def Part.platePos (p : Part) (k : Nat) : Nat := if p.plates = 16 then k else 2 * k

/-- What the factory burns (R28, R31, R500, R502 to R504). -/
structure Fuses where
  part : Part
  /-- physical column of the fused core of row r of die d, at key 18d + r; unlisted 16 -/
  fcol : SMap Nat
  mac : BitVec 48
  serial : DWord
  /-- the 32-byte identity seed -/
  idSeed : List Byte
  /-- vendor key slots 0 to 3 provisioned, revoked, and their digests -/
  keyValid : List Bool
  keyRevoked : List Bool
  keyDigest : List (List Byte)
  /-- SVN_MIN as loaded at the last start-up, and as burnt since, 0 to 64 (R502) -/
  svnMin : Nat
  svnBurnt : Nat
  /-- manufacturing signature of the identity certificate -/
  certSig : List Byte
deriving DecidableEq, Repr

/-- Physical column of the fused core of row `r` of die `d` (R28, R31). -/
def Fuses.row (f : Fuses) (d r : Nat) : Nat := smGet 16 f.fcol (18 * d + r)

/-- The row of enabled core `n` of a die (R28). -/
def coreRow (n : Nat) : Nat := n / 16

/-- The physical column of logical column `l` of row `r` of die `d`: the enabled cores in ascending order, past the fused one
(R28). -/
def Fuses.column (f : Fuses) (d r l : Nat) : Nat := if l < f.row d r then l else l + 1

/-- The physical row and column of enabled core `n` of die `d` (R28). -/
def Fuses.place (f : Fuses) (d n : Nat) : Nat × Nat := (coreRow n, f.column d (coreRow n) (n % 16))

/-- The identity public key (R503). -/
def Fuses.idKey (f : Fuses) : List Byte := leBytes 1952 (Config.mldsaPublic f.idSeed)

/-- ID_HASH: SHAKE256 of the identity public key, 32 bytes (R503). -/
def Fuses.idHash (f : Fuses) : List Byte := leBytes 32 (Config.shake 32 f.idKey)

/-- A 4-bit map of a list of booleans. -/
def boolMap (l : List Bool) : Nat := l.foldr (fun b n => b.toNat + 2 * n) 0

/-! ### The page index -/

/-- Number of instances of a device-level page type on a part (R19, R20, R521). -/
def PageType.count (p : Part) : PageType → Nat
  | .xdm => p.xdmas | .col => p.colls | .stl => p.dies | .key => p.dies | .aqt => p.aqts | .plt => p.plates
  | .grv | .arr | .vec | .dma | .skm | .srm => 2304
  | _ => 1

/-- The first page number of a device-level type (R521, R523). -/
def PageType.base : PageType → Nat
  | .dev => 0x8000 | .flt => 0x8020 | .thm => 0x8040 | .pwr => 0x8060 | .sec => 0x8080 | .eas => 0x80A0
  | .mbr => 0x80C0 | .tim => 0x80E0 | .hpt => 0x8100 | .mem => 0x8120 | .xdm => 0x8140 | .col => 0x8160
  | .fab => 0x8180 | .stl => 0x81A0 | .key => 0x81C0 | .aqt => 0x81E0 | .plt => 0x8200 | .dbg => 0x8220
  | .grv => 0 | .arr => 1 | .vec => 2 | .dma => 3 | .skm => 4 | .srm => 5

/-- The page number (PAGE of R426) of instance `i` of a type. -/
def pageNum (t : PageType) (i : Nat) : Nat :=
  match t with
  | .grv | .arr | .vec | .dma | .skm | .srm => 8 * i + t.base
  | _ => t.base + i

/-- The device-level type of slot `n` of 32 pages (R521). -/
def deviceType : Nat → Option PageType
  | 0 => some .dev | 1 => some .flt | 2 => some .thm | 3 => some .pwr | 4 => some .sec | 5 => some .eas
  | 6 => some .mbr | 7 => some .tim | 8 => some .hpt | 9 => some .mem | 10 => some .xdm | 11 => some .col
  | 12 => some .fab | 13 => some .stl | 14 => some .key | 15 => some .aqt | 16 => some .plt | 17 => some .dbg
  | _ => none

/-- The type of page `k` of a core group (R521). -/
def coreType : Nat → Option PageType
  | 0 => some .grv | 1 => some .arr | 2 => some .vec | 3 => some .dma | 4 => some .skm | 5 => some .srm
  | _ => none

/-- The type and instance of a page number, none where the part has no page there (R34, R523). -/
def pageOf (p : Part) (n : Nat) : Option (PageType × Nat) :=
  if n < 0x4800 then (coreType (n % 8)).map (fun t => (t, n / 8))
  else if n < 0x8000 then none
  else match deviceType ((n - 0x8000) / 32) with
    | none => none
    | some t => if (n - 0x8000) % 32 < t.count p then some (t, (n - 0x8000) % 32) else none

/-- Does instance `i` of the type hold offset `off`: the ALLOC registers exist in STL instance 0 only, and the
configuration registers of the collectives in COL instance 0 only (R270, R363). -/
def offPresent (t : PageType) (i off : Nat) : Bool :=
  match t with
  | .stl => decide (off < 0x300) || i == 0
  | .col => decide (off < 0x200) || i == 0
  | _ => true

/-- Does a register table row hold the offset. -/
def RegDef.holds (r : RegDef) (off : Nat) : Bool :=
  if r.count ≤ 1 then off == r.off
  else decide (r.off ≤ off) && decide (off < r.off + r.stride * r.count) && (off - r.off) % r.stride == 0

/-- The table row of a register; none for RSV offsets and for the registers with rules of their own. -/
def regFind (t : PageType) (i off : Nat) : Option RegDef :=
  if offPresent t i off then t.regs.find? (fun r => r.holds off) else none

/-- The word a register's fields reset to by its table row. -/
def RegDef.resetWord (r : RegDef) : Word :=
  r.fields.foldl (fun w f => putBits w f.hi f.lo f.reset) 0

/-! ### Error sources -/

/-- Class, CHK and LATCH of source `i`; none for a reserved source (R420). -/
def sourceOf (t : PageType) (i : Nat) : Option (Nat × Bool × Bool) := t.sources[i]?

/-- The reaction bits a class resets to (R421). -/
def classReact : Nat → Nat
  | 0 => 0x00 | 1 => 0x01 | 2 => 0x33 | _ => 0x03

/-- ERR_ACTION of source `i` at reset (R420, R421); 0 for a reserved source. -/
def actionReset (t : PageType) (i : Nat) : Word :=
  match sourceOf t i with
  | none => 0
  | some (cls, chk, latch) =>
    BitVec.ofNat 32 (0x8000 * chk.toNat + 0x2000 * cls + 0x1000 * latch.toNat + classReact cls)

/-! ### Values at reset -/

/-- DEV page words (R33). -/
def devReset (f : Fuses) (off : Nat) : Word :=
  let p := f.part
  if off = 0x100 then BitVec.ofNat 32 (0x1000000 * p.aqts + 0x10000 * p.dies + 0x100 * p.plates + p.code)
  else if off = 0x104 then
    BitVec.ofNat 32 (0x1000000 * p.colls + 0x10000 * p.xdmas + 0x100 * p.outerPlanes + p.sheetPlanes)
  else if off = 0x108 then BitVec.ofNat 32 p.plateMap
  else if off = 0x10C then BitVec.ofNat 32 p.stlMap
  else if off = 0x110 then BitVec.ofNat 32 (17 * 0x1000000 + 18 * 0x10000 + 8 * 0x1000 + 288)
  else if off = 0x118 then BitVec.ofNat 32 (p.span % 2 ^ 32)
  else if off = 0x11C then BitVec.ofNat 32 (p.span / 2 ^ 32)
  else if 0x140 ≤ off ∧ off < 0x1A0 then
    let j := (off - 0x140) / 4
    BitVec.ofNat 32 ((List.range 6).foldl
      (fun n i => n + f.row (j / 3) (6 * (j % 3) + i) * 2 ^ (5 * i)) 0)
  else 0

/-- THM.THR[class] at reset (R451). -/
def thrReset : Nat → Word
  | 0 => 0x5A5F6E03#32 | 1 => 0x555F6903#32 | 2 => 0x505A6403#32 | 3 => 0x5A5F6E03#32 | _ => 0x282D3703#32

/-- The value a register word has at reset: its table row's, or what the fuses or the spec's own tables give. -/
def regReset (f : Fuses) (t : PageType) (i off : Nat) : Word :=
  if 0x080 ≤ off ∧ off < 0x100 then actionReset t ((off - 0x080) / 4)
  else match t with
    | .dev => devReset f off
    | .key =>
      -- rings 16, 17 and 34, 35 of each fibre are the spares (R236)
      if 0x200 ≤ off ∧ off < 0x680 ∧ (off - 0x200) / 4 % 18 ≥ 16 then 0x40#32
      else ((regFind t i off).map RegDef.resetWord).getD 0
    | .thm =>
      if 0x120 ≤ off ∧ off < 0x134 then thrReset ((off - 0x120) / 4)
      else ((regFind t i off).map RegDef.resetWord).getD 0
    | .pwr =>
      if off = 0x104 then BitVec.ofNat 32 f.part.tdp
      else ((regFind t i off).map RegDef.resetWord).getD 0
    | .hpt =>
      if off = 0x108 then BitVec.ofNat 32 f.mac.toNat
      else if off = 0x10C then BitVec.ofNat 32 (f.mac.toNat / 2 ^ 32)
      else ((regFind t i off).map RegDef.resetWord).getD 0
    | .sec =>
      if off = 0x104 then BitVec.ofNat 32 f.svnMin
      else if off = 0x10C then BitVec.ofNat 32 (boolMap f.keyValid * 16 + boolMap f.keyRevoked)
      else if 0x120 ≤ off ∧ off < 0x140 then BitVec.ofNat 32 (leAt f.idHash (off - 0x120) 4)
      else ((regFind t i off).map RegDef.resetWord).getD 0
    | _ => ((regFind t i off).map RegDef.resetWord).getD 0

/-- Number of error sources that are not reserved (PG_FEAT.NSRC, R516). -/
def PageType.nsrc (t : PageType) : Nat := t.sources.length

/-- PG_ID (R515). -/
def pgId (t : PageType) (i : Nat) : Word := BitVec.ofNat 32 (0x1000000 * t.code + 0x1000 * i + 1)

/-- Is a register of this page governed by a shared-resource claim (R516, R525). -/
def PageType.claims : PageType → Bool
  | .tim | .dbg => true
  | _ => false

/-- PG_FEAT (R156, R516). -/
def pgFeat (t : PageType) : Word :=
  match t with
  | .grv => BitVec.ofNat 32 (1 * 0x1000000 + 1023 * 0x4000 + 32 * 0x100 + 8)
  | _ => BitVec.ofNat 32 (0x20000 * t.claims.toNat + 0x10000 * t.hasLattol.toNat + 0x100 * t.ncnt + t.nsrc)

end Sys2Proof.Machine
end

