-- ==== Sys2Proof/Machine/TypesCore.lean ====
section
/-!
DEFINITION. The state of a compute core (R35): the graver's window and rings, the arrays, the vector unit, the DMA and
sketch-match queues, the inbound tracker, and the commands that have been issued and have not completed.
-/

namespace Sys2Proof.Machine

/-- A fetched, unissued descriptor in the issue window (R134). -/
structure WinEntry where
  ring : Nat
  /-- free-running ring index, 16 bits -/
  idx : Nat
  /-- order of fetch in the core -/
  seq : Nat
  desc : List Byte
  /-- the pattern entries the three slots name, as read at the fetch (R123) -/
  pats : List (Option (List Byte))
  /-- a pattern entry that could not be read: the status, slot and source its descriptor completes with (R216) -/
  unread : Option (Nat × Nat × Option (Nat × Nat))
  /-- the fetch-time verdict of R114: the DETAIL of FORMAT_ERR -/
  bad : Option Nat
  /-- the signal entries and NSIG are valid, so that a malformed descriptor still sends its signals (R114) -/
  sigOk : Bool
  /-- which of the four waits have been met; a met wait stays met (R138) -/
  met : List Bool
  /-- the causes of breakpoint on which the entry, once resumed, does not hit again (R154) -/
  brkSkip : List Nat
deriving DecidableEq, Repr

/-- An accumulator bank (R44): what its contents are (R87) and its 16 × 128 words at key 128·token + column. -/
structure Bank where
  /-- 0 never written since reset, 1 FP32, 2 INT32 -/
  kind : Nat
  vals : SMap Word
deriving DecidableEq, Repr

/-- A bank at reset. -/
def Bank.init : Bank := ⟨0, []⟩

/-- Shading of an array in a gap (R53). -/
inductive Shade where
  /-- no gap, or shading stopped -/
  | idle
  /-- full density until THRESH -/
  | full
  /-- ramping down -/
  | down
  /-- ramping up before a first feed -/
  | up
deriving DecidableEq, Repr

/-- A matrix array. -/
structure ArrSt where
  /-- commands in queue order, by command number -/
  queue : List Nat
  bankA : Bank
  bankB : Bank
  /-- the two buffers of the stationary store, each with 16 tokens' bytes of up to 32 reduction elements (R39), and which of them
  feeds -/
  buf0 : List Byte
  buf1 : List Byte
  turn : Nat
  /-- density 0 to 4 in quarters (SHADE_STAT) -/
  density : Nat
  shade : Shade
  /-- a feed has ended and its gap has not begun -/
  gap : Bool
  /-- power state of R463 -/
  power : Nat
  /-- a wake has begun and is not ready (R464) -/
  waking : Bool
deriving DecidableEq, Repr

/-- An array at reset. -/
def ArrSt.init : ArrSt := ⟨[], Bank.init, Bank.init, [], [], 0, 0, .idle, false, 0, false⟩

/-- The state of an engine with a queue and one power state: the vector unit, the two DMA engines, the
sketch-match unit. -/
structure EngSt where
  queue : List Nat
  power : Nat
  waking : Bool
deriving DecidableEq, Repr

def EngSt.init : EngSt := ⟨[], 0, false⟩

/-- A run of a stream: where it lies, none for the zero bytes of an indirect iteration that reads no memory
(R126), and its length. -/
abbrev Run := Option Nat × Nat

/-- What waits for a write's commit: a sequenced packet of a source, with the range of a pull that its data fills or the answer that its
commit sends; a tree's packet delivered at a STAGE; a MEM_WR of a host session (R484). -/
inductive Ack where
  | seq (src eseq : Nat) (pull : Option (Nat × Nat × Nat)) (answer : Option Packet)
  | tree (t stage mseq : Nat)
  | host (session incarn seq : Nat)
deriving DecidableEq, Repr

/-- A byte range of the inbound tracker (R49), or of a write that waits to enter it, inclusive offsets in the core's SRAM;
`fetched` marks a write of a local DMA fetch and `eng` its engine. -/
structure InRange where
  lo : Nat
  hi : Nat
  fetched : Bool
  eng : Nat
  /-- the fetch has completed: its bytes are at hand in the engine's write buffer (R48) -/
  done : Bool
  /-- the command whose write it is; none for a write from the mesh or the fabric -/
  cmd : Option Nat
  /-- a write that waits at the mesh port because 64 ranges are tracked (R49): its bytes by address, and their poison marking;
  empty once the write is in the tracker -/
  parts : List (Nat × List Byte)
  pois : Bool
  /-- the packet that the write's commit commits (R294, R302) -/
  ack : Option Ack
deriving DecidableEq, Repr

/-- A flag increment that waits for a later cycle (R61). -/
structure FlagInc where
  flag : Nat
  set : Bool
  inc : Nat
  poison : Bool
deriving DecidableEq, Repr

/-- An open request of the remote load/store unit: its tracker slot's contents (R321, R323). -/
structure RReq where
  cmd : Nat
  /-- position and number of the request's bytes in the command's local stream -/
  pos : Nat
  len : Nat
  /-- sendings under R323, and the most there may be (R305) -/
  tries : Nat
  limit : Nat
  /-- timeouts in a row at which an ATOMIC found no route to be sent again (R289, R297) -/
  stuck : Nat
  /-- the request as last sent, and the local bytes its operands are read from at each sending (R298) -/
  pkt : Packet
  runs : List Run
deriving DecidableEq, Repr

/-- A failing word of a read: its first byte in the stream, its bytes there, the status it gives and the source it
records. -/
structure RdFail where
  pos : Nat
  len : Nat
  status : Nat
  src : Option (Nat × Nat)
deriving DecidableEq, Repr

/-- A failure found by an array command: feed position, order among equals, status, DETAIL, source, and whether zero columns are fed
from there on. -/
structure ArrFail where
  pos : Nat
  rank : Nat
  status : Nat
  detail : Nat
  src : Option (Nat × Nat)
  stop : Bool
deriving DecidableEq, Repr

/-- An issued command that has not completed. -/
structure Cmd where
  core : Nat
  ring : Nat
  idx : Nat
  desc : List Byte
  pats : List (Option (List Byte))
  sigOk : Bool
  /-- engine class and instance of R113 -/
  cls : Nat
  inst : Nat
  /-- the execution of the command has ended with the status below (for an array: its feed has ended) -/
  ran : Bool
  status : Nat
  detail : Nat
  /-- the page and source that record a non-OK completion; none: the GRV source of the status (R143) -/
  src : Option (Nat × Nat)
  /-- columns drained by the even (or only) array and by the odd array of a pair -/
  drained : Nat
  drainedOdd : Nat
  /-- burnisher blocks fed (R105) -/
  blocks : Nat
  /-- requests or packets of the command that are still outstanding -/
  left : Nat
  /-- next byte of the stream to be sent -/
  sent : Nat
  /-- byte ranges the command has written, which a status other than OK poisons (R144) -/
  outs : List (Nat × Nat)
  /-- an array command's stationary and weight streams -/
  stat : List Run
  statFail : Option RdFail
  wts : List Run
  wtsFail : Option RdFail
  /-- weight bytes: of the slice that feeds, or all that the burnisher has expanded -/
  wbuf : List Byte
  /-- columns fed, over all K-tiles -/
  fed : Nat
  /-- failures at feed positions that the feed has not reached, and whether it has reached one from which zero columns are fed
  (R99, R105, R146) -/
  found : List ArrFail
  zero : Bool
  /-- position in a moved stream from which its bytes are zeros (R146) -/
  cut : Option Nat
  /-- an array command's output stream, and the failure that ends it -/
  oruns : List Run
  ofail : Option RdFail
  /-- DROPPED of the tree when a multicast command began (R303) -/
  base : Nat
deriving DecidableEq, Repr

/-- A core. -/
structure CoreSt where
  window : List WinEntry
  /-- ring after which the round-robin of R134 looks first -/
  rr : Nat
  nextSeq : Nat
  /-- completed indices that HEAD has not passed, at key ring·65536 + index (R131) -/
  done : SMap Unit
  /-- a single step is in progress: halt again after one issue (R154) -/
  stepping : Bool
  /-- rings whose halt the step suspended -/
  stepRings : List Nat
  /-- CTL commands that complete in the next cycle -/
  ctl : List Nat
  arr0 : ArrSt
  arr1 : ArrSt
  arr2 : ArrSt
  arr3 : ArrSt
  vec : EngSt
  dma0 : EngSt
  dma1 : EngSt
  skm : EngSt
  /-- vector local store, 16 KiB -/
  ls : SMap Byte
  /-- lane generators (R94), by lane -/
  gens : SMap Word
  seedPend : Bool
  inbound : List InRange
  /-- lines held in the banks' merge buffers, oldest first (R215) -/
  merge : List Nat
  /-- corrected lines waiting for their write-back (R216) -/
  wback : SMap Unit
  /-- lines the running scrub pass has read (R218) -/
  scrubbed : SMap Unit
  finc : List FlagInc
  /-- remote load/store tracker, 256 slots -/
  tracker : SMap RReq
  /-- generations of the tracker slots, 4 bits (R318) -/
  slotGen : SMap Nat
deriving DecidableEq, Repr

/-- A core at reset. -/
def CoreSt.init : CoreSt :=
  { window := [], rr := 7, nextSeq := 0, done := [], stepping := false, stepRings := [], ctl := [],
    arr0 := ArrSt.init, arr1 := ArrSt.init, arr2 := ArrSt.init, arr3 := ArrSt.init,
    vec := EngSt.init, dma0 := EngSt.init, dma1 := EngSt.init, skm := EngSt.init, ls := [], gens := [],
    seedPend := false, inbound := [], merge := [], wback := [], scrubbed := [], finc := [], tracker := [], slotGen := [] }

end Sys2Proof.Machine
end

