-- ==== Sys2Proof/Machine/TypesDev.lean ====
section
/-!
DEFINITION. The state of the fault hub (R426 to R437), of the module's pins (R533), of the host event queue (R487) and of the
claims and captures of the register pages.
-/

namespace Sys2Proof.Machine

/-- The fabric time of the time unit: seconds, nanoseconds and the 16-bit fraction (R399). -/
structure Time where
  sec : Nat
  ns : Nat
  frac : Nat
deriving DecidableEq, Repr

/-- A report to the fault hub, and the log entry made of it (R426). -/
structure Report where
  page : Nat
  src : Nat
  cls : Nat
  merged : Bool
  detail : Nat
  /-- reaction bits [5:0] -/
  actions : Nat
  /-- the source carries LATCH = 1 -/
  latch : Bool
  ns : Nat
  sec : Nat
deriving DecidableEq, Repr

/-- A held-back IRQ event of one page and source (R431): occurrences suppressed and the latest entry. -/
structure IrqHold where
  count : Nat
  last : Option Report
deriving DecidableEq, Repr

/-- The phase of ERR_N (R429). -/
inductive PinPhase where
  /-- high for more than 10 µs -/
  | high
  /-- low, the first 20 µs -/
  | lowMin
  /-- low after the 20 µs mark -/
  | low
  /-- high for less than 10 µs after a release -/
  | released
deriving DecidableEq, Repr

/-- The fault hub and the pages' internal error state. -/
structure Hub where
  /-- reports on their way to the hub, oldest first -/
  reports : List Report
  /-- traps delivered and not taken, oldest first (R427) -/
  traps : List Report
  /-- held IRQ events at key 32·page + source -/
  hold : SMap IrqHold
  /-- PIN reactions not yet acted on -/
  pinReq : Nat
  phase : PinPhase
  /-- a release written during the first 20 µs is pending -/
  relPend : Bool
  /-- a PIN reaction waits for the end of the 10 µs high time -/
  deferred : Bool
  /-- FSTATE and CRST occurrences whose entry is not complete, oldest first -/
  entries : List Report
  /-- chip resets asked for by CRST reactions -/
  crst : Bool
  /-- pages with a block reset ordered (R428) -/
  brst : List Nat
  /-- unmasked CE occurrences at key 32·page + source (R430) -/
  rate : SMap Nat
  /-- pages with an unmasked occurrence since the last read of ERR_FIRST (R425) -/
  arrived : SMap Unit
  /-- FLT source 14 has been recorded in this fault state (R436) -/
  withheld : Bool
  /-- the next CSR access fails its parity check, whose occurrence is recorded (R443) -/
  csrBad : Bool
deriving DecidableEq, Repr

def Hub.init : Hub :=
  { reports := [], traps := [], hold := [], pinReq := 0, phase := .high, relPend := false, deferred := false,
    entries := [], crst := false, brst := [], rate := [], arrived := [], withheld := false, csrBad := false }

/-- The module's contacts (R533) and power condition (R536, R540 to R542). -/
structure Pins where
  vin : Bool
  pwrEn : Bool
  pwrGood : Bool
  /-- PRSNT_N is low: the module is fully mated -/
  mated : Bool
  /-- the rails stay off until PWR_EN has been low and is asserted again (R536, R542) -/
  lockout : Bool
  /-- MOD_RESET_N is low (R539) -/
  resetLow : Bool
  slotId : BitVec 6
  /-- levels driven: ERR_N low, THROT_N low, PPS_OUT high -/
  errLow : Bool
  throtLow : Bool
  ppsHigh : Bool
  /-- nanoseconds left of a debug strobe's pulse on PPS_OUT (R530) -/
  strobeLeft : Nat
deriving DecidableEq, Repr

def Pins.init : Pins :=
  { vin := false, pwrEn := false, pwrGood := false, mated := false, lockout := false, resetLow := false,
    slotId := 0x3F#6, errLow := false, throtLow := false, ppsHigh := false, strobeLeft := 0 }

/-- A host event (R488). -/
structure HostEvent where
  kind : Nat
  count : Nat
  ns : Nat
  sec : Nat
  origin : Nat
  data : Nat
  log : List Byte
deriving DecidableEq, Repr

end Sys2Proof.Machine
end

