-- ==== Sys2Proof/Machine/TypesMem.lean ====
section
/-!
DEFINITION. The state of a plate controller (R199 to R219).
-/

namespace Sys2Proof.Machine

/-- A plate controller. -/
structure PlateSt where
  /-- corrections in the current count window, at key 144·channel + lane (R219) -/
  lanes : SMap Nat
  /-- open row plus one, at key 32·channel + bank (R200) -/
  rows : SMap Nat
  /-- channels whose last access was a write (R202) -/
  writing : SMap Unit
  /-- write queue of each channel: granules waiting, oldest first (R202), and for a write-back the codeword it corrects (R213) -/
  wq : SMap (List (Nat × Option Nat))
  /-- codewords the running scrub pass has read -/
  scrubbed : SMap Unit
  /-- power state of R463, and a wake in progress (R464) -/
  power : Nat
  waking : Bool
deriving DecidableEq, Repr

def PlateSt.init : PlateSt :=
  { lanes := [], rows := [], writing := [], wq := [], scrubbed := [], power := 0, waking := false }

end Sys2Proof.Machine
end

