-- ==== Sys2Proof/Machine/TypesNet.lean ====
section
/-!
DEFINITION. The state of fabric transport (R273 to R307), of remote access and bulk copies (R314 to R328) and of membership
(R371 to R393).
-/

namespace Sys2Proof.Machine

/-! ### What frames carry -/

/-- A received link unit (R274): its LTAG, its TCRC correct, and what follows the LTAG. -/
structure LinkUnit where
  lseq : Nat
  vc : Nat
  retx : Bool
  units : Nat
  body : List Byte
deriving DecidableEq, Repr

/-- The TSYNC field of a frame's LCTL (R401). -/
structure TSync where
  txT : Stamp
  rxT : Stamp
  rxFseq : Nat
  secHi : Nat
  root : Nat
  valid : Bool
  prio : Nat
  hops : Nat
  alive : Nat
  locked : Bool
  holdover : Bool
  circ : Bool
deriving DecidableEq, Repr

/-- The LCTL field of a frame (R275), less TSYNC. -/
structure LCtl where
  first : Nat
  ackNext : Nat
  /-- the LSEQs above ACK_NEXT that ACK_MAP marks received -/
  ackMap : List Nat
  /-- CREDIT[0] to CREDIT[5] -/
  credit : List Nat
  cseq : Nat
deriving DecidableEq, Repr

/-- The head of a frame (R258). -/
structure Head where
  fseq : Nat
  srcDev : Nat
  plane : Nat
  line : Nat
  epoch : Nat
  /-- the sender's lane state code (R254) -/
  lstate : Nat
  identOk : Bool
  hold : Bool
  /-- HCRC is correct -/
  hcrcOk : Bool
deriving DecidableEq, Repr

/-! ### Packets -/

/-- Who waits for a packet's acknowledgement or answer. -/
inductive Origin where
  | nobody
  /-- an issued command counts it; the position of its bytes in the command's stream -/
  | cmd (id pos : Nat)
  /-- a request of a core's remote load/store unit for `len` bytes at `pos` of a command's stream, and its tracker
  slot, 256 before it has one -/
  | rls (core slot id pos len : Nat)
  /-- a PULL for bytes at `pos` of a command's stream -/
  | pull (id pos : Nat)
  /-- a PUT returned for a PULL this device serves -/
  | serve
deriving DecidableEq, Repr

/-- A packet at its source; `runs` are the local bytes its payload is read from at each sending (R298), none when the
payload is fixed. -/
structure TxPkt where
  pkt : Packet
  org : Origin
  tries : Nat
  runs : List Run
  /-- a route has taken it -/
  sent : Bool
  /-- RETRY_MAX when it was first due to leave (R305) -/
  limit : Nat
  /-- a request or pull sent again under R323 or R328, not yet counted as such -/
  again : Bool
deriving DecidableEq, Repr

/-- A packet at its source that has not left it. -/
def mkTx (pkt : Packet) (org : Origin) (runs : List Run) : TxPkt :=
  { pkt := pkt, org := org, tries := 0, runs := runs, sent := false, limit := 0, again := false }

/-- A sequenced packet with its ESEQ or MSEQ. For a flagged one `after` lists the trees (for a unicast packet) or the
destinations (for a multicast packet) with the sequence number below which all must be acknowledged (R304). -/
structure SeqPkt where
  seq : Nat
  tx : TxPkt
  after : List (Nat × Nat)
deriving DecidableEq, Repr

/-- What a source keeps for one destination device (R293 to R297). -/
structure TxDst where
  next : Nat
  /-- packets that have no ESEQ yet, oldest first -/
  wait : List TxPkt
  /-- flagged packets that have their ESEQ and wait under R296, in ESEQ order -/
  held : List SeqPkt
  /-- sent and not acknowledged, in ESEQ order -/
  out : List SeqPkt
  /-- ESEQs of packets that failed and have not been acknowledged: the window and the flagged packets still wait for them (R293, R296) -/
  failed : List Nat
  /-- PULL slots in use (R327) -/
  pullSlots : List Nat
deriving DecidableEq, Repr

def TxDst.init : TxDst := ⟨0, [], [], [], [], []⟩

/-- What a destination keeps for one source device (R294, R295, R323). -/
structure RxSrc where
  cum : Nat
  /-- committed ESEQs above CUM -/
  map : List Nat
  /-- ESEQs performed whose writes are still in flight, so that they are not committed (R48, R294) -/
  pend : List Nat
  ackDue : Bool
  /-- the last 64 ATOMICs' ESEQs and ARES packets, newest first -/
  ares : List (Nat × Packet)
deriving DecidableEq, Repr

def RxSrc.init : RxSrc := ⟨0, [], [], false, []⟩

/-- A unit waiting for a lane of its link, or sent and not acknowledged by the peer (R277). -/
structure TxUnit where
  lseq : Nat
  vc : Nat
  units : Nat
  packet : Packet
  /-- the plane·32 + line it last went on -/
  lane : Nat
  retx : Bool
deriving DecidableEq, Repr

/-- A link (R273 to R279): its sender and its receiver. -/
structure LinkSt where
  lseq : Nat
  /-- units not yet placed on a lane, oldest first: virtual channel and packet -/
  queue : List (Nat × Packet)
  unacked : List TxUnit
  /-- credits used and credits returned by the peer, for VC 0 to 5, modulo 2^32 -/
  used : List Nat
  credit : List Nat
  /-- LSEQ not yet received, and those received above it -/
  ackNext : Nat
  ackMap : List Nat
  /-- credits taken by accepted units and credits freed here, for VC 0 to 5 -/
  taken : List Nat
  freed : List Nat
  /-- CSEQ of the last LCTL applied, if one has been, and of the last one sent -/
  cseqRx : Option Nat
  cseqTx : Nat
deriving DecidableEq, Repr

def LinkSt.init : LinkSt :=
  { lseq := 0, queue := [], unacked := [], used := [0, 0, 0, 0, 0, 0], credit := [0, 0, 0, 0, 0, 0], ackNext := 0,
    ackMap := [], taken := [0, 0, 0, 0, 0, 0], freed := [0, 0, 0, 0, 0, 0], cseqRx := none,
    cseqTx := 0 }

/-- A received packet held in a buffer of the link it came on. -/
structure RxPkt where
  link : Nat
  vc : Nat
  units : Nat
  pkt : Packet
deriving DecidableEq, Repr

/-- The packets of a tree that reach this device at one STAGE, or leave it at SRC (STAGE 0): the lowest MSEQ not complete, and those
from there up that have come or left, each with the devices whose report it awaits (R302). This device's own number in the list,
0x3FFF, stands for a delivery whose write is in flight. -/
structure StageSt where
  cum : Nat
  seen : List (Nat × List Nat)
deriving DecidableEq, Repr

def StageSt.init : StageSt := ⟨0, []⟩

/-- A tree of the tree table (R300 to R305). -/
structure TreeSt where
  valid : Bool
  src : Nat
  up : Nat
  localMask : Word
  relay : Word
  outer : BitVec 16
  cum : Nat
  dropped : Nat
  /-- next MSEQ at SRC -/
  next : Nat
  /-- packets at SRC with no MSEQ yet -/
  wait : List TxPkt
  held : List SeqPkt
  out : List SeqPkt
  /-- MSEQs of packets that failed at SRC and that CUM has not passed (R302, R304) -/
  failed : List Nat
  /-- the STAGEs at which packets have come here, 0 at SRC -/
  stages : SMap StageSt
  /-- CUM reported by each child, by device number -/
  kids : SMap Nat
  /-- DROPPED reported by each child, and children counted as fenced here -/
  kidDrops : SMap Nat
  drops : Nat
  /-- children dropped for the rest of the descriptor, and the command whose packets SRC sends (R303) -/
  lost : List Nat
  owner : Option Nat
  mackDue : Bool
deriving DecidableEq, Repr

def TreeSt.init : TreeSt :=
  { valid := false, src := 0, up := 0, localMask := 0, relay := 0, outer := 0, cum := 0, dropped := 0, next := 0,
    wait := [], held := [], out := [], failed := [], stages := [], kids := [], kidDrops := [], drops := 0, lost := [], owner := none,
    mackDue := false }

/-- A PULL in the responder's pull queue (R327). -/
structure PullReq where
  src : Nat
  slot : Nat
  pullId : Nat
  addr : Nat
  dest : Nat
  len : Nat
deriving DecidableEq, Repr

/-- A pull of this device (R327, R328). -/
structure PullOut where
  cmd : Nat
  dst : Nat
  slot : Nat
  pullId : Nat
  addr : Nat
  dest : Nat
  len : Nat
  /-- position of its bytes in the command's stream -/
  pos : Nat
  /-- bytes of the range committed, as disjoint ranges of offsets within the pull, first and past the last -/
  got : List (Nat × Nat)
  acked : Bool
  tries : Nat
  limit : Nat
deriving DecidableEq, Repr

/-- An entry of the window table a checker holds (R312): SPACE, device range, byte range and permissions. -/
structure Window where
  space : Nat
  devLo : Nat
  devHi : Nat
  base : Nat
  size : Nat
  r : Bool
  w : Bool
  a : Bool
  s : Bool
  t : Bool
deriving DecidableEq, Repr

/-- Fabric transport and remote access. -/
structure NetSt where
  tx : SMap TxDst
  rx : SMap RxSrc
  links : SMap LinkSt
  trees : SMap TreeSt
  /-- link units delivered by the lanes and not yet accepted, oldest first: link and unit -/
  unitq : List (Nat × LinkUnit)
  /-- packets for this device waiting for their consumption, oldest first -/
  rxq : List RxPkt
  /-- forwarded packets held as relay or landing device, oldest first -/
  fwd : List RxPkt
  /-- MGMT messages waiting for the easel, oldest first -/
  mgmt : List Packet
  /-- window table the checkers hold -/
  windows : List Window
  /-- checkers that deny every access until the next commit (MEM source 4): cores, 2304 + i for XDMA engine i -/
  denied : SMap Unit
  /-- a commit's table on its way to the checkers -/
  commit : Option (List Window)
  /-- XDMA queues: command numbers, by engine -/
  xdma : SMap (List Nat)
  /-- COLL queues: command numbers, by engine -/
  coll : SMap (List Nat)
  pulls : List PullOut
  nextPull : Nat
  /-- the responder's pull queue, and the PULLs being worked on -/
  pullq : List PullReq
deriving DecidableEq, Repr

def NetSt.init : NetSt :=
  { tx := [], rx := [], links := [], trees := [], unitq := [], rxq := [], fwd := [], mgmt := [], windows := [],
    denied := [], commit := none, xdma := [], coll := [], pulls := [], nextPull := 0, pullq := [] }

/-- A pending membership entry (R377): effect time, device number, the state it brings, its ACT and ID_HASH. -/
structure PendEntry where
  sec : Nat
  ns : Nat
  dev : Nat
  toState : Nat
  act : Nat
  idHash : List Byte
  /-- its command came over the host port (R385) -/
  host : Bool
deriving DecidableEq, Repr

/-- A bundle that has arrived: its bytes, who brought it (session plus 1, or 0 for a peer), and whether it came over the
host port. -/
structure BundleIn where
  bytes : List Byte
  session : Nat
deriving DecidableEq, Repr

/-- A verified command waiting for its turn, with its bundle and the session that waits for the answer. `bytes` is the whole
bundle. -/
structure HeldBundle where
  mepoch : Nat
  bytes : List Byte
  session : Nat
deriving DecidableEq, Repr

/-- A bundle being put together from fragments (R379). -/
structure FragSt where
  src : Nat
  mepoch : Nat
  nfrag : Nat
  total : Nat
  parts : SMap (List Byte)
deriving DecidableEq, Repr

/-- Membership (R371 to R393). -/
structure MbrSt where
  /-- state codes by device number, unlisted 0 -/
  view : SMap Nat
  pend : List PendEntry
  /-- bundles to be verified, oldest first -/
  inbox : List BundleIn
  /-- verified bundles not yet consumed -/
  held : List HeldBundle
  /-- the last 64 consumed, newest first: epoch, body and bundle -/
  kept : List HeldBundle
  frags : List FragSt
  /-- ISSUE time of the previous consumed command -/
  issueSec : Nat
  issueNs : Nat
  winIdx : Nat
  /-- the gap of R382 has been requested since it opened -/
  gapAsked : Bool
  /-- a circuit link changed since the last CIRCUITS message -/
  circDue : Bool
  /-- latest CIRCUITS of each sheet index: 16 words -/
  circuits : SMap (List Nat)
  /-- counts of health inputs 0 to 7 at each of the last updates, newest first -/
  health : List (List Nat)
  /-- lane pairs removed or quarantined, rings failed with the fibre narrowed, throttle enforcements: the counts of
  inputs 3, 4 and 6 of R391, which no counter holds -/
  lost : Nat
  narrowed : Nat
  enforced : Nat
  /-- what the page counters of inputs 0 to 7 had counted when software cleared them (R391, R518) -/
  cleared : List Nat
  /-- the neighbour table has been reported complete (R388, log entry 39) -/
  nbrDone : Bool
deriving DecidableEq, Repr

def MbrSt.init : MbrSt :=
  { view := [], pend := [], inbox := [], held := [], kept := [], frags := [], issueSec := 0, issueNs := 0,
    winIdx := 0, gapAsked := false, circDue := false, circuits := [], health := [],
    lost := 0, narrowed := 0, enforced := 0, cleared := [], nbrDone := false }

/-- What the device sends to the outside, kept in order of sending (log entry 13). -/
inductive OutMsg where
  /-- a frame on a transmit line of a plane: its 2,625 information bytes (R258), and the 11,200 PAM4 levels of its line bits (R257) -/
  | frame (plane line : Nat) (bytes : List Byte) (levels : List Nat)
  /-- a frame of the host port: its bytes from destination address to FCS (R474) -/
  | ether (bytes : List Byte)
deriving DecidableEq, Repr

end Sys2Proof.Machine
end

