-- ==== Sys2Proof/Machine/TypesOpt.lean ====
section
/-!
DEFINITION. The state of the Strelist dies, their rings and lanes, and of lane allocation (R230 to R265).
-/

namespace Sys2Proof.Machine

/-- A lane pair, named by its plane and its transmit line (R242, R254). -/
structure LaneSt where
  /-- state code of R254 -/
  st : Nat
  /-- the pair is held under the plan or a grant, or is an outer lane pair -/
  held : Bool
  /-- on the resume path, which leaves out CHECK -/
  resume : Bool
  /-- the peer's last reported state -/
  peerSt : Nat
  /-- the peer's frames show IDENT_OK -/
  peerIdent : Bool
  /-- consecutive received frames that passed R255, and that failed it after passing the FEC -/
  good : Nat
  bad : Nat
  /-- frames of the CHECK test, and symbols corrected in them -/
  chkFrames : Nat
  chkSym : Nat
  /-- frames received, discarded, and symbols corrected in the current millisecond -/
  msFrames : Nat
  msUncorr : Nat
  msSym : Nat
  /-- added by a grant at the last boundary, so that R253 applies -/
  added : Bool
  /-- quarantine tests failed in a row -/
  quarFails : Nat
  /-- in QUAR, the step of its test that the pair is in, as the states of the bring-up are numbered: 0 before it begins, 6 once it has
  passed (R256) -/
  test : Nat
  /-- the pair is to be removed at the next boundary (R252) -/
  leaving : Bool
  /-- the millisecond the counts above belong to -/
  msStart : Nat
  /-- TSYNC of the last accepted frame, with the arrival and departure stamps it goes with -/
  sync : Option (TSync × Stamp × Stamp)
  /-- FSEQ of the last accepted frame, and the bytes of a unit that it left unfinished; none when the stream awaits a FIRST (R274,
  R276) -/
  lastRx : Option Nat
  part : Option (List Byte)
  /-- FSEQ of the next frame sent, the transmit queue, and the bytes in it before the next LTAG (R274, R278) -/
  fseq : Nat
  txq : List Byte
  txNext : Nat
  /-- departure of the last stamped frame, and arrival and FSEQ of the last one received (R401) -/
  txT : Time
  rxT : Time
  rxFseq : Nat
deriving DecidableEq, Repr

def LaneSt.init : LaneSt :=
  { st := 0, held := false, resume := false, peerSt := 0, peerIdent := false, good := 0, bad := 0,
    chkFrames := 0, chkSym := 0, msFrames := 0, msUncorr := 0, msSym := 0, added := false, quarFails := 0, test := 0,
    leaving := false, msStart := 0, sync := none, lastRx := none, part := none, fseq := 0, txq := [], txNext := 0,
    txT := ⟨0, 0, 0⟩, rxT := ⟨0, 0, 0⟩, rxFseq := 0 }

/-- What a ring keeps beside its KEY register (R238 to R240, R260 to R262). -/
structure RingSt where
  /-- a verification is running -/
  verifying : Bool
  /-- the loop has been verified since it last tuned or locked (R239) -/
  proven : Bool
  /-- fabric times in ns of the last lock losses, newest first -/
  losses : List Nat
  /-- consecutive identity mismatches -/
  mismatches : Nat
  /-- in a test (R261 to R264), and to be tested once the fibre is idle (R262) -/
  testing : Bool
  readmit : Bool
  /-- a failed ring that no spare has replaced, and the line it leaves to its spare -/
  waits : Bool
  owes : Option Nat
deriving DecidableEq, Repr

def RingSt.init : RingSt := ⟨false, false, [], 0, false, false, false, none⟩

/-- A test of a fibre that sends training frames from a transmit ring to a drop ring (R261, R263, R264): on λ0, whose light returns to the
fibre over the shuffle or over the on-die loopback, or on lane 0 of an outer plane, on which the peer answers. -/
structure LoopSt where
  tx : Nat
  rx : Nat
  line : Nat
  /-- the ring that is tested as a spare; none in the test of a plane -/
  spare : Option Nat
  /-- over the on-die loopback -/
  onDie : Bool
  /-- numbers and stamps of the frames, and the consecutive frames that passed -/
  lane : LaneSt
deriving DecidableEq, Repr

/-- Have the 256 training frames of the test passed. -/
def LoopSt.passed (x : LoopSt) : Bool := decide (256 ≤ x.lane.good)

/-- A Strelist die (R230 to R235, R265). -/
structure DieSt where
  /-- an input has been selected -/
  selected : Bool
  /-- a switch to the other input is in progress -/
  switching : Bool
  /-- lines of the standby check passed in its present pass, for inputs A and B -/
  toneA : Nat
  toneB : Nat
  /-- the last tone-plan check of the input passed within 100 ms -/
  checkA : Bool
  checkB : Bool
  /-- lanes held by a hold order wait for release verification -/
  releasing : Bool
  /-- what the link counters 0 to 4 of each fibre have counted since they were last sampled, at 5·fibre + counter (R268) -/
  counts : List Nat
  /-- input switches (R233) -/
  switches : Nat
  /-- tests that run, by fibre (R261 to R264) -/
  loops : SMap LoopSt
deriving DecidableEq, Repr

def DieSt.init : DieSt :=
  { selected := false, switching := false, toneA := 0, toneB := 0, checkA := false, checkB := false,
    releasing := false, counts := List.replicate 40 0, switches := 0, loops := [] }

/-- An allocation report as the leader keeps it (R249). -/
structure AllocRep where
  epoch : Nat
  demand : List Nat
  lanes : List Nat
  cap : List Nat
deriving DecidableEq, Repr

/-- Lane allocation (R246 to R253). -/
structure AllocSt where
  /-- reports of this epoch, and those of the epoch before, by sheet index -/
  reports : SMap AllocRep
  prev : SMap AllocRep
  /-- 100 µs after the boundary have passed -/
  waited : Bool
  planned : Bool
  /-- an accepted grant: the epoch at whose start it applies, and its entries -/
  grant : Option (Nat × List (Nat × Nat × Bool))
  /-- units handed to sheet lanes in the present epoch, by sheet index, in bytes -/
  sentBytes : SMap Nat
  /-- ALLOC_CTRL in effect (R267) -/
  ctl : Word
  /-- number of the last boundary applied, counted in epochs of the length in effect (R246, R407) -/
  num : Nat
deriving DecidableEq, Repr

def AllocSt.init : AllocSt :=
  { reports := [], prev := [], waited := false, planned := false, grant := none, sentBytes := [], ctl := 0xC0880A00#32, num := 0 }

end Sys2Proof.Machine
end

