-- ==== Sys2Proof/Machine/TypesAqt.lean ====
section
/-!
DEFINITION. The state of an aquatint engine (R160 to R191).
-/

namespace Sys2Proof.Machine

/-- Why an engine calibrates. -/
inductive AqtWhy where
  /-- step 3 of an ALOAD, by command number (R164) -/
  | load (cmd : Nat)
  /-- a full recalibration of the resident image (R169, R172, R176) -/
  | full
  /-- a drift recalibration (R168) -/
  | drift
deriving DecidableEq, Repr

/-- What an engine is doing between commands. -/
inductive AqtPhase where
  | idle
  /-- the heaters settle, after `n` corrections -/
  | settle (why : AqtWhy) (n : Nat)
  /-- a calibration check runs, after `n` corrections -/
  | check (why : AqtWhy) (n : Nat)
deriving DecidableEq, Repr

/-- An aquatint engine. -/
structure AqtSt where
  /-- commands in queue order, by command number -/
  queue : List Nat
  /-- bytes of the image buffer: the resident image, or the one being loaded -/
  image : List Byte
  /-- a matrix is resident -/
  resident : Bool
  phase : AqtPhase
  /-- a drift recalibration is due -/
  due : Bool
  /-- an ACAL whose recalibration runs -/
  acal : Option Nat
  /-- commands that ran and whose light is not yet confirmed (R172), oldest first -/
  confirm : List Nat
  /-- CFG and the SMASK words in effect (R191) -/
  cfg : Word
  smask : List Word
  /-- CFG.LINE in effect (R171); 32 after a parking, which verifies any line anew (R463) -/
  line : Nat
  /-- temperature of the die at the last passed check, in units of 0.125 °C -/
  tempRef : Int
  /-- held by a transmit hold (R170), and by a light loss (R172) -/
  heldHold : Bool
  heldLight : Bool
  /-- input switches of its die when the light was lost (R172) -/
  lossSwitch : Nat
  /-- a recalibration must run before the next command (R170, R176) -/
  recalFirst : Bool
  power : Nat
  waking : Bool
deriving DecidableEq, Repr

def AqtSt.init : AqtSt :=
  { queue := [], image := [], resident := false, phase := .idle, due := false, acal := none, confirm := [],
    cfg := 0x040A0400#32, smask := [0, 0, 0, 0, 0, 0, 0, 0], line := 0, tempRef := 0, heldHold := false,
    heldLight := false, lossSwitch := 0, recalFirst := false, power := 0, waking := false }

end Sys2Proof.Machine
end

