-- ==== Sys2Proof/Machine/TypesColl.lean ====
section
/-!
DEFINITION. The state of the collectives (R339 to R366).
-/

namespace Sys2Proof.Machine

/-- An entry of the group table (R339): the words of GT_CFG, GT_SHAPE, GT_LOCAL and GT_RING, and SEQ. -/
structure GroupSt where
  cfg : Word
  shape : Word
  mask : Word
  rings : Word
  seq : Nat
deriving DecidableEq, Repr

def GroupSt.init : GroupSt := ⟨0, 0, 0, 0, 0⟩

/-- A DATA or GRANT chunk sent and not acknowledged (R354). A stream is named by 64·phase + edge; an edge is a sheet index,
32 for the NEXT planes, 33 for the PREV planes. -/
structure OutChunk where
  stream : Nat
  ctype : Nat
  off : Nat
  data : List Byte
  aux : Nat
  poison : Bool
  tries : Nat
  /-- number of its last sending -/
  stamp : Nat
deriving DecidableEq, Repr

/-- An abort as a device holds it (R356): cause, the device that decided it, and whether it was decided here. -/
structure AbortSt where
  cause : Nat
  origin : Nat
  here : Bool
deriving DecidableEq, Repr

/-- A running collective. -/
structure CollCtx where
  cmd : Nat
  gid : Nat
  seq : Nat
  ord : Nat
  /-- CCFG0 at the start (R367) -/
  cfg : Word
  /-- widened partial results of this member's block, by 64-byte unit of the buffer, and contributions combined in each -/
  work : SMap (List Nat)
  cnt : SMap Nat
  /-- units of the result that are final, each with its bytes as they were produced or received, whose CRC-32C every forwarding keeps
  (R363) -/
  fin : SMap (List Byte)
  /-- by stream: chunks sent, cumulative credit received, offsets received, credit granted -/
  sent : SMap Nat
  credit : SMap Nat
  rcvd : SMap (List Nat)
  granted : SMap Nat
  /-- phases whose GRANTs have been sent -/
  opened : List Nat
  out : List OutChunk
  abort : Option AbortSt
  /-- the collective's results are poisoned and its descriptor may complete -/
  ended : Bool
deriving DecidableEq, Repr

/-- A completed collective an engine remembers (R360). -/
structure CollDone where
  gid : Nat
  seq : Nat
  ord : Nat
  outs : List (Nat × Nat)
  /-- its abort is held -/
  held : Bool
  /-- where each stream it received ends, in units -/
  ends : SMap Nat
deriving DecidableEq, Repr

/-- A pending abort record (R359). -/
structure PendAbort where
  gid : Nat
  seq : Nat
  abort : AbortSt
deriving DecidableEq, Repr

/-- An ABORT chunk sent and not acknowledged (R357). -/
structure AbortOut where
  eng : Nat
  gid : Nat
  seq : Nat
  ord : Nat
  link : Nat
  cause : Nat
  origin : Nat
  /-- number of its last sending -/
  stamp : Nat
deriving DecidableEq, Repr

structure CollSt where
  groups : SMap GroupSt
  /-- running collectives at key 4·engine + context -/
  ctxs : SMap CollCtx
  /-- queue entries that are voids (R345), by command number -/
  voids : SMap Unit
  /-- completed collectives by engine, newest first -/
  memory : SMap (List CollDone)
  /-- pending records, oldest first -/
  pending : List PendAbort
  aborts : List AbortOut
  /-- sendings of chunks that await an acknowledgement; the model's own count, which orders them (log entry 121) -/
  sends : Nat
deriving DecidableEq, Repr

def CollSt.init : CollSt := { groups := [], ctxs := [], voids := [], memory := [], pending := [], aborts := [], sends := 0 }

end Sys2Proof.Machine
end

