-- ==== Sys2Proof/Machine/TypesHost.lean ====
section
/-!
DEFINITION. The state of the host port (R474 to R490) and of boot, trust and attestation (R494 to R513).
-/

namespace Sys2Proof.Machine

/-- The encapsulation and source a message came from: the MAC address its frame had, with the IP address and UDP port (R477, R481). -/
inductive HostSrc where
  | raw (mac : Nat)
  | ipv4 (mac addr port : Nat)
  | ipv6 (mac addr port : Nat)
deriving DecidableEq, Repr

/-- What an accepted frame carries (R474). -/
inductive HostBody where
  /-- an MCT message: its bytes, header included -/
  | mct (src : HostSrc) (bytes : List Byte)
  /-- an ARP request: hardware and protocol address of the asker, and the address asked for -/
  | arp (mac ip target : Nat)
  /-- a neighbour solicitation: source addresses and target -/
  | solicit (mac ip target : Nat)
  /-- a Delay_Req: sequenceId and sourcePortIdentity -/
  | ptp (seq : Nat) (port : List Byte)
  /-- a PFC frame: the classes it names, and the time of each -/
  | pfc (classes : Nat) (times : List Nat)
  /-- another PTP message -/
  | other
deriving DecidableEq, Repr

/-- A request of a session that has arrived and has not completed: TYPE, payload, and the source it is answered to (R477). -/
structure HostReq where
  typ : Nat
  bytes : List Byte
  src : HostSrc
deriving DecidableEq, Repr

/-- A response in a session's cache (R483). -/
structure HostResp where
  typ : Nat
  seq : Nat
  status : Nat
  bytes : List Byte
deriving DecidableEq, Repr

/-- An open MCT session (R481 to R484). -/
structure SessSt where
  src : HostSrc
  nonce : Nat
  incarn : Nat
  /-- EVENTS was granted at OPEN -/
  events : Bool
  /-- its first request has arrived -/
  begun : Bool
  /-- requests by SEQ -/
  reqs : SMap HostReq
  /-- lowest SEQ not yet received, and those received above it -/
  ack : Nat
  got : List Nat
  /-- SEQ of the next request to start; MEM_WRs before it that are still there have their writes in flight (R484) -/
  next : Nat
  /-- that request is executing (a MEMBER whose bundle is being verified) -/
  busy : Bool
  /-- the last 256 responses, newest first -/
  cache : List HostResp
deriving DecidableEq, Repr

/-- An accepted frame that waits for its own command: an OPEN or ACK message, or a frame of another protocol. -/
inductive HostIn where
  | opens (src : HostSrc) (seq nonce : Nat) (events : Bool)
  | acks (sess ack : Nat)
  | arp (mac ip target : Nat)
  | solicit (mac ip target : Nat)
  /-- a Delay_Req, and the time it arrived -/
  | ptp (seq : Nat) (port : List Byte) (arrival : Time)
  | pfc (classes : Nat) (times : List Nat)
deriving DecidableEq, Repr

/-- The host port. -/
structure HostSt where
  sess : SMap SessSt
  /-- INCARN last given to each session number -/
  incarn : SMap Nat
  inq : List HostIn
  /-- an XOFF has been sent, and a pause received, for the priority of R476 -/
  xoff : Bool
  paused : Bool
  /-- frames of that priority that wait for the end of the pause, oldest first -/
  queued : List (List Byte)
  evSess : Option Nat
  evNext : Nat
  /-- events sent and not acknowledged, oldest first -/
  unacked : List (Nat × HostEvent)
deriving DecidableEq, Repr

def HostSt.init : HostSt :=
  { sess := [], incarn := [], inq := [], xoff := false, paused := false, queued := [], evSess := none, evNext := 0, unacked := [] }

/-- Boot, measurement and trust. -/
structure SecSt where
  /-- measurement log: KIND and digest, oldest first; measurement value -/
  log : List (Nat × List Byte)
  mv : List Byte
  /-- the trust set held, empty for none, and its parts as they arrive -/
  trust : List Byte
  parts : SMap (List Byte)
  nfrag : Nat
  total : Nat
  /-- the image in delivery: owning session, TOTAL, ranges that have arrived, bytes -/
  owner : Option Nat
  imgTotal : Nat
  ranges : List (Nat × Nat)
  img : SMap Byte
  /-- firmware loaded: TARGET, LOAD and bytes -/
  segs : List (Nat × Nat × List Byte)
  /-- instances of the dies counted lit at start-up (R264, R497) -/
  lit : List Nat
  /-- start-up tests passed in this start-up: plates, cores, bridges, Strelist dies -/
  tests : Nat
  /-- CRIT_LOG.VALID as this start-up found it (R498) -/
  crit : Bool
deriving DecidableEq, Repr

def SecSt.init : SecSt :=
  { log := [], mv := [], trust := [], parts := [], nfrag := 0, total := 0, owner := none, imgTotal := 0, ranges := [], img := [],
    segs := [], lit := [], tests := 0, crit := false }

end Sys2Proof.Machine
end

