-- ==== Sys2Proof/Machine/TypesThm.lean ====
section
/-!
DEFINITION. The state of the thermal and power controller beside its pages (R447 to R461).
-/

namespace Sys2Proof.Machine

/-- What the controller keeps for a compute die (R454 to R460). -/
structure ThmDie where
  therm : Nat
  clamp : Nat
  /-- the clamp has not ended (R460) -/
  clamping : Bool
  grace : Bool
  hot : Bool
  cool : Bool
deriving DecidableEq, Repr

def ThmDie.init : ThmDie := ⟨0, 0, false, false, false, true⟩

/-- The controller. Members (R451) are numbered: dies 0 to 7, plate positions 8 to 23, Strelist positions 24 to 31, the hub
group 32, the coolant inlet 33. -/
structure ThmSt where
  /-- the last reading of each sensor in units of 0.125 °C -/
  temps : SMap Int
  /-- readings of the last 26 rounds, newest first -/
  hist : List (SMap Int)
  rates : SMap Int
  /-- cause of each broken sensor (R450) -/
  broken : SMap Nat
  /-- sensors whose RATE exceeded the limit at the last sample -/
  excess : SMap Unit
  /-- members that reached WARN and have not fallen below WARN − HYST, and members at CRIT -/
  warned : SMap Unit
  crit : SMap Unit
  dies : SMap ThmDie
  /-- the power limit as a member (R456) -/
  plimHot : Bool
  plimCool : Bool
  /-- Strelist positions with a transmit hold ordered (R458) -/
  holds : List Nat
  /-- TCFG, TCFG2 and THR as the last sample found them, by offset: the values in effect (R467) -/
  cfg : SMap Word
  /-- nanoseconds into the millisecond of the always-on domain, which counts THROT_US and ENERGY (R447, R471) -/
  clock : Nat
deriving DecidableEq, Repr

def ThmSt.init : ThmSt :=
  { temps := [], hist := [], rates := [], broken := [], excess := [], warned := [], crit := [], dies := [],
    plimHot := false, plimCool := true, holds := [], cfg := [], clock := 0 }

end Sys2Proof.Machine
end

