-- ==== Sys2Proof/Machine/TypesTim.lean ====
section
/-!
DEFINITION. The state of the time unit beside its page (R402 to R412).
-/

namespace Sys2Proof.Machine

structure TimSt where
  /-- last ALIVE heard of each root, and the roots that are not live -/
  heard : SMap Nat
  dead : SMap Unit
  /-- nanoseconds of the time unit's clock, which no step moves, and its count when each root's ALIVE last advanced (R402) -/
  clock : Nat
  heardAt : SMap Nat
  /-- this device's own alive counter -/
  alive : Nat
  ocxoFailed : Bool
  /-- the next exchange spans a change of the time lane and is discarded (R404) -/
  skip : Bool
  /-- what the rate correction owes of the next 2^−16 ns, in units of 10^−11 of it -/
  acc : Nat
  /-- the second in which SET_CTL.GO was accepted (R411) -/
  setSec : Nat
  /-- sequence numbers of PTP Sync and Announce -/
  syncSeq : Nat
  annSeq : Nat
deriving DecidableEq, Repr

def TimSt.init : TimSt :=
  { heard := [], dead := [], clock := 0, heardAt := [], alive := 0, ocxoFailed := false, skip := false, acc := 0, setSec := 0, syncSeq := 0, annSeq := 0 }

end Sys2Proof.Machine
end

