-- ==== Sys2Proof/Machine/State.lean ====
section
/-!
DEFINITION. The state of the device, the reasons a command can stop, and the state after reset.
-/

namespace Sys2Proof.Machine

/-- Reasons a command stops the model. -/
inductive Fault where
  /-- Raised by MOD_RESET alone, for a low level between 1 and 10 µs, whose effect R539 calls undefined. Safe: no
  claim about the device after such a pulse can be proved. -/
  | resetPulseUndefined
deriving DecidableEq, Repr

/-- Reasons a command has no meaning. -/
inductive Refusal where
  /-- Raised by an arm of `exec` whose command has no meaning yet. Safe: nothing is said about it. -/
  | notModelled (mnemonic : String)
deriving DecidableEq, Repr

/-- The stored codewords of the memory codes (R210 to R216), by number of the 64-byte (plates) or 32-byte (SRAM) codeword. A
codeword's symbols are those of its data in memory and their check symbols, changed by the poison pattern where it is poisoned
and by its errors. -/
structure Codes where
  /-- poisoned codewords -/
  pois : SMap Unit
  /-- errors of a codeword: each symbol that differs, and by what -/
  errs : SMap (SMap Nat)
  /-- plates or cores whose ERR_LOC holds the first error since ERR_STAT was last cleared (R221, R224) -/
  loc : SMap Unit
deriving DecidableEq, Repr

/-- Codewords as written. -/
def Codes.init : Codes := ⟨[], [], []⟩

/-- Memory: address and byte pairs, addresses strictly rising, no entry equal to what an unlisted address reads
as, which is 0 (log entry 5). -/
abbrev Memory := List Host.Cell

/-- The device. -/
structure State where
  fuses : Fuses
  pins : Pins
  /-- register words that differ from their reset value, at key 1024·page + offset/4 -/
  csr : SMap Word
  /-- 64-bit counters, at key 8·page + index -/
  cnt : SMap DWord
  /-- captured counters whose high word has not been read (R27) -/
  cap : SMap DWord
  hub : Hub
  /-- memory by local offset: plates and core SRAM -/
  mem : Memory
  plates : SMap PlateSt
  plateCodes : Codes
  sramCodes : Codes
  /-- flag counters at key 4096·core + flag, and their poison bits -/
  flags : SMap Word
  fpois : SMap Unit
  cores : SMap CoreSt
  /-- issued commands that have not completed, by command number -/
  cmds : SMap Cmd
  nextCmd : Nat
  aqts : SMap AqtSt
  net : NetSt
  coll : CollSt
  mbr : MbrSt
  host : HostSt
  sec : SecSt
  /-- lane pairs at key 32·plane + transmit line -/
  lanes : SMap LaneSt
  /-- rings at key 288·die + 36·fibre + ring -/
  rings : SMap RingSt
  dies : SMap DieSt
  alloc : AllocSt
  time : Time
  tim : TimSt
  thm : ThmSt
  /-- events waiting in the device, oldest first (R487) -/
  events : List HostEvent
  /-- what the device has sent to the outside (log entry 13) -/
  out : List OutMsg
  /-- DCTRL.DIE has changed since the last sample of the DBG counters (R531) -/
  dbgRestart : Bool
  /-- free values drawn so far (log entry 2) -/
  draw : Nat
  /-- commands waiting, first in first out -/
  pending : List Instr
deriving DecidableEq, Repr

/-- What a command answers. -/
abbrev Res := Host.Outcome State Fault Refusal

/-- The part the model resets to: a full-grade part with no history (log entry 1). -/
def Fuses.init : Fuses :=
  { part := .g1608, fcol := [], mac := 0, serial := 0, idSeed := [], keyValid := [true, false, false, false],
    keyRevoked := [false, false, false, false], keyDigest := [[], [], [], []], svnMin := 0, svnBurnt := 0, certSig := [] }

/-- The module with no power: every register at its reset value, memory with nothing listed, no command
waiting. -/
def State.reset : State :=
  { fuses := Fuses.init, pins := Pins.init, csr := [], cnt := [], cap := [], hub := Hub.init, mem := [],
    plates := [], plateCodes := Codes.init, sramCodes := Codes.init, flags := [], fpois := [], cores := [], cmds := [],
    nextCmd := 0, aqts := [], net := NetSt.init, coll := CollSt.init, mbr := MbrSt.init, host := HostSt.init, sec := SecSt.init, lanes := [], rings := [], dies := [],
    alloc := AllocSt.init, time := ⟨0, 0, 0⟩, tim := TimSt.init, thm := ThmSt.init, events := [], out := [], dbgRestart := false, draw := 0, pending := [] }

end Sys2Proof.Machine
end

