-- ==== Sys2Proof/Machine/Regs.lean ====
section
/-!
DEFINITION. The one home of register words and counters, and the operations that read and write them: fields, counters
and their capture (R27), page resets (R518) and the page's record of refused writes (R519).
-/

namespace Sys2Proof.Machine

/-! ### Pages of the device -/

def pgDev : Nat := 0x8000
def pgFlt : Nat := 0x8020
def pgThm : Nat := 0x8040
def pgPwr : Nat := 0x8060
def pgSec : Nat := 0x8080
def pgEas : Nat := 0x80A0
def pgMbr : Nat := 0x80C0
def pgTim : Nat := 0x80E0
def pgHpt : Nat := 0x8100
def pgMem : Nat := 0x8120
def pgXdm (i : Nat) : Nat := 0x8140 + i
def pgCol (i : Nat) : Nat := 0x8160 + i
def pgFab : Nat := 0x8180
def pgStl (i : Nat) : Nat := 0x81A0 + i
def pgKey (i : Nat) : Nat := 0x81C0 + i
def pgAqt (i : Nat) : Nat := 0x81E0 + i
def pgPlt (i : Nat) : Nat := 0x8200 + i
def pgDbg : Nat := 0x8220
def pgGrv (c : Nat) : Nat := 8 * c
def pgArr (c : Nat) : Nat := 8 * c + 1
def pgVec (c : Nat) : Nat := 8 * c + 2
def pgDma (c : Nat) : Nat := 8 * c + 3
def pgSkm (c : Nat) : Nat := 8 * c + 4
def pgSrm (c : Nat) : Nat := 8 * c + 5

/-! ### Words and fields -/

/-- The key of a register word. -/
def regKey (page off : Nat) : Nat := 1024 * page + off / 4

/-- The reset value of a register word by page number; 0 where no page lies. -/
def resetAt (f : Fuses) (page off : Nat) : Word :=
  match pageOf f.part page with
  | none => 0
  | some (t, i) => regReset f t i off

/-- The stored word of a register. -/
def State.reg (s : State) (page off : Nat) : Word :=
  (smFind s.csr (regKey page off)).getD (resetAt s.fuses page off)

/-- The register word set to `w`; the store lists only words that differ from their reset value. -/
def State.setReg (s : State) (page off : Nat) (w : Word) : State :=
  if w = resetAt s.fuses page off then { s with csr := smErase s.csr (regKey page off) }
  else { s with csr := smInsert s.csr (regKey page off) w }

/-- A field moved by `n` bytes: the same field of element `n / stride` of a register array. -/
def Fld.at (f : Fld) (n : Nat) : Fld := { f with off := f.off + n }

/-- A field's value. -/
def State.fld (s : State) (page : Nat) (f : Fld) : Nat := bits (s.reg page f.off) f.hi f.lo

/-- A field's value as a condition. -/
def State.flag (s : State) (page : Nat) (f : Fld) : Bool := s.fld page f != 0

/-- The register with a field replaced. -/
def State.setFld (s : State) (page : Nat) (f : Fld) (v : Nat) : State :=
  s.setReg page f.off (putBits (s.reg page f.off) f.hi f.lo v)

/-- Fields set one after another. -/
def State.setFlds (s : State) (page : Nat) (l : List (Fld × Nat)) : State :=
  l.foldl (fun s (f, v) => s.setFld page f v) s

/-! ### Counters -/

/-- Counter `i` of a page. -/
def State.counter (s : State) (page i : Nat) : DWord := smGet 0 s.cnt (8 * page + i)

/-- Counter `i` of a page set to `v`. -/
def State.setCounter (s : State) (page i : Nat) (v : DWord) : State :=
  { s with cnt := smSet 0 s.cnt (8 * page + i) v }

/-- Counter `i` of a page with `n` added; counters wrap at 2^64. -/
def State.bumpBy (s : State) (page i n : Nat) : State :=
  s.setCounter page i (s.counter page i + BitVec.ofNat 64 n)

/-- Counter `i` of a page with one added. -/
def State.bump (s : State) (page i : Nat) : State := s.bumpBy page i 1

/-! ### Whole pages -/

/-- Does a register key belong to a page that `p` selects. -/
def State.dropPages (s : State) (p : Nat → Bool) : State :=
  { s with
    csr := s.csr.filter (fun e => !p (e.1 / 1024))
    cnt := s.cnt.filter (fun e => !p (e.1 / 8))
    cap := s.cap.filter (fun e => !p (e.1 / 8))
    plateCodes := { s.plateCodes with loc := s.plateCodes.loc.filter (fun e => !p (pgPlt e.1)) }
    sramCodes := { s.sramCodes with loc := s.sramCodes.loc.filter (fun e => !p (pgSrm e.1)) }
    hub := { s.hub with
      rate := s.hub.rate.filter (fun e => !p (e.1 / 32))
      arrived := s.hub.arrived.filter (fun e => !p e.1) } }

/-- A page's record of a write it did not apply in full (R519): `locked` for a locked field, else a refused
write. REJ_OFF keeps the first since both bits were last 0. -/
def State.noteReject (s : State) (page off : Nat) (locked : Bool) : State :=
  let s := if s.flag page PG_STAT_REFUSED || s.flag page PG_STAT_LOCKED_WR then s
    else s.setFld page PG_STAT_REJ_OFF off
  if locked then s.setFld page PG_STAT_LOCKED_WR 1 else s.setFld page PG_STAT_REFUSED 1

/-- A free value: the next draw, reduced below `m` (log entry 2). -/
def State.freeNat (s : State) (m : Nat) : Nat × State :=
  (Config.freeNat s.draw % m, { s with draw := s.draw + 1 })

end Sys2Proof.Machine
end

