-- ==== Sys2Proof/Machine/Errors.lean ====
section
/-!
DEFINITION. An error occurrence on a page (R422 to R425, R430), the host event queue (R487), and access to a core's
state.
-/

namespace Sys2Proof.Machine

/-- The device does something only while the rails are up (R541). -/
def powered (f : State → State) (s : State) : State := if s.pins.pwrGood then f s else s

/-! ### Cores -/

/-- A core's state. -/
def State.core (s : State) (c : Nat) : CoreSt := smGet CoreSt.init s.cores c
def State.setCore (s : State) (c : Nat) (x : CoreSt) : State := { s with cores := smSet CoreSt.init s.cores c x }
def State.modCore (s : State) (c : Nat) (f : CoreSt → CoreSt) : State := s.setCore c (f (s.core c))

/-! ### The occurrence of an error -/

/-- Offset of ERR_ACTION[i]. -/
def actionOff (i : Nat) : Nat := 0x080 + 4 * i

/-- The page's record of an unmasked occurrence (R424): the first fills ERR_FIRST, a later one merges. Answers whether it
merged. -/
def recordErr (s : State) (page src cls detail : Nat) : Bool × State :=
  if s.flag page ERR_FIRST_VALID then
    let m := min 255 (s.fld page ERR_FIRST_MCOUNT + 1)
    (true, (s.setFld page ERR_FIRST_MCOUNT m).setReg page 0x030 (s.reg page 0x030 ||| BitVec.ofNat 32 (2 ^ src)))
  else
    (false, s.setReg page 0x02C
      (BitVec.ofNat 32 (0x80000000 + 0x20000000 * cls + 0x1000000 * src + detail % 0x10000)))

/-- One occurrence of source `src` of a page, with DETAIL `detail` (R422 to R426, R430). A reserved source
does nothing. RATE_SKIPPED counts a corrected occurrence that takes no reaction, whether RATE skips it or no reaction is chosen
(log entry 9). -/
def errOcc (s : State) (page src detail : Nat) : State :=
  match pageOf s.fuses.part page with
  | none => s
  | some (t, _) =>
    match sourceOf t src with
    | none => s
    | some (cls, _, latch) =>
      let s := s.setReg page 0x020 (s.reg page 0x020 ||| BitVec.ofNat 32 (2 ^ src))
      if bitAt (s.reg page 0x024) src then s
      else
        let s := { s with hub := { s.hub with arrived := smInsert s.hub.arrived page () } }
        let (merged, s) := recordErr s page src cls detail
        let act := s.reg page (actionOff src)
        let rate := bits act 11 8
        let n := smGet 0 s.hub.rate (32 * page + src)
        let s := if cls = 0 then
            { s with hub := { s.hub with rate := smSet 0 s.hub.rate (32 * page + src) ((n + 1) % 65536) } }
          else s
        if cls = 0 ∧ (n % 2 ^ rate ≠ 0 ∨ bits act 5 0 = 0) then s.bump pgFlt 5
        else if bits act 5 0 = 0 then s
        else
          let r : Report := { page := page, src := src, cls := cls, merged := merged, detail := detail % 0x10000,
                              actions := bits act 5 0, latch := latch, ns := s.time.ns, sec := s.time.sec }
          { s with hub := { s.hub with reports := s.hub.reports ++ [r] } }

/-- Reports that one command brings reach the hub in the same cycle, and are logged in ascending PAGE order (R426): those of `t` beyond
the ones that `s` held. -/
def inPageOrder (s t : State) : State :=
  let n := s.hub.reports.length
  let l := t.hub.reports.take n ++ sortBy (fun (a b : Report) => decide (a.page ≤ b.page)) (t.hub.reports.drop n)
  { t with hub := { t.hub with reports := l } }

/-! ### Host events -/

/-- Entries of the event queue, and those kept for FAULT and FAULT_STATE (R487). -/
def eventCap : Nat := 4096
def eventKept : Nat := 64

/-- Is an event of the kinds that have entries of their own. -/
def HostEvent.keeps (e : HostEvent) : Bool := e.kind == 4 || e.kind == 5

/-- An event placed in the queue (R487): FAULT and FAULT_STATE have 64 entries, the other kinds the rest, and an event keeps its
entry until the host has acknowledged it (log entry 8); one that finds its part full is discarded, counted and recorded as HPT
source 4. -/
def queueEvent (s : State) (e : HostEvent) : State :=
  let cap := if e.keeps then eventKept else eventCap - eventKept
  if countIf (fun x => x.keeps == e.keeps) (s.events ++ s.host.unacked.map (·.2)) < cap then { s with events := s.events ++ [e] }
  else errOcc (s.bump pgHpt 7) pgHpt 4 0

/-- An event of the present fabric time without origin (R488). -/
def devEvent (s : State) (kind data : Nat) : HostEvent :=
  { kind := kind, count := 0, ns := s.time.ns, sec := s.time.sec % 2 ^ 32, origin := 0xFFF, data := data, log := [] }

/-- ORIGIN of R488 for core index `c`: die in [11:9], core in [8:0], ring and TAG. -/
def originOf (c ring tag : Nat) : Nat := 512 * (c / 288) + c % 288 + 4096 * ring + 65536 * tag

end Sys2Proof.Machine
end

