-- ==== Sys2Proof/Machine/Ether.lean ====
section
/-!
DEFINITION. The frames of the host port (R473 to R477): their bytes from destination address to FCS, what a received frame is judged by,
and what a sent one is made of. The formats of Ethernet, IPv4, IPv6, UDP, ARP, neighbour discovery and priority flow control are those of
the standards that R473 names (log entry 116). An address is the number whose lowest byte is sent first (R491).
-/

namespace Sys2Proof.Machine

/-! ### Bytes in network order, checks -/

/-- A number in `n` bytes, the highest first. -/
def beBytes (n v : Nat) : List Byte := (leBytes n v).reverse

/-- `n` bytes at an offset as a number, the highest first. -/
def beAt (b : List Byte) (off n : Nat) : Nat := leNat ((b.drop off).take n).reverse

/-- One bit of the CRC-32 of IEEE 802.3 in its reflected form. -/
def crc32Bit (c : BitVec 32) (b : Bool) : BitVec 32 :=
  let t := bitAt c 0 != b
  let s := c >>> 1
  if t then s ^^^ 0xEDB88320#32 else s

/-- The FCS: CRC-32 of IEEE 802.3, initial value and final inversion 0xFFFFFFFF. -/
def crc32 (bs : List Byte) : BitVec 32 :=
  ~~~ bs.foldl (fun c b => (List.range 8).foldl (fun c i => crc32Bit c (bitAt b i)) c) 0xFFFFFFFF#32

/-- The sum of the 16-bit words of bytes, the highest byte of each first. -/
def wordSum : List Byte → Nat
  | [] => 0
  | [a] => 256 * a.toNat
  | a :: b :: rest => 256 * a.toNat + b.toNat + wordSum rest

/-- Does a sum with its checksum come to all ones. -/
def sumOk (n : Nat) : Bool := n != 0 && n % 65535 == 0

/-- The checksum that completes a sum. -/
def checksum (n : Nat) : Nat := if n % 65535 = 0 then 0 else 65535 - n % 65535

/-- The sum of the pseudo-header of IPv4 or IPv6 addresses and the length and protocol of what follows. -/
def pseudoSum (addrs : List Byte) (proto n : Nat) : Nat := wordSum (addrs ++ beBytes 4 n ++ beBytes 4 proto)

/-! ### Own addresses (R475, R491) -/

def ownMac (s : State) : Nat := s.fld pgHpt HPT_MAC_LO + 2 ^ 32 * s.fld pgHpt HPT_MAC_HI_MAC
def ownIpv4 (s : State) : Nat := s.fld pgHpt HPT_IPV4
def ownIpv6 (s : State) : Nat := ((List.range 4).map (fun i => s.fld pgHpt (HPT_IPV6.at (4 * i)) * 2 ^ (32 * i))).sum

def broadcastMac : Nat := 2 ^ 48 - 1
/-- Group address of PFC frames. -/
def pfcMac : Nat := leNat [0x01, 0x80, 0xC2, 0x00, 0x00, 0x01]
/-- Group addresses of PTP over 802.3, IPv4 and IPv6, and the group's IP addresses. -/
def ptpMac : Nat := leNat [0x01, 0x1B, 0x19, 0x00, 0x00, 0x00]
def ptpMac4 : Nat := leNat [0x01, 0x00, 0x5E, 0x00, 0x01, 0x81]
def ptpMac6 : Nat := leNat [0x33, 0x33, 0x00, 0x00, 0x01, 0x81]
def ptpIpv4 : Nat := leNat [224, 0, 1, 129]
def ptpIpv6 : Nat := leNat [0xFF, 0x0E, 0, 0, 0, 0, 0, 0, 0, 0, 0, 0, 0, 0, 0x01, 0x81]
/-- The solicited-node address of this device's IPv6 address, and its group address on the wire. -/
def nodeIpv6 (s : State) : Nat :=
  leNat ([0xFF, 0x02, 0, 0, 0, 0, 0, 0, 0, 0, 0, 0x01, 0xFF] ++ (leBytes 16 (ownIpv6 s)).drop 13)
def nodeMac (s : State) : Nat := leNat ([0x33, 0x33, 0xFF] ++ (leBytes 16 (ownIpv6 s)).drop 13)

/-! ### Received frames -/

/-- Is the FCS of a frame correct. -/
def fcsOk (b : List Byte) : Bool := decide (18 ≤ b.length) && (crc32 (b.take (b.length - 4))).toNat == leAt b (b.length - 4) 4

/-- Is the source of a message the one a session is bound to: the MAC address for raw MCT, the IP address and port otherwise (R481). -/
def sameSrc : HostSrc → HostSrc → Bool
  | .raw a, .raw b => a == b
  | .ipv4 _ a p, .ipv4 _ b q => a == b && p == q
  | .ipv6 _ a p, .ipv6 _ b q => a == b && p == q
  | _, _ => false

/-- A PTP message: a Delay_Req of this domain is answered, others are not (R412). -/
def ptpBody (s : State) (m : List Byte) : HostBody :=
  if decide (44 ≤ m.length) && leAt m 0 1 % 16 == 1 && leAt m 1 1 % 16 == 2 && leAt m 4 1 == s.fld pgTim TIM_PTP_CTL_DOMAIN then
    .ptp (beAt m 30 2) ((m.drop 20).take 10)
  else .other

/-- Is PTP served over a transport. -/
def ptpOver (s : State) (t : Nat) : Bool := s.flag pgTim TIM_PTP_CTL_EN && s.fld pgTim TIM_PTP_CTL_TRANSPORT == t

/-- What a UDP datagram carries: MCT at its own port, PTP's event messages at port 319 and its others at 320. `mine` and `group` say whether it came to the device's own
address or to that of the PTP group, `sum` is the sum of its pseudo-header; a zero checksum is allowed over IPv4 alone (R477). -/
def udpBody (s : State) (mct : Bool) (transport : Nat) (mine group : Bool) (sum : Nat) (src : Nat → HostSrc) (d : List Byte) : Option HostBody :=
  let port := beAt d 2 2
  let c := beAt d 6 2
  let ok := decide (8 ≤ d.length) && beAt d 4 2 == d.length && (if c = 0 then transport == 0 else sumOk (sum + wordSum d))
  if !ok then none
  else if mine && port == s.fld pgHpt HPT_UDP_PORT && mct then some (.mct (src (beAt d 0 2)) (d.drop 8))
  else if (mine || group) && (port == 319 || port == 320) && ptpOver s transport then
    some (if port = 319 then ptpBody s (d.drop 8) else .other)
  else none

/-- What an IPv4 packet carries: no options, no fragments. -/
def ipv4Body (s : State) (dst src : Nat) (b : List Byte) : Option HostBody :=
  let n := beAt b 2 2
  let dest := leAt b 16 4
  let fits := leAt b 0 1 == 0x45 && decide (20 ≤ n) && decide (n ≤ b.length) && beAt b 6 2 % 2 ^ 14 == 0 && sumOk (wordSum (b.take 20))
  let d := (b.take n).drop 20
  if fits && leAt b 9 1 == 17 then
    udpBody s (s.flag pgHpt HPT_HCTRL_IPV4_EN) 0 (dst == ownMac s && dest == ownIpv4 s && dest != 0) (dst == ptpMac4 && dest == ptpIpv4)
      (pseudoSum ((b.drop 12).take 8) 17 d.length) (.ipv4 src (leAt b 12 4)) d
  else none

/-- A neighbour solicitation for an address of this device's, to the address or its solicited-node group. -/
def solicitBody (s : State) (dst src : Nat) (b d : List Byte) : Option HostBody :=
  let dest := leAt b 24 16
  if s.flag pgHpt HPT_HCTRL_IPV6_EN && leAt b 7 1 == 255 && decide (24 ≤ d.length) && beAt d 0 2 == 0x8700
      && sumOk (pseudoSum ((b.drop 8).take 32) 58 d.length + wordSum d)
      && ((dst == ownMac s && dest == ownIpv6 s) || (dst == nodeMac s && dest == nodeIpv6 s)) then
    some (.solicit src (leAt b 8 16) (leAt d 8 16))
  else none

/-- What an IPv6 packet carries: no extension headers. -/
def ipv6Body (s : State) (dst src : Nat) (b : List Byte) : Option HostBody :=
  let n := beAt b 4 2
  let dest := leAt b 24 16
  let d := (b.take (40 + n)).drop 40
  if !(leAt b 0 1 / 16 == 6 && decide (40 + n ≤ b.length)) then none
  else if leAt b 6 1 = 17 then
    udpBody s (s.flag pgHpt HPT_HCTRL_IPV6_EN) 1 (dst == ownMac s && dest == ownIpv6 s) (dst == ptpMac6 && dest == ptpIpv6)
      (pseudoSum ((b.drop 8).take 32) 17 n) (.ipv6 src (leAt b 8 16)) d
  else if leAt b 6 1 = 58 then solicitBody s dst src b d
  else none

/-- An ARP request. -/
def arpBody (s : State) (dst : Nat) (b : List Byte) : Option HostBody :=
  if s.flag pgHpt HPT_HCTRL_IPV4_EN && (dst == ownMac s || dst == broadcastMac) && decide (28 ≤ b.length)
      && b.take 8 == [0, 1, 0x08, 0, 6, 4, 0, 1] then
    some (.arp (leAt b 8 6) (leAt b 14 4) (leAt b 24 4))
  else none

/-- A PFC frame, untagged or with the port's tag: the classes it names and the time of each. -/
def pfcBody (s : State) (dst : Nat) (tagOk : Bool) (b : List Byte) : Option HostBody :=
  if s.flag pgHpt HPT_HCTRL_PFC_EN && dst == pfcMac && tagOk && decide (20 ≤ b.length) && beAt b 0 2 == 0x0101 then
    some (.pfc (beAt b 2 2) ((List.range 8).map (fun i => beAt b (4 + 2 * i) 2)))
  else none

/-- The bytes of a raw MCT message; those that fill a frame of the least size are not its own. -/
def rawMct (least : Bool) (b : List Byte) : List Byte := if least then b.take (24 + leAt b 6 2) else b

/-- What a frame with a correct FCS carries, where the port accepts it (R474, R475): its destination, its tag, and the protocols that are
enabled. -/
def hostBody (s : State) (b : List Byte) : Option HostBody :=
  let info := b.take (b.length - 4)
  let dst := leAt b 0 6
  let src := leAt b 6 6
  let tagged := beAt b 12 2 == 0x8100
  let at_ := if tagged then 16 else 12
  let pay := info.drop (at_ + 2)
  let tagOk := tagged == s.flag pgHpt HPT_HCTRL_VLAN_EN && (!tagged || beAt b 14 2 % 4096 == s.fld pgHpt HPT_VLAN_VID)
  if 9216 < b.length then none
  else match beAt b at_ 2 with
    | 0x8808 => pfcBody s dst (!tagged || tagOk) pay
    | 0x88B5 => if tagOk && dst == ownMac s && s.flag pgHpt HPT_HCTRL_RAW_EN then some (.mct (.raw src) (rawMct (decide (info.length ≤ 60)) pay)) else none
    | 0x0800 => if tagOk then ipv4Body s dst src pay else none
    | 0x86DD => if tagOk then ipv6Body s dst src pay else none
    | 0x0806 => if tagOk then arpBody s dst pay else none
    | 0x88F7 => if tagOk && (dst == ownMac s || dst == ptpMac) && ptpOver s 2 then some (ptpBody s pay) else none
    | _ => none

/-! ### Sent frames -/

/-- A frame with its padding to the least size and its FCS. -/
def closeFrame (b : List Byte) : List Byte :=
  let b := b ++ List.replicate (60 - b.length) 0
  b ++ leBytes 4 (crc32 b).toNat

/-- A frame from this device, tagged as R474 says. -/
def etherFrame (s : State) (dst typ : Nat) (pay : List Byte) : List Byte :=
  let tag : List Byte := if s.flag pgHpt HPT_HCTRL_VLAN_EN
    then beBytes 2 0x8100 ++ beBytes 2 (8192 * s.fld pgHpt HPT_VLAN_PCP + s.fld pgHpt HPT_VLAN_VID) else []
  closeFrame (leBytes 6 dst ++ leBytes 6 (ownMac s) ++ tag ++ beBytes 2 typ ++ pay)

/-- A UDP datagram between ports, its checksum computed. -/
def udpBytes (addrs : List Byte) (own port : Nat) (pay : List Byte) : List Byte :=
  let n := 8 + pay.length
  let head (c : Nat) : List Byte := beBytes 2 own ++ beBytes 2 port ++ beBytes 2 n ++ beBytes 2 c
  let c := checksum (pseudoSum addrs 17 n + wordSum (head 0 ++ pay))
  head (if c = 0 then 65535 else c) ++ pay

/-- An IPv4 packet with a datagram; what the spec leaves open of its header is a free constant. -/
def ipv4Bytes (s : State) (dest : Nat) (d : List Byte) : List Byte :=
  let head (c : Nat) : List Byte := [0x45, Config.ipTos] ++ beBytes 2 (20 + d.length) ++ beBytes 2 Config.ipIdent ++ [0, 0]
    ++ [Config.ipTtl, 17] ++ beBytes 2 c ++ leBytes 4 (ownIpv4 s) ++ leBytes 4 dest
  head (checksum (wordSum (head 0))) ++ d

/-- An IPv6 packet. -/
def ipv6Bytes (s : State) (next : Nat) (hop : Byte) (dest : Nat) (d : List Byte) : List Byte :=
  beBytes 4 (6 * 2 ^ 28 + Config.ipFlow % 2 ^ 28) ++ beBytes 2 d.length ++ [BitVec.ofNat 8 next, hop] ++ leBytes 16 (ownIpv6 s) ++ leBytes 16 dest ++ d

/-- A frame with a datagram over IPv4, and over IPv6. -/
def udp4Frame (s : State) (mac dest own port : Nat) (pay : List Byte) : List Byte :=
  etherFrame s mac 0x0800 (ipv4Bytes s dest (udpBytes (leBytes 4 (ownIpv4 s) ++ leBytes 4 dest) own port pay))
def udp6Frame (s : State) (mac dest own port : Nat) (pay : List Byte) : List Byte :=
  etherFrame s mac 0x86DD (ipv6Bytes s 17 Config.ipTtl dest (udpBytes (leBytes 16 (ownIpv6 s) ++ leBytes 16 dest) own port pay))

/-- The frame of an MCT message, in the encapsulation and to the addresses its host uses, from the MCT port (R477). -/
def mctFrame (s : State) (host : HostSrc) (bs : List Byte) : List Byte :=
  match host with
  | .raw mac => etherFrame s mac 0x88B5 bs
  | .ipv4 mac dest port => udp4Frame s mac dest (s.fld pgHpt HPT_UDP_PORT) port bs
  | .ipv6 mac dest port => udp6Frame s mac dest (s.fld pgHpt HPT_UDP_PORT) port bs

/-- An ARP reply (R475). -/
def arpReply (s : State) (mac ip : Nat) : List Byte :=
  etherFrame s mac 0x0806 ([0, 1, 0x08, 0, 6, 4, 0, 2] ++ leBytes 6 (ownMac s) ++ leBytes 4 (ownIpv4 s) ++ leBytes 6 mac ++ leBytes 4 ip)

/-- A neighbour advertisement (R475): to the solicitor, or to all nodes where it gave no address. -/
def advertisement (s : State) (mac ip : Nat) : List Byte :=
  let all := ip == 0
  let dest := if all then leNat [0xFF, 0x02, 0, 0, 0, 0, 0, 0, 0, 0, 0, 0, 0, 0, 0, 1] else ip
  let head (c : Nat) : List Byte := [136, 0] ++ beBytes 2 c ++ [if all then 0x20 else 0x60, 0, 0, 0] ++ leBytes 16 (ownIpv6 s) ++ [2, 1] ++ leBytes 6 (ownMac s)
  let c := checksum (pseudoSum (leBytes 16 (ownIpv6 s) ++ leBytes 16 dest) 58 32 + wordSum (head 0))
  etherFrame s (if all then leNat [0x33, 0x33, 0, 0, 0, 1] else mac) 0x86DD (ipv6Bytes s 58 255 dest (head c))

/-- A PFC frame for the port's priority: XOFF, or XON (R476). -/
def pfcFrame (s : State) (xoff : Bool) : List Byte :=
  let prio := s.fld pgHpt HPT_PFC_PRIO
  etherFrame s pfcMac 0x8808 (beBytes 2 0x0101 ++ beBytes 2 (2 ^ prio)
    ++ (List.range 8).flatMap (fun i => beBytes 2 (if xoff && i == prio then 65535 else 0)))

/-- A frame leaves while the link is up; without a link it is lost (R483). -/
def sendEther (s : State) (b : List Byte) : State :=
  if s.flag pgHpt HPT_LSTAT_LINK_UP then { s.bump pgHpt 1 with out := s.out ++ [.ether b] } else s

/-- Is the transmission of the priority of MCT paused (R476). -/
def mctPaused (s : State) : Bool := s.host.paused && s.flag pgHpt HPT_HCTRL_PFC_EN

/-- The frames that a pause held back leave once it has ended. -/
def flushQueued (s : State) : State :=
  if mctPaused s then s else s.host.queued.foldl sendEther { s with host := { s.host with queued := [] } }

/-- An MCT message leaves, or waits for the end of a pause. -/
def sendMct (s : State) (dest : HostSrc) (bs : List Byte) : State :=
  let f := mctFrame s dest bs
  if mctPaused s then { s with host := { s.host with queued := s.host.queued ++ [f] } } else sendEther (flushQueued s) f

/-! ### PTP messages (R412) -/

/-- clockIdentity, from the MAC address (log entry 116). -/
def clockIdentity (s : State) : List Byte :=
  let m := leBytes 6 (ownMac s)
  m.take 3 ++ [0xFF, 0xFE] ++ m.drop 3

/-- A PTP message: its header with messageType, flagField, sequenceId, controlField and logMessageInterval, the other fields zero, and its
body. -/
def ptpBytes (s : State) (typ flags seq control : Nat) (log : Nat) (body : List Byte) : List Byte :=
  [BitVec.ofNat 8 typ, 0x12] ++ beBytes 2 (34 + body.length) ++ [BitVec.ofNat 8 (s.fld pgTim TIM_PTP_CTL_DOMAIN), 0] ++ beBytes 2 flags
    ++ List.replicate 12 0 ++ clockIdentity s ++ beBytes 2 1 ++ beBytes 2 seq ++ [BitVec.ofNat 8 control, BitVec.ofNat 8 log] ++ body

/-- A time as PTP carries it. -/
def ptpStamp (sec ns : Nat) : List Byte := beBytes 6 sec ++ beBytes 4 ns

/-- The frame of a PTP message to its group, over the transport that TRANSPORT selects: event messages at port 319, others at 320. -/
def ptpFrame (s : State) (port : Nat) (m : List Byte) : List Byte :=
  match s.fld pgTim TIM_PTP_CTL_TRANSPORT with
  | 0 => udp4Frame s ptpMac4 ptpIpv4 port port m
  | 1 => udp6Frame s ptpMac6 ptpIpv6 port port m
  | _ => etherFrame s ptpMac 0x88F7 m

/-- A PTP message leaves. -/
def sendPtp (s : State) (port : Nat) (m : List Byte) : State := sendEther s (ptpFrame s port m)

/-! ### Answers to a host -/

def strBytes (t : String) : List Byte := t.toList.map (fun c => BitVec.ofNat 8 c.toNat)

/-- The bytes of an MCT message from the device (R478). -/
def mctBytes (typ flags status sess seq ack incarn : Nat) (pay : List Byte) : List Byte :=
  let head (crc : Nat) : List Byte :=
    [1, BitVec.ofNat 8 typ, BitVec.ofNat 8 flags, BitVec.ofNat 8 status, BitVec.ofNat 8 sess, 0] ++ leBytes 2 pay.length
      ++ leBytes 4 seq ++ leBytes 4 ack ++ leBytes 4 incarn ++ leBytes 4 crc
  head (crc32c (head 0 ++ pay)).toNat ++ pay

/-- Bytes in the receive buffer: requests that have not been answered and frames that wait for their command (log entry 79). -/
def bufLevel (s : State) : Nat :=
  (s.host.sess.map (fun e => (e.2.reqs.map (fun r => 24 + r.2.bytes.length)).sum)).sum + 32 * s.host.inq.length

/-- XOFF at the upper level, XON at the lower one (R476). -/
def pfcCheck (s : State) : State :=
  if !s.flag pgHpt HPT_HCTRL_PFC_EN then s
  else if !s.host.xoff && decide (16384 * s.fld pgHpt HPT_PFC_XOFF ≤ bufLevel s) then
    sendEther { s with host := { s.host with xoff := true } } (pfcFrame s true)
  else if s.host.xoff && decide (bufLevel s ≤ 16384 * s.fld pgHpt HPT_PFC_XON) then
    sendEther { s with host := { s.host with xoff := false } } (pfcFrame s false)
  else s

/-- Takes the first waiting frame that `f` reads. -/
def takeInq {α : Type} (s : State) (f : HostIn → Option α) : Option (α × State) :=
  match s.host.inq.findSome? (fun i => (f i).map (fun a => (i, a))) with
  | none => none
  | some (i, a) => some (a, pfcCheck { s with host := { s.host with inq := dropFirst (· == i) s.host.inq } })

def State.sess (s : State) (k : Nat) : Option SessSt := smFind s.host.sess k
def State.setSess (s : State) (k : Nat) (x : SessSt) : State :=
  { s with host := { s.host with sess := smInsert s.host.sess k x } }

/-- The answer to the request of SEQ `seq`, sent to the source the request came from (R477): it is cached, and where the request was the
next to start the one after it may. -/
def respondTo (s : State) (k seq typ status : Nat) (bs : List Byte) : State :=
  match s.sess k with
  | none => s
  | some x =>
    match smFind x.reqs seq with
    | none => s
    | some q =>
      let r : HostResp := ⟨typ, seq, status, bs⟩
      let first := x.next == seq
      let s := s.setSess k { x with
        reqs := smErase x.reqs seq, next := if first then (seq + 1) % 2 ^ 32 else x.next, busy := x.busy && !first
        cache := (r :: x.cache).take 256 }
      pfcCheck (sendMct s q.src (mctBytes typ 1 status k seq x.ack x.incarn bs))

/-- The answer to the session's present request. -/
def respond (s : State) (k typ status : Nat) (bs : List Byte) : State :=
  match s.sess k with
  | none => s
  | some x => respondTo s k x.next typ status bs

/-- A MEM_WR whose last write has been committed is answered, if its session is still the same (R484). -/
def answerWrite (s : State) (k incarn seq : Nat) : State :=
  match s.sess k with
  | none => s
  | some x => if x.incarn = incarn then respondTo s k seq 0x20 0 [] else s

end Sys2Proof.Machine
end

