-- ==== Sys2Proof/Machine/Codes.lean ====
section
/-!
DEFINITION. Reed-Solomon codes over GF(2^m): the memory code of R210 to R214 and the link code of R257. A word is its list of
symbols, information symbols first; the first symbol is the coefficient of the highest power (DEDUCED, log entry 97). Decoding is
bounded-distance: syndromes, Berlekamp-Massey, a search of the word's positions for the locator's roots, Forney's formula, and
the check that the correction has the syndromes found.
-/

namespace Sys2Proof.Machine

/-- A field GF(2^m) by its width and its field polynomial, whose root α is the element 2. -/
structure Gf where
  m : Nat
  poly : Nat
deriving DecidableEq, Repr

/-- The field of the memory code, x^8 + x^4 + x^3 + x^2 + 1 (R210). -/
def gf256 : Gf := ⟨8, 0x11D⟩

/-- The field of the link code, x^10 + x^3 + 1 (R257). -/
def gf1024 : Gf := ⟨10, 0x409⟩

/-- α times an element. -/
def Gf.double (f : Gf) (a : Nat) : Nat := if 2 ^ f.m ≤ 2 * a then (2 * a) ^^^ f.poly else 2 * a

/-- The product of two elements. -/
def Gf.mul (f : Gf) (a b : Nat) : Nat :=
  (List.range f.m).foldr (fun i r => if b.testBit i then f.double r ^^^ a else f.double r) 0

/-- The inverse of an element, its power 2^m − 2; 0 for 0. -/
def Gf.inv (f : Gf) (a : Nat) : Nat :=
  ((List.range (f.m - 1)).foldl (fun (x : Nat × Nat) _ =>
    let q := f.mul x.2 x.2
    (f.mul x.1 q, q)) (1, a)).1

/-- α^k. -/
def Gf.exp (f : Gf) : Nat → Nat
  | 0 => 1
  | k + 1 => f.double (f.exp k)

/-- A polynomial, lowest coefficient first, at a point. -/
def Gf.eval (f : Gf) (p : List Nat) (x : Nat) : Nat := p.foldr (fun c r => f.mul r x ^^^ c) 0

/-- Coefficients added, the shorter list read with zeros. -/
def xorLists : List Nat → List Nat → List Nat
  | [], l => l
  | l, [] => l
  | a :: s, b :: t => (a ^^^ b) :: xorLists s t

/-- The product of two polynomials. -/
def Gf.polyMul (f : Gf) : List Nat → List Nat → List Nat
  | [], _ => []
  | a :: s, q => xorLists (q.map (f.mul a)) (0 :: f.polyMul s q)

/-- A Reed-Solomon code: its field, check symbols, and the number of symbols its decoder corrects. -/
structure Rs where
  f : Gf
  checks : Nat
  t : Nat
deriving DecidableEq, Repr

/-- The memory code: 8 check symbols, up to 3 symbols corrected (R210, R211, R214). -/
def memRs : Rs := ⟨gf256, 8, 3⟩

/-- RS(560,525) of the link: 35 check symbols, up to 17 symbols corrected (R257). -/
def linkRs : Rs := ⟨gf1024, 35, 17⟩

/-- The generator polynomial, the product of x − α^i over the check symbols, lowest coefficient first. -/
def Rs.gen (c : Rs) : List Nat := (List.range c.checks).foldl (fun g i => c.f.polyMul g [c.f.exp i, 1]) [1]

/-- The check symbols of a word's information symbols: the remainder of its division by the generator, highest power first. -/
def Rs.encode (c : Rs) (data : List Nat) : List Nat :=
  let g := (c.gen.take c.checks).reverse
  data.foldl (fun r d =>
    let q := d ^^^ r.headD 0
    xorLists (r.drop 1 ++ [0]) (g.map (c.f.mul q))) (List.replicate c.checks 0)

/-- The syndromes of a received word: its values at α^0, α^1, and so on. -/
def Rs.syndromes (c : Rs) (word : List Nat) : List Nat :=
  (List.range c.checks).map (fun i => word.foldl (fun r x => c.f.mul r (c.f.exp i) ^^^ x) 0)

/-- The syndromes of a word of `n` symbols that differs from a codeword by the errors listed, as position and difference. -/
def Rs.errSyndromes (c : Rs) (n : Nat) (errs : List (Nat × Nat)) : List Nat :=
  (List.range c.checks).map (fun i =>
    errs.foldl (fun r e => r ^^^ c.f.mul e.2 (c.f.exp (i * (n - 1 - e.1) % (2 ^ c.f.m - 1)))) 0)

/-- A step of Berlekamp-Massey. -/
structure Bm where
  lam : List Nat
  prev : List Nat
  len : Nat
  gap : Nat
  last : Nat
deriving DecidableEq, Repr

/-- The discrepancy of the next syndrome, `seen` being the syndromes before it, newest first. -/
def Bm.disc (f : Gf) (b : Bm) (s : Nat) (seen : List Nat) : Nat :=
  ((b.lam.drop 1).zip seen).foldl (fun r p => r ^^^ f.mul p.1 p.2) s

def Bm.step (f : Gf) (b : Bm) (n s : Nat) (seen : List Nat) : Bm :=
  let d := b.disc f s seen
  if d = 0 then { b with gap := b.gap + 1 }
  else
    let k := f.mul d (f.inv b.last)
    let lam := xorLists b.lam (List.replicate b.gap 0 ++ b.prev.map (f.mul k))
    if 2 * b.len ≤ n then { lam := lam, prev := b.lam, len := n + 1 - b.len, gap := 1, last := d }
    else { b with lam := lam, gap := b.gap + 1 }

/-- The error locator of a list of syndromes, and its length. -/
def Rs.locator (c : Rs) (syn : List Nat) : Bm :=
  ((syn.foldl (fun (x : Bm × Nat × List Nat) s => (x.1.step c.f x.2.1 s x.2.2, x.2.1 + 1, s :: x.2.2))
    (⟨[1], [1], 0, 1, 1⟩, 0, []))).1

/-- What decoding finds in a word: a codeword, errors it corrects (position and difference), or too many errors. -/
inductive Decoded where
  | clean
  | fixed (errs : List (Nat × Nat))
  | failed
deriving DecidableEq, Repr

/-- The value of the error at a position whose power of α is `j`: Forney's formula for a first root of α^0. -/
def Rs.errorAt (c : Rs) (syn lam : List Nat) (j : Nat) : Nat :=
  let x := c.f.exp j
  let y := c.f.inv x
  let om := (c.f.polyMul syn lam).take c.checks
  let d := lam.mapIdx (fun i a => if i % 2 = 1 then a else 0)
  -- the odd terms of the locator at y are y times its derivative
  c.f.mul (c.f.mul x (c.f.eval om y)) (c.f.inv (c.f.mul (c.f.eval d y) x))

/-- Decoding of a word of `n` symbols from its syndromes. -/
def Rs.decode (c : Rs) (n : Nat) (syn : List Nat) : Decoded :=
  if syn.all (· == 0) then .clean
  else
    let b := c.locator syn
    if c.t < b.len then .failed
    else
      let roots := (List.range n).filter (fun p => c.f.eval b.lam (c.f.inv (c.f.exp (n - 1 - p))) == 0)
      let errs := roots.map (fun p => (p, c.errorAt syn b.lam (n - 1 - p)))
      if roots.length = b.len ∧ c.errSyndromes n errs = syn then .fixed errs else .failed

end Sys2Proof.Machine
end

