-- ==== Sys2Proof/Machine/Frames.lean ====
section
/-!
DEFINITION. The formats of frames, link units and packets (R257, R258, R274, R275, R280, R281, R400, R401): their bytes, and what a
receiver reads from bytes.
-/

namespace Sys2Proof.Machine

/-! ### The FEC (R257, R259) -/

/-- The errors of codeword `c` of a frame: frame symbol j is symbol j div 4 of codeword j mod 4. -/
def cwErrs (errs : List (Nat × Nat)) (c : Nat) : List (Nat × Nat) := (errs.filter (fun e => e.1 % 4 == c)).map (fun e => (e.1 / 4, e.2))

/-- The errors of an injection of `n` units: five check symbols of every codeword inverted for each unit (R439). -/
def injectedErrs (n : Nat) : List (Nat × Nat) := (List.range (4 * (5 * n))).map (fun i => (2100 + i, 1023))

/-- What the decoder makes of a frame. -/
structure Fec where
  /-- some codeword is uncorrectable -/
  uncorr : Bool
  /-- codewords with one or more corrected symbols, and symbols corrected -/
  cwCorr : Nat
  symCorr : Nat
  /-- differences of the frame's symbols that remain after decoding: those of an error pattern the code takes for another codeword's -/
  left : List (Nat × Nat)
deriving DecidableEq, Repr

/-- One codeword decoded: RS(560,525), up to 17 symbols corrected. -/
def fecCodeword (errs : List (Nat × Nat)) (x : Fec) (c : Nat) : Fec :=
  let e := cwErrs errs c
  let back (l : List (Nat × Nat)) : List (Nat × Nat) := l.map (fun e => (4 * e.1 + c, e.2))
  match linkRs.decode 560 (linkRs.errSyndromes 560 e) with
  | .clean => { x with left := x.left ++ back e }
  | .fixed f =>
    let diff := (List.range 560).filterMap (fun i =>
      let d := ((e ++ f).filter (·.1 == i)).foldl (fun r y => r ^^^ y.2) 0
      if d = 0 then none else some (i, d))
    { x with cwCorr := x.cwCorr + 1, symCorr := x.symCorr + f.length, left := x.left ++ back diff }
  | .failed => { x with uncorr := true }

/-- The four codewords of a frame; a frame without errors needs no decoding. -/
def fecOf (errs : List (Nat × Nat)) : Fec :=
  if errs.isEmpty then ⟨false, 0, 0, []⟩ else (List.range 4).foldl (fecCodeword errs) ⟨false, 0, 0, []⟩

/-- Information bytes with the differences of their symbols: symbol m holds the bits 10m to 10m + 9, byte 0 bit 0 first. -/
def putSymbols (bs : List Byte) (left : List (Nat × Nat)) : List Byte :=
  if left.isEmpty then bs
  else leBytes bs.length ((left.filter (fun e => decide (e.1 < 2100))).foldl (fun n e => n ^^^ (e.2 * 2 ^ (10 * e.1))) (leNat bs))

/-! ### Packets and link units (R274, R280, R281) -/

def flagBit (b : Bool) (i : Nat) : Nat := if b then 2 ^ i else 0

/-- The header of a packet. -/
def headerBytes (p : Packet) (stage : Nat) : List Byte :=
  leBytes 1 p.kind ++ leBytes 1 (flagBit p.flagged 0 + flagBit p.poison 1 + flagBit p.e2eRetx 2) ++ leBytes 2 (p.dst % 2 ^ 14)
    ++ leBytes 2 (p.src % 2 ^ 14) ++ leBytes 2 p.payload.length ++ leBytes 8 p.addr ++ leBytes 4 p.seq ++ leBytes 4 p.aux
    ++ leBytes 4 p.rtag ++ leBytes 4 (stage % 4)

/-- The packet CRC: over bytes 0 to 27, four zero bytes in place of ROUTE, and the payload. -/
def packetCrc (header payload : List Byte) : Nat := (crc32c (header.take 28 ++ [0, 0, 0, 0] ++ payload)).toNat

/-- A packet as it goes into a link unit. -/
def packetBytes (p : Packet) : List Byte :=
  headerBytes p p.stage ++ p.payload ++ leBytes 4 (packetCrc (headerBytes p p.stage) p.payload)

/-- The packet at the start of a unit's body, if its CRC is correct; a LEN that the body cannot hold fails it too. -/
def parsePacket (b : List Byte) : Option Packet :=
  let n := leAt b 6 2 % 2 ^ 13
  let payload := (b.drop 32).take n
  if decide (36 + n ≤ b.length) && packetCrc b payload == leAt b (32 + n) 4 then
    some { kind := leAt b 0 1, flagged := (leAt b 1 1).testBit 0, poison := (leAt b 1 1).testBit 1, e2eRetx := (leAt b 1 1).testBit 2,
           dst := leAt b 2 2 % 2 ^ 14, src := leAt b 4 2 % 2 ^ 14, addr := leAt b 8 8, seq := leAt b 16 4, aux := leAt b 20 4,
           rtag := leAt b 24 4, stage := leAt b 28 1 % 4, payload := payload }
  else none

/-- LTAG of a unit. -/
def ltagBytes (lseq vc : Nat) (retx : Bool) (units : Nat) : List Byte :=
  let b := leBytes 2 lseq ++ leBytes 1 (vc + flagBit retx 3) ++ [0] ++ leBytes 2 units
  b ++ leBytes 2 (crc16 b).toNat

/-- UNITS of a packet: LTAG, header, payload and CRC in 8-byte units. -/
def unitsNeeded (p : Packet) : Nat := (8 + 32 + p.payload.length + 4 + 7) / 8

/-- A link unit: LTAG, packet, and zero bytes up to its length. -/
def unitBytes (lseq vc : Nat) (retx : Bool) (p : Packet) : List Byte :=
  let b := ltagBytes lseq vc retx (unitsNeeded p) ++ packetBytes p
  b ++ List.replicate (8 * unitsNeeded p - b.length) 0

/-- A filler unit. -/
def fillerBytes : List Byte := ltagBytes 0 7 false 1

/-- The units of a stream that starts at an LTAG, and the bytes of one that goes on in the next frame; none when a TCRC fails or UNITS
is no length of R274, which ends the stream until the next FIRST (R276). -/
def parseUnits : Nat → List Byte → List LinkUnit × Option (List Byte)
  | 0, b => ([], some b)
  | n + 1, b =>
    if b.length < 8 then ([], some b)
    else
      let units := leAt b 4 2 % 1024
      if (crc16 (b.take 6)).toNat ≠ leAt b 6 2 ∨ units = 0 ∨ 518 < units then ([], none)
      else if b.length < 8 * units then ([], some b)
      else
        let (l, rest) := parseUnits n (b.drop (8 * units))
        (⟨leAt b 0 2, leAt b 2 1 % 8, (leAt b 2 1).testBit 3, units, (b.drop 8).take (8 * units - 8)⟩ :: l, rest)

/-- PKT of a frame (R274, R276): the stream goes on from the frame before it, or starts at FIRST. -/
def takeStream (part : Option (List Byte)) (first : Nat) (pkt : List Byte) : List LinkUnit × Option (List Byte) :=
  match part with
  | some b => parseUnits 900 (b ++ pkt)
  | none => if pkt.length ≤ first then ([], none) else parseUnits 900 (pkt.drop first)

/-! ### Heads and LCTL (R258, R275, R400, R401) -/

def markerBytes : List Byte := [0x4D, 0x1E, 0xB2, 0x6C, 0x93, 0x5A, 0xE1, 0x07]

/-- A short stamp. -/
def stampBytes (sec ns frac : Nat) : List Byte := leBytes 8 (frac % 2 ^ 16 + 2 ^ 16 * (ns % 2 ^ 30) + 2 ^ 46 * (sec % 2 ^ 18))
def parseStamp (n : Nat) : Stamp := ⟨natBits n 63 46, natBits n 45 16, natBits n 15 0⟩

/-- TSYNC, LCTL bytes 40 to 71. -/
def syncBytes (t : TSync) : List Byte :=
  stampBytes t.txT.sec t.txT.ns t.txT.frac ++ stampBytes t.rxT.sec t.rxT.ns t.rxT.frac ++ leBytes 2 t.rxFseq ++ leBytes 4 (t.secHi % 2 ^ 30)
    ++ leBytes 2 (t.root % 2 ^ 14 + flagBit t.valid 14) ++ leBytes 1 t.prio ++ leBytes 1 (t.hops % 16) ++ leBytes 2 t.alive
    ++ leBytes 1 (flagBit t.locked 0 + flagBit t.holdover 1 + flagBit t.circ 2) ++ [0, 0, 0]

def parseSync (b : List Byte) : TSync :=
  { txT := parseStamp (leAt b 0 8), rxT := parseStamp (leAt b 8 8), rxFseq := leAt b 16 2, secHi := leAt b 18 4 % 2 ^ 30,
    root := leAt b 22 2 % 2 ^ 14, valid := (leAt b 22 2).testBit 14, prio := leAt b 24 1, hops := leAt b 25 1 % 16, alive := leAt b 26 2,
    locked := (leAt b 28 1).testBit 0, holdover := (leAt b 28 1).testBit 1, circ := (leAt b 28 1).testBit 2 }

/-- LCTL of a frame: `first` in PKT, ACK_NEXT with the LSEQs received above it, CREDIT and CSEQ, and TSYNC. -/
def lctlBytes (c : LCtl) (t : TSync) : List Byte :=
  let map := ((List.range 64).filter (fun i => c.ackMap.contains ((c.ackNext + 1 + i) % 2 ^ 16))).foldl (fun n i => n + 2 ^ i) 0
  leBytes 2 c.first ++ leBytes 2 c.ackNext ++ leBytes 8 map ++ (List.range 6).flatMap (fun i => leBytes 4 (c.credit.getD i 0))
    ++ leBytes 4 c.cseq ++ syncBytes t ++ List.replicate 24 0

def parseLctl (b : List Byte) : LCtl :=
  let next := leAt b 2 2
  let map := leAt b 4 8
  { first := leAt b 0 2, ackNext := next,
    ackMap := ((List.range 64).filter (fun i => map.testBit i)).map (fun i => (next + 1 + i) % 2 ^ 16)
    credit := (List.range 6).map (fun i => leAt b (12 + 4 * i) 4), cseq := leAt b 36 4 }

/-- The LCTL of a training frame. -/
def LCtl.idle : LCtl := ⟨0xFFFF, 0, [], [], 0⟩

/-- Bytes 8 to 23 of a frame. -/
def headBytes (h : Head) : List Byte :=
  let b := leBytes 4 h.fseq ++ leBytes 2 (h.srcDev % 2 ^ 14) ++ leBytes 1 h.plane ++ leBytes 1 (h.line % 32) ++ leBytes 4 h.epoch
    ++ leBytes 1 (h.lstate % 16 + flagBit h.identOk 4 + flagBit h.hold 5) ++ [0]
  b ++ leBytes 2 (crc16 b).toNat

/-- The head of a frame's bytes, with the outcome of its HCRC. -/
def parseHead (b : List Byte) : Head :=
  { fseq := leAt b 8 4, srcDev := leAt b 12 2 % 2 ^ 14, plane := leAt b 14 1, line := leAt b 15 1 % 32, epoch := leAt b 16 4,
    lstate := leAt b 20 1 % 16, identOk := (leAt b 20 1).testBit 4, hold := (leAt b 20 1).testBit 5,
    hcrcOk := (crc16 ((b.drop 8).take 14)).toNat == leAt b 22 2 }

/-- The information bytes of a frame. -/
def frameBytes (h : Head) (c : LCtl) (t : TSync) (pkt : List Byte) : List Byte :=
  markerBytes ++ headBytes h ++ lctlBytes c t ++ List.replicate 5 0 ++ pkt

/-! ### The line (R257) -/

/-- Symbol `m` of a frame's information: 10 bits, byte 0 bit 0 first. -/
def infoSymbol (bits m : Nat) : Nat := bits / 2 ^ (10 * m) % 1024

/-- The 2,240 symbols of a frame: its information, then the check symbols of its four codewords in the same interleave. -/
def lineSymbols (bs : List Byte) : List Nat :=
  let info := (List.range 2100).map (infoSymbol (leNat bs))
  let checks := (List.range 4).map (fun c => linkRs.encode ((List.range 525).map (fun i => infoSymbol (leNat bs) (4 * i + c))))
  info ++ (List.range 140).map (fun i => (checks.getD (i % 4) []).getD (i / 4) 0)

/-- The PAM4 level of a bit pair: Gray mapping, the higher bit first. -/
def grayLevel (pair : Nat) : Nat := if pair = 2 then 3 else if pair = 3 then 2 else pair

/-- The levels of a frame, one unit interval for each bit pair (log entry 126). -/
def lineLevels (bs : List Byte) : List Nat := (lineSymbols bs).flatMap (fun x => (List.range 5).map (fun i => grayLevel (x / 4 ^ i % 4)))

/-- A frame as it leaves on a line. -/
def outFrame (plane line : Nat) (bs : List Byte) : OutMsg := .frame plane line bs (lineLevels bs)

/-- A received frame's bytes after decoding. -/
def frameInfo (f : Frame) : List Byte := putSymbols f.bytes (fecOf f.errs).left

/-! ### The transmit stream (R274) -/

/-- Where the first LTAG after the next 2,500 bytes of a stream lies, counted from their end; `pos` is the next LTAG. -/
def nextLtag : Nat → List Byte → Nat → Nat
  | 0, _, pos => pos - 2500
  | n + 1, b, pos => if 2500 ≤ pos then pos - 2500 else nextLtag n b (pos + 8 * (leAt b (pos + 4) 2 % 1024))

/-- PKT of the next frame from a transmit queue: FIRST, the 2,500 bytes, and what is left of the queue with the place of its next
LTAG. Filler fills the frame when no unit is ready. -/
def nextPkt (txq : List Byte) (txNext : Nat) : Nat × List Byte × List Byte × Nat :=
  let n := if txq.length < 2500 then (2500 - txq.length + 7) / 8 else 0
  let b := txq ++ (List.replicate n fillerBytes).flatten
  (if txNext < 2500 then txNext else 0xFFFF, b.take 2500, b.drop 2500, nextLtag 400 b txNext)

end Sys2Proof.Machine
end

