-- ==== Sys2Proof/Machine/Mem.lean ====
section
/-!
DEFINITION. Memory: the local map (R194), granule hashing (R196, R197), the channels (R200, R202), the memory codes with poison (R210 to R216), and reads and
writes of byte ranges as every engine and every arriving packet makes them (R208, R209).
-/

namespace Sys2Proof.Machine

/-! ### The local map -/

/-- First byte of the core SRAM windows (R194). -/
def sramBase : Nat := 0x100000000000

/-- Local offset of byte 0 of a core's SRAM (R127). -/
def sramOf (core : Nat) : Nat := sramBase + 0x100000 * core

/-- Is the offset in the plate region (R194). -/
def isPlate (f : Fuses) (a : Nat) : Bool := decide (a < f.part.span)

/-- Is the offset in a core's SRAM window (R194). -/
def isSram (a : Nat) : Bool := decide (sramBase ≤ a) && decide (a < sramBase + 2304 * 0x100000)

/-- Does the offset hold a byte of memory (R194). -/
def memExists (f : Fuses) (a : Nat) : Bool := isPlate f a || isSram a

/-- Does every byte of a range exist; the plate region and the SRAM windows are each contiguous. -/
def rangeExists (f : Fuses) (a n : Nat) : Bool :=
  n == 0 || (isPlate f a && isPlate f (a + n - 1)) || (isSram a && isSram (a + n - 1))

/-- The core whose SRAM holds the offset. -/
def sramCore (a : Nat) : Nat := (a - sramBase) / 0x100000

/-- Width B of R196: 10 on 16 plates, 9 on 8. -/
def hashBits (f : Fuses) : Nat := if f.part.plates = 16 then 10 else 9

/-- Channel c of a granule (R196). -/
def granuleChannel (f : Fuses) (g : Nat) : Nat :=
  let b := hashBits f
  (g ^^^ (g >>> b) ^^^ (g >>> (2 * b)) ^^^ (g >>> (3 * b))) % 2 ^ b

/-- Channel index I of a granule (R196). -/
def granuleIndex (f : Fuses) (g : Nat) : Nat := g >>> hashBits f

/-- Row and bank of a channel index (R197). -/
def indexRow (i : Nat) : Nat := i >>> 8
def indexBank (i : Nat) : Nat := natBits i 7 3 ^^^ natBits i 12 8

/-- The plate that holds a plate-region offset (R196). -/
def plateOf (f : Fuses) (a : Nat) : Nat := granuleChannel f (a / 256) / 64

/-- Bank of an SRAM offset (R56). -/
def sramBank (a : Nat) : Nat := natBits a 8 5 ^^^ natBits a 12 9

/-! ### The canonical form -/

/-- The canonical form of memory: strictly rising addresses, no entry that reads as an unlisted byte does. -/
def Memory.wf (m : Memory) : Bool := smWf (0 : Byte) m

/-- One byte. -/
def memByte (m : Memory) (a : Nat) : Byte := smGet 0 m a

/-- `n` bytes from `a`. -/
def memBytes (m : Memory) (a n : Nat) : List Byte := (List.range n).map (fun i => memByte m (a + i))

/-- Bytes stored from `a` up. -/
def memStore : Memory → Nat → List Byte → Memory
  | m, _, [] => m
  | m, a, b :: bs => memStore (smSet 0 m a b) (a + 1) bs

/-! ### Codewords -/

/-- What a decoded codeword read delivers (R211). -/
inductive CwRead where
  | ok
  | poisoned
  | uncorr
deriving DecidableEq, Repr

/-- A page's injection for one check of a source in `srcs` (R439): the number of check symbols inverted, and the
page with ARM cleared after a single injection. -/
def takeInjection (s : State) (page : Nat) (srcs : List Nat) : Nat × State :=
  if s.flag page ERR_INJECT_ARM && decide (s.fld page ERR_INJECT_MODE ≤ 1)
      && srcs.contains (s.fld page ERR_INJECT_SOURCE) then
    (s.fld page ERR_INJECT_NSYM,
      if s.fld page ERR_INJECT_MODE = 0 then s.setFld page ERR_INJECT_ARM 0 else s)
  else (0, s)

/-- Does an armed injection reach a CRC or parity check of a source (R439). -/
def takeCrcInjection (s : State) (page : Nat) (src : Nat) : Bool × State :=
  let (n, s) := takeInjection s page [src]
  (n != 0, s)

/-- A check of a core's hardware whose source is on the FLT page (6 array datapath, 7 vector datapath, 8 graver, 9 engine queue): an armed injection
makes its comparison fail; DETAIL names the die, the core and the engine instance (R439, R446). -/
def coreChecker (s : State) (src c inst : Nat) : State :=
  let (inj, s) := takeCrcInjection s pgFlt src
  if inj then errOcc s pgFlt src (512 * (c / 288) + c % 288 + 4096 * inst) else s

/-- The compute die beside which an address lies (R18, R20). -/
def addrDie (s : State) (a : Nat) : Nat := if isSram a then sramCore a / 288 else s.fuses.part.platePos (plateOf s.fuses a) / 2

/-- The bridge between two compute dies (R18, R22, R446): 0 to 5 within the rows, 6 to 9 within the columns; between dies that are not
neighbours the path over the mesh is open (log entry 77). -/
def dieBridge (s : State) (a b : Nat) : Nat × State :=
  let lo := min a b
  if a / 4 = b / 4 ∧ max a b = lo + 1 then (3 * (lo / 4) + lo % 4, s)
  else if max a b = lo + 4 then (6 + lo, s)
  else s.freeNat 10

/-- A packet of core `c` crosses the mesh, and a bridge between compute dies, where it reaches an address that is not the core's own: an
armed injection at FLT source 4 or 0 makes its CRC fail, and the retry masks it (R439, R443, R446). -/
def meshChecker (c : Nat) (s : State) (a : Nat) : State :=
  if isSram a && sramCore a == c then s
  else
    let (mesh, s) := takeCrcInjection s pgFlt 4
    let s := if mesh then errOcc s pgFlt 4 0 else s
    if c / 288 = addrDie s a then s
    else
      let (inj, s) := takeCrcInjection s pgFlt 0
      if inj then
        let (b, s) := dieBridge s (c / 288) (addrDie s a)
        errOcc s pgFlt 0 b
      else s

/-- A plate controller's state. -/
def State.plate (s : State) (k : Nat) : PlateSt := smGet PlateSt.init s.plates k
def State.setPlate (s : State) (k : Nat) (p : PlateSt) : State := { s with plates := smSet PlateSt.init s.plates k p }

/-- A plate is declared lost (R219): source 3 for a lane, 4 for a channel. Its waiting writes are discarded. -/
def losePlate (s : State) (k src ch : Nat) : State :=
  if s.flag (pgPlt k) PLT_PSTAT_LOST then s
  else
    let s := s.setPlate k { s.plate k with wq := [] }
    errOcc (s.setFlds (pgPlt k) [(PLT_PSTAT_LOST, 1), (PLT_PSTAT_FAIL_CH, ch)]) (pgPlt k) src 0

/-- ERR_LOC of the PLT page: the first error recorded since ERR_STAT was last cleared (R221). -/
def plateErrLoc (s : State) (k a nsym sym : Nat) : State :=
  if smHas s.plateCodes.loc k then s
  else
    let s := { s with plateCodes := { s.plateCodes with loc := smInsert s.plateCodes.loc k () } }
    s.setFlds (pgPlt k)
      [(PLT_ERR_LOC0_CHANNEL, granuleChannel s.fuses (a / 256) % 64), (PLT_ERR_LOC0_INDEX, granuleIndex s.fuses (a / 256)),
       (PLT_ERR_LOC0_BURST, a / 128 % 2), (PLT_ERR_LOC0_CW, a / 64 % 2),
       (PLT_ERR_LOC1_NSYM, nsym), (PLT_ERR_LOC1_SYMBOL, sym)]

/-- ERR_LOC of the SRM page (R224). -/
def sramErrLoc (s : State) (c a nsym sym : Nat) : State :=
  if smHas s.sramCodes.loc c then s
  else
    let s := { s with sramCodes := { s.sramCodes with loc := smInsert s.sramCodes.loc c () } }
    s.setFlds (pgSrm c)
      [(SRM_ERR_LOC_SYMBOL, sym), (SRM_ERR_LOC_NSYM, nsym), (SRM_ERR_LOC_LINE, natBits (a - sramOf c) 19 5)]

/-- Key of the lane that carries symbol `sym` of the codeword at `a`, in its channel (R210, R219). -/
def laneKey (f : Fuses) (a sym : Nat) : Nat :=
  let h := a / 64 % 2
  144 * (granuleChannel f (a / 256) % 64) + (if sym < 64 then 64 * h + sym else 128 + 8 * h + (sym - 64))

/-- A correction counts on its lane; reaching LANE_LIMIT loses the plate (R219). -/
def countLane (s : State) (k a sym : Nat) : State :=
  let p := s.plate k
  let key := laneKey s.fuses a sym
  let n := smGet 0 p.lanes key + 1
  let s := s.setPlate k { p with lanes := smSet 0 p.lanes key n }
  if s.fld (pgPlt k) PLT_LANE_CFG_LANE_LIMIT ≤ n then losePlate s k 3 (granuleChannel s.fuses (a / 256) % 64) else s

/-- The row of a granule opened in its bank, which counts an activate when another row was open (R200, R222). -/
def openRow (s : State) (g : Nat) : State :=
  let k := granuleChannel s.fuses g / 64
  let i := granuleIndex s.fuses g
  let p := s.plate k
  let key := 32 * (granuleChannel s.fuses g % 64) + indexBank i
  if smGet 0 p.rows key = indexRow i + 1 then s
  else (s.setPlate k { p with rows := smInsert p.rows key (indexRow i + 1) }).bump (pgPlt k) 5

/-- A write that arrives at a plate in a power state begins its wake and waits for it in its queue (R464). -/
def wakePlate (s : State) (k : Nat) : State :=
  if (s.plate k).power = 0 then s else s.setPlate k { s.plate k with waking := true }

/-- A read that arrives at a plate in a power state wakes it and waits until it is ready: the wait lies within the reading command, which
is served by an active plate (R464, log entry 124). -/
def awaitPlate (s : State) (k : Nat) : State :=
  if (s.plate k).power = 0 then s
  else (s.setPlate k { s.plate k with power := 0, waking := false }).setFld (pgPlt k) PG_LATTOL_STATE 0

/-- A granule read by its channel (R222). -/
def readGranule (s : State) (g : Nat) : State :=
  let k := granuleChannel s.fuses g / 64
  let s := openRow (awaitPlate s k) g
  let p := s.plate k
  (s.setPlate k { p with writing := smErase p.writing (granuleChannel s.fuses g % 64) }).bump (pgPlt k) 0

/-- A granule written by its channel; a channel that turns from reads to writes counts it (R202, R222). -/
def writeGranule (s : State) (g : Nat) : State :=
  let k := granuleChannel s.fuses g / 64
  let ch := granuleChannel s.fuses g % 64
  let s := openRow s g
  let p := s.plate k
  let s := if smHas p.writing ch then s else s.bump (pgPlt k) 4
  (s.setPlate k { s.plate k with writing := smInsert (s.plate k).writing ch () }).bump (pgPlt k) 1

/-- A write batch of a channel: its queue is served, oldest first, down to `level` granules (R202); a plate that is not active serves
nothing until it is ready (R464). -/
def serveWrites (s : State) (k ch level : Nat) : State :=
  if (s.plate k).power ≠ 0 then s
  else
    let q := smGet [] (s.plate k).wq ch
    let n := q.length - level
    (q.take n).foldl (fun s e => writeGranule s e.1) (s.setPlate k { s.plate k with wq := smSet [] (s.plate k).wq ch (q.drop n) })

/-- The write-back of a codeword that waits is dropped: a write to the codeword has reached the controller (R213). -/
def dropBack (s : State) (a : Nat) : State :=
  let k := plateOf s.fuses a
  let ch := granuleChannel s.fuses (a / 256) % 64
  s.setPlate k { s.plate k with wq := smMod [] (s.plate k).wq ch (·.filter (fun e => e.2 != some (a / 64))) }

/-- A write enters its channel's queue; the level WR_HI starts a batch (R202). `back` names the codeword of a write-back. -/
def queueWrite (s : State) (a : Nat) (back : Option Nat := none) : State :=
  let k := plateOf s.fuses a
  let ch := granuleChannel s.fuses (a / 256) % 64
  if s.flag (pgPlt k) PLT_PSTAT_LOST then s
  else
    let s := wakePlate s k
    let q := smGet [] (s.plate k).wq ch ++ [(a / 256, back)]
    let s := s.setPlate k { s.plate k with wq := smSet [] (s.plate k).wq ch q }
    if s.fld (pgPlt k) PLT_PCFG_WR_HI ≤ q.length then serveWrites s k ch (s.fld (pgPlt k) PLT_PCFG_WR_LO) else s

/-- A plate that has become ready serves the channels whose queues have reached WR_HI (R202, R464). -/
def serveFull (s : State) (k : Nat) : State :=
  (((s.plate k).wq.filter (fun e => decide (s.fld (pgPlt k) PLT_PCFG_WR_HI ≤ e.2.length))).map (·.1)).foldl
    (fun s ch => serveWrites s k ch (s.fld (pgPlt k) PLT_PCFG_WR_LO)) s

/-- With no read waiting, a plate's channels serve their writes (R202, log entry 98). -/
def drainWrites (s : State) (k : Nat) : State :=
  ((s.plate k).wq.map (·.1)).foldl (fun s ch => serveWrites s k ch (s.fld (pgPlt k) PLT_PCFG_WR_LO)) s

/-- Which codeword store an offset belongs to, and its codeword number. -/
def State.codes (s : State) (a : Nat) : Codes := if isSram a then s.sramCodes else s.plateCodes
def cwNum (a : Nat) : Nat := if isSram a then (a - sramBase) / 32 else a / 64
def cwSize (a : Nat) : Nat := if isSram a then 32 else 64
def State.setCodes (s : State) (a : Nat) (c : Codes) : State :=
  if isSram a then { s with sramCodes := c } else { s with plateCodes := c }

/-- Is the codeword of the offset poisoned. -/
def State.poisonedAt (s : State) (a : Nat) : Bool := smHas (s.codes a).pois (cwNum a)

/-- The codeword of the offset marked poisoned or clean, its stored symbols good again. -/
def State.markCw (s : State) (a : Nat) (pois : Bool) : State :=
  let c := s.codes a
  s.setCodes a { c with
    pois := if pois then smInsert c.pois (cwNum a) () else smErase c.pois (cwNum a)
    errs := smErase c.errs (cwNum a) }

/-- The errors of the codeword of the offset. -/
def State.cwErrs (s : State) (a : Nat) : SMap Nat := smGet [] (s.codes a).errs (cwNum a)

/-- The errors of the codeword of the offset replaced. -/
def State.setErrs (s : State) (a : Nat) (l : SMap Nat) : State :=
  let c := s.codes a
  s.setCodes a { c with errs := smSet [] c.errs (cwNum a) l }

/-- Errors laid over errors: differences of one symbol combine, and none remains where they cancel. -/
def addErrs (e : SMap Nat) (l : List (Nat × Nat)) : SMap Nat := l.foldl (fun e x => smMod 0 e x.1 (· ^^^ x.2)) e

/-- A new error as symbol and difference. -/
def SymErr.pair (e : SymErr) : Nat × Nat := (e.sym, e.flip.toNat)

/-- Data symbols of a codeword of the offset's memory: one a byte (R210, R214). -/
def cwBase (a : Nat) : Nat := a - a % cwSize a

/-- The poison pattern on the check symbols (R212). -/
def poisonPattern : List Nat := [0x5A, 0x3C, 0x96, 0xE1, 0x2D, 0xC3, 0x78, 0x0F]

/-- The poison syndrome S_P (R212). -/
def poisonSyndrome : List Nat := memRs.syndromes poisonPattern

/-- The symbols the codeword of the offset holds when its errors are `e`: the data bytes and their check symbols, the poison
pattern upon these where it is poisoned, and the errors (R210, R212). -/
def storedWord (s : State) (a : Nat) (e : SMap Nat) : List Nat :=
  let data := (memBytes s.mem (cwBase a) (cwSize a)).map (·.toNat)
  let chk := memRs.encode data
  let chk := if s.poisonedAt a then xorLists chk poisonPattern else chk
  (data ++ chk).mapIdx (fun i x => x ^^^ smGet 0 e i)

/-- The codeword of the offset described anew: its data, its poison mark and its errors. -/
def State.putCw (s : State) (a : Nat) (data : List Nat) (pois : Bool) (e : SMap Nat) : State :=
  ({ s with mem := memStore s.mem (cwBase a) (data.map (BitVec.ofNat 8)) }.markCw a pois).setErrs a e

/-- A corrected codeword: the record and the counters. A plate writes it back (R213); an SRAM line waits for its bank's
next free cycle (R216). -/
def corrected (s : State) (a : Nat) (syms : List Nat) : State :=
  if isSram a then
    let c := sramCore a
    let s := sramErrLoc s c a syms.length (syms.headD 0)
    let s := errOcc s (pgSrm c) 0 0
    let s := s.bump (pgSrm c) 0
    s.modCore c (fun x => { x with wback := smInsert x.wback ((a - sramOf c) / 32) () })
  else
    let k := plateOf s.fuses a
    let s := plateErrLoc s k a syms.length (syms.headD 0)
    let s := errOcc s (pgPlt k) 0 0
    let s := s.bumpBy (pgPlt k) 2 syms.length
    queueWrite ((syms.foldl (fun s y => countLane s k a y) s).setErrs a []) a (some (a / 64))

/-- An uncorrectable codeword: its place and its count; the occurrence is the caller's. -/
def uncorrectable (s : State) (a : Nat) : State :=
  if isSram a then (sramErrLoc s (sramCore a) a 0 0).bump (pgSrm (sramCore a)) 1
  else (plateErrLoc s (plateOf s.fuses a) a 0xFF 0).bump (pgPlt (plateOf s.fuses a)) 3

/-- A codeword's symbols decoded (R211, R212): with the syndrome of the poison pattern it is poisoned; up to three errors are
corrected, which may be a miscorrection where there are six or more, a poisoned word with three or more further errors among them (log
entry 6); else it is uncorrectable. `inj` are the check
symbols that an injection inverts for this check alone. -/
def decodeWord (s : State) (a : Nat) (inj : List (Nat × Nat)) : CwRead × State :=
  let n := cwSize a
  let w := storedWord s a (addErrs (s.cwErrs a) inj)
  let syn := memRs.syndromes w
  if syn = poisonSyndrome then (.poisoned, s.putCw a (w.take n) true [])
  else match memRs.decode (n + 8) syn with
    | .clean => (.ok, s.putCw a (w.take n) false [])
    | .failed => (.uncorr, uncorrectable s a)
    | .fixed l =>
      let data := (w.take n).mapIdx (fun i x => x ^^^ smGet 0 (addErrs [] l) i)
      let s := corrected (s.putCw a data false (addErrs (addErrs [] l) inj)) a (l.map (·.1))
      -- the correction that takes a lane to its limit loses the plate with the read outstanding (R219)
      if !isSram a && s.flag (pgPlt (plateOf s.fuses a)) PLT_PSTAT_LOST then (.uncorr, s) else (.ok, s)

/-- The read of a codeword (R211): `extra` are errors that this read finds new in it, `srcs` the sources whose injection
applies. A codeword without errors needs no decoder: its syndrome is 0, or S_P where it is poisoned. A line held in a merge buffer
is read from the buffer (R215). Occurrences of uncorrectable words are the caller's. -/
def decodeCw (s : State) (a : Nat) (extra : List (Nat × Nat)) (srcs : List Nat) : CwRead × State :=
  let page := if isSram a then pgSrm (sramCore a) else pgPlt (plateOf s.fuses a)
  if !isSram a && s.flag page PLT_PSTAT_LOST then (.uncorr, s)
  else if isSram a && (s.core (sramCore a)).merge.contains ((a - sramOf (sramCore a)) / 32) then
    (if s.poisonedAt a then .poisoned else .ok, s)
  else
    let (nInj, s) := takeInjection s page srcs
    let inj := (List.range nInj).map (fun i => (cwSize a + i, 0xFF))
    let e := addErrs (s.cwErrs a) (extra.filter (fun x => decide (x.1 < cwSize a + 8)))
    if e = [] ∧ inj = [] then (if s.poisonedAt a then .poisoned else .ok, s)
    else decodeWord (s.setErrs a e) a inj

/-! ### Ranges -/

/-- A range cut at every boundary of `unit` bytes. The first argument bounds the number of pieces. -/
def cutRange (unit : Nat) : Nat → Nat → Nat → List (Nat × Nat)
  | 0, _, _ => []
  | f + 1, a, n =>
    if n = 0 then []
    else
      let k := min n (unit - a % unit)
      (a, k) :: cutRange unit f (a + k) (n - k)

/-- Codeword pieces of a range. -/
def cwPieces (a n : Nat) : List (Nat × Nat) := cutRange (cwSize a) (n + 1) a n

/-- A stream read: the bytes, the words that failed, and the poisoned words passed over under POISON_PASS, in stream
order. -/
structure Rd where
  bytes : List Byte
  bad : List RdFail
  soft : List RdFail
deriving DecidableEq, Repr

/-- One codeword piece of a demand read. Under POISON_PASS a poisoned word is read with its stored bits (R147). After a failing
word no further input is used (R146): its bytes stand as zeros, for their number. -/
def readPiece (pp : Bool) (x : Rd × State) (a n : Nat) : Rd × State :=
  let (r, s) := x
  if !r.bad.isEmpty then ({ r with bytes := r.bytes ++ List.replicate n 0 }, s)
  else
    let (d, s) := decodeCw s a [] [0, 1]
    let page := if isSram a then pgSrm (sramCore a) else pgPlt (plateOf s.fuses a)
    -- a lost plate returns zeros (R219)
    let bs := if !isSram a && s.flag page PLT_PSTAT_LOST then List.replicate n 0 else memBytes s.mem a n
    let pos := r.bytes.length
    let r := { r with bytes := r.bytes ++ bs }
    match d with
    | .ok => (r, s)
    | .poisoned =>
      if pp then ({ r with soft := r.soft ++ [⟨pos, n, 1, none⟩] }, s)
      else ({ r with bad := r.bad ++ [⟨pos, n, 1, none⟩] }, s)
    | .uncorr => ({ r with bad := r.bad ++ [⟨pos, n, 4, some (page, 1)⟩] }, s)

/-- One granule's part of a run, codeword by codeword; a plate's channel reads the granule. -/
def readGroup (pp : Bool) (x : Rd × State) (a n : Nat) : Rd × State :=
  let s := if isSram a || !x.1.bad.isEmpty then x.2 else readGranule x.2 (a / 256)
  (cwPieces a n).foldl (fun x p => readPiece pp x p.1 p.2) (x.1, s)

/-- One read after another. -/
def Rd.append (x y : Rd) : Rd :=
  let at_ (f : RdFail) : RdFail := { f with pos := f.pos + x.bytes.length }
  ⟨x.bytes ++ y.bytes, x.bad ++ y.bad.map at_, x.soft ++ y.soft.map at_⟩

/-- A range read with every codeword judged for itself: one that fails leaves the others their bytes. -/
def readEach (pp : Bool) (a n : Nat) (s : State) : Rd × State :=
  (cutRange 256 (n + 1) a n).foldl (fun x g =>
    let s := if isSram g.1 then x.2 else readGranule x.2 (g.1 / 256)
    (cwPieces g.1 g.2).foldl (fun x p =>
      let (y, s) := readPiece pp (⟨[], [], []⟩, x.2) p.1 p.2
      (x.1.append y, s)) (x.1, s)) (⟨[], [], []⟩, s)

/-- A run of a stream read, granule by granule. -/
def readRun (pp : Bool) (x : Rd × State) (a n : Nat) : Rd × State :=
  (cutRange 256 (n + 1) a n).foldl (fun x g => readGroup pp x g.1 g.2) x

/-- A stream read, as a list of runs. -/
def readRuns (pp : Bool) (runs : List Run) (s : State) : Rd × State :=
  runs.foldl (fun x r =>
    match r.1 with
    | some a => readRun pp x a r.2
    | none => ({ x.1 with bytes := x.1.bytes ++ List.replicate r.2 0 }, x.2)) (⟨[], [], []⟩, s)

/-- Merge buffers of a bank: a partial write to a line puts it into one of the bank's four buffers, the oldest line of
the bank leaving when all four are taken (R215, log entry 7). -/
def mergeLine (m : List Nat) (line : Nat) : List Nat :=
  if m.contains line then m
  else
    let same := m.filter (fun l => sramBank (32 * l) == sramBank (32 * line))
    let m := if 4 ≤ same.length then dropFirst (fun l => sramBank (32 * l) == sramBank (32 * line)) m else m
    m ++ [line]

/-- One codeword piece of a combined write (R209, R212, R213, R215): a whole codeword is replaced; a part is merged into
what the codeword holds, and a merge into a poisoned or uncorrectable codeword leaves it poisoned. -/
def writePiece (s : State) (a : Nat) (bs : List Byte) (pois : Bool) : State :=
  let sram := isSram a
  let c := sramCore a
  let k := plateOf s.fuses a
  if !sram && s.flag (pgPlt k) PLT_PSTAT_LOST then s
  else
    let line := (a - sramOf c) / 32
    let drop (s : State) : State :=
      if sram then s.modCore c (fun x => { x with wback := smErase x.wback line })
      else dropBack s a
    if bs.length = cwSize a then
      let s := drop ({ s with mem := memStore s.mem a bs }.markCw a pois)
      if sram then s.modCore c (fun x => { x with merge := x.merge.filter (· != line) }) else s
    else
      -- on a plate the channel pays one read, one write and their turnaround (R209)
      let s := if sram then s else readGranule s (a / 256)
      let (d, s) := decodeCw s a [] (if sram then [0, 3] else [0, 5])
      -- a plate that the read's own correction loses discards the write (R219)
      if !sram && s.flag (pgPlt k) PLT_PSTAT_LOST then s else
      let s := if sram then s else writeGranule s (a / 256)
      let s := { s with mem := memStore s.mem a bs }
      let s := match d with
        | .ok => drop (s.markCw a pois)
        | .poisoned => drop (s.markCw a true)
        | .uncorr =>
          let s := if sram then errOcc s (pgSrm c) 3 0 else errOcc s (pgPlt k) 5 0
          drop (s.markCw a true)
      if sram then s.modCore c (fun x => { x with merge := mergeLine x.merge line })
      else s.bump (pgPlt k) 7

/-- A combined write of consecutive bytes within one aligned 256-byte block (R209): its whole codewords enter the channel's
write queue as one granule, a part of a codeword is performed at once. -/
def writeBlock (s : State) (a : Nat) (bs : List Byte) (pois : Bool) : State :=
  let s := if isSram a || (cwPieces a bs.length).all (fun p => p.2 != cwSize a) then s else queueWrite s a
  (cwPieces a bs.length).foldl (fun s p => writePiece s p.1 ((bs.drop (p.1 - a)).take p.2) pois) s

/-- Consecutive bytes written from `a` up, in blocks of at most 256 aligned bytes (R209). -/
def writeRange (s : State) (a : Nat) (bs : List Byte) (pois : Bool) : State :=
  (cutRange 256 (bs.length + 1) a bs.length).foldl (fun s p => writeBlock s p.1 ((bs.drop (p.1 - a)).take p.2) pois) s

/-- Adjoining runs of a stream combined (R209). -/
def combineRuns : List Run → List Run
  | [] => []
  | (a, n) :: rest =>
    match combineRuns rest with
    | [] => [(a, n)]
    | (b, m) :: t => if a.isSome && a.map (· + n) == b then (a, n + m) :: t else (a, n) :: (b, m) :: t

/-- A stream write: the bytes of `bs` to the runs in order; a run without an address takes its bytes nowhere. -/
def writeRuns : List Run → List Byte → Bool → State → State
  | [], _, _, s => s
  | (a, n) :: rest, bs, pois, s =>
    writeRuns rest (bs.drop n) pois
      (match a with
       | some a => writeRange s a (bs.take n) pois
       | none => s)

/-- Every byte of the runs takes the poison marking, its data kept (R144). -/
def poisonRuns (runs : List Run) (s : State) : State :=
  runs.foldl (fun s r =>
    match r.1 with
    | some a => (cwPieces a r.2).foldl (fun s p => s.markCw p.1 true) s
    | none => s) s

end Sys2Proof.Machine
end

