-- ==== Sys2Proof/Machine/Operands.lean ====
section
/-!
DEFINITION. Descriptors, operand references and address patterns: their fields (R107 to R112, R124), the checks made at the fetch
(R114), the streams a pattern stands for (R125, R126) and its bounding range (R127).
-/

namespace Sys2Proof.Machine

/-! ### This device -/

/-- Does a device number name this device (R309). -/
def State.isOwn (s : State) (dev : Nat) : Bool :=
  dev == 0x3FFF || (s.flag pgMbr MBR_DEVNUM_VALID && dev == s.fld pgMbr MBR_DEVNUM_NUMBER)

/-! ### Descriptor fields (R107 to R111) -/

def descOpcode (d : List Byte) : Nat := leAt d 0 1
def descClass (d : List Byte) : Nat := natBits (leAt d 1 1) 7 5
def descInst (d : List Byte) : Nat := natBits (leAt d 1 1) 4 0
def descCtl (d : List Byte) : Nat := leAt d 2 2
def descTag (d : List Byte) : Nat := leAt d 4 2
def descCounts (d : List Byte) : Nat := leAt d 6 2
def ctlRingOrder (d : List Byte) : Bool := (descCtl d).testBit 6
def ctlBrk (d : List Byte) : Bool := (descCtl d).testBit 5
def ctlRec (d : List Byte) : Bool := (descCtl d).testBit 4
def ctlPoisonPass (d : List Byte) : Bool := (descCtl d).testBit 3
def ctlShadeOk (d : List Byte) : Bool := (descCtl d).testBit 2
def ctlIrqDone (d : List Byte) : Bool := (descCtl d).testBit 1
def ctlFenceOut (d : List Byte) : Bool := (descCtl d).testBit 0
def descNWait (d : List Byte) : Nat := natBits (descCounts d) 2 0
def descNSig (d : List Byte) : Nat := natBits (descCounts d) 4 3
/-- Wait entry i: FLAG in [11:0], THRESH in [31:12] (R110). -/
def descWait (d : List Byte) (i : Nat) : Nat := leAt d (8 + 4 * i) 4
/-- Signal entry i (R111). -/
def descSig (d : List Byte) (i : Nat) : Nat := leAt d (24 + 8 * i) 8
/-- Operand reference i. -/
def descOp (d : List Byte) (i : Nat) : Nat := leAt d (40 + 8 * i) 8

/-- The wait entries in use; none when NWAIT is reserved (R114). -/
def descWaits (d : List Byte) : List Nat :=
  if descNWait d ≤ 4 then (List.range (descNWait d)).map (descWait d) else []

/-- The signal entries in use. -/
def descSigs (d : List Byte) : List Nat := (List.range (descNSig d)).map (descSig d)

/-- The null reference (R112). -/
def nullRef : Nat := 0xFFFFFFFFFFFFFFFF

/-- The forms of an operand reference (R112). -/
inductive OpRef where
  | null
  | pat (idx : Nat) (disp : Int) (param : Nat)
  | dir (addr : Nat)
deriving DecidableEq, Repr

/-- The form of a reference (R112). -/
def opRef (x : Nat) : OpRef :=
  if x = nullRef then .null
  else if natBits x 63 62 = 3 then .pat (natBits x 61 52) (sext 32 (natBits x 51 20)) (natBits x 19 0)
  else .dir x

/-- PARAM of a slot: a pattern's field; 0xF_FFFF for the null reference; 0 for a direct address. -/
def opParam (d : List Byte) (i : Nat) : Nat :=
  match opRef (descOp d i) with
  | .pat _ _ p => p
  | .null => 0xFFFFF
  | .dir _ => 0

def isPat (d : List Byte) (i : Nat) : Bool :=
  match opRef (descOp d i) with
  | .pat .. => true
  | _ => false

def isNull (d : List Byte) (i : Nat) : Bool := descOp d i == nullRef

/-- Displacement of a pattern slot. -/
def opDisp (d : List Byte) (i : Nat) : Int :=
  match opRef (descOp d i) with
  | .pat _ x _ => x
  | _ => 0

/-! ### Fabric addresses (R308) -/

def faSpace (a : Nat) : Nat := natBits a 63 62
def faDev (a : Nat) : Nat := natBits a 61 48
def faOff (a : Nat) : Nat := natBits a 47 0
/-- A fabric address from its fields. -/
def mkFa (space dev off : Nat) : Nat := 2 ^ 62 * space + 2 ^ 48 * dev + off

/-! ### Pattern entries (R124) -/

def patBase (e : List Byte) : Nat := leAt e 0 8
def patOfmt (e : List Byte) : Nat := leAt e 8 1
def patFmt (e : List Byte) : Nat := natBits (patOfmt e) 3 0
def patSparse (e : List Byte) : Bool := (patOfmt e).testBit 4
def patComp (e : List Byte) : Bool := (patOfmt e).testBit 5
def patNLoop (e : List Byte) : Nat := leAt e 9 1
def patRun (e : List Byte) : Nat := leAt e 10 2
def patIndLvl (e : List Byte) : Nat := leAt e 12 1
def patCount (e : List Byte) (j : Nat) : Nat := leAt e (16 + 6 * j) 2
def patStride (e : List Byte) (j : Nat) : Int := sext 32 (leAt e (18 + 6 * j) 4)
def patIndAddr (e : List Byte) : Nat := leAt e 48 8
def patIScale (e : List Byte) : Nat := leAt e 56 4
def patIndLimit (e : List Byte) : Nat := leAt e 60 4

/-- Loops in use, numbered from the innermost. -/
def patLoops (e : List Byte) : List Nat := List.range (min (patNLoop e) 5)

/-- Is loop j the indirect one. -/
def patIsInd (e : List Byte) (j : Nat) : Bool := patIndLvl e == j + 1

/-- Stream length: RUN times every COUNT in use (R125). -/
def patLen (e : List Byte) : Nat := (patLoops e).foldl (fun n j => n * patCount e j) (patRun e)

/-- First byte of an entry that holds a reserved encoding: SPACE 0b11 in BASE, or in IND_ADDR where it is used (R308), the codes
of R75 and R124, and the bytes that are 0. -/
def patBad (e : List Byte) : Option Nat :=
  let checks : List (Nat × Bool) :=
    [(7, faSpace (patBase e) == 3), (8, patOfmt e ≥ 64 || patFmt e == 15), (9, patNLoop e > 5), (10, patRun e == 0),
     (12, patIndLvl e > 5),
     (13, leAt e 13 1 != 0), (14, leAt e 14 1 != 0), (15, leAt e 15 1 != 0)]
    ++ (patLoops e).map (fun j => (16 + 6 * j, patCount e j == 0))
    ++ [(46, leAt e 46 1 != 0), (47, leAt e 47 1 != 0), (55, patIndLvl e != 0 && faSpace (patIndAddr e) == 3)]
  (checks.find? (·.2)).map (·.1)

/-- Bounding range of a pattern with a displacement: first and last local byte, none where the offset leaves 0 to
2^48 − 1 (R127). -/
def patBounds (e : List Byte) (disp : Int) : Option (Nat × Nat) :=
  let b : Int := (faOff (patBase e) : Int) + disp
  let lh := (patLoops e).foldl (fun (lh : Int × Int) j =>
    if patIsInd e j then (lh.1, lh.2 + patIndLimit e * patIScale e)
    else
      let t : Int := ((patCount e j : Int) - 1) * patStride e j
      (lh.1 + min 0 t, lh.2 + max 0 t)) (b, b)
  let hi := lh.2 + patRun e - 1
  if lh.1 < 0 ∨ hi ≥ 2 ^ 48 then none else some (lh.1.toNat, hi.toNat)

/-- One term of the address sum of R125: an offset, an iteration that emits zeros, or one that fails. -/
inductive Term where
  | off (o : Int)
  | zero
  | bad (status : Nat) (src : Option (Nat × Nat))
deriving DecidableEq, Repr

def Term.add : Term → Term → Term
  | .bad s x, _ => .bad s x
  | _, .bad s x => .bad s x
  | .zero, _ => .zero
  | _, .zero => .zero
  | .off a, .off b => .off (a + b)

/-- All address sums in nesting order, loops given from the outermost. -/
def termSums : List (List Term) → List Term
  | [] => [.off 0]
  | ts :: rest => ts.flatMap (fun t => (termSums rest).map (fun u => t.add u))

/-- The affine terms of loop j. -/
def affineTerms (e : List Byte) (j : Nat) : List Term :=
  (List.range (patCount e j)).map (fun (i : Nat) => .off (((i : Nat) : Int) * patStride e j))

/-- A word of an index list: its value, or the status of a poisoned or uncorrectable word (R126). Steering words are
never used with their stored bits when poisoned. -/
def readIndexWord (s : State) (a : Nat) : Term × State :=
  if !rangeExists s.fuses a 4 then (.bad 3 none, s)
  else
    let (r, s) := readRun false (⟨[], [], []⟩, s) a 4
    match r.bad with
    | f :: _ => (.bad f.status f.src, s)
    | [] => (.off (leNat r.bytes), s)

/-- Index words i to i + n − 1 of a list at local offset `a`, stopping at the first that fails. -/
def readIndices : Nat → Nat → Nat → State → List Term × State
  | 0, _, _, s => ([], s)
  | n + 1, a, i, s =>
    let (t, s) := readIndexWord s (a + 4 + 4 * i)
    match t with
    | .bad st x => ([.bad st x], s)
    | t =>
      let (ts, s) := readIndices n a (i + 1) s
      (t :: ts, s)

/-- The first word of an index list (R126). A list that IND_ADDR places on another device or in another space than memory cannot be
read: ADDR_FAULT (log entry 99). -/
def readCountWord (s : State) (fa : Nat) : Term × State :=
  if faSpace fa == 0 && s.isOwn (faDev fa) then readIndexWord s (faOff fa) else (.bad 3 none, s)

/-- The terms of the indirect loop (R126): list count L against COUNT, each index against IND_LIMIT. -/
def indirectTerms (e : List Byte) (j : Nat) (s : State) : List Term × State :=
  let a := faOff (patIndAddr e)
  let n := patCount e j
  let (c, s) := readCountWord s (patIndAddr e)
  match c with
  | .off l =>
    if (n : Int) < l then (List.replicate n (.bad 3 none), s)
    else
      let (ts, s) := readIndices l.toNat a 0 s
      let ts := ts.map (fun t =>
        match t with
        | .off x => if (patIndLimit e : Int) < x then .bad 3 none else .off (x * patIScale e)
        | t => t)
      (ts ++ List.replicate (n - ts.length) (if ts.length < l.toNat then .bad 3 none else .zero), s)
  | t => (List.replicate n t, s)

/-- The terms of every loop, outermost first. -/
def patTerms (e : List Byte) : List Nat → State → List (List Term) × State
  | [], s => ([], s)
  | j :: js, s =>
    let (ts, s) := if patIsInd e j then indirectTerms e j s else (affineTerms e j, s)
    let (rest, s) := patTerms e js s
    (ts :: rest, s)

/-- A stream: its runs up to a failure of the expansion, and that failure: byte position, status and source. -/
structure Stream where
  runs : List Run
  fail : Option RdFail
deriving DecidableEq, Repr

/-- Runs of a list of address sums, up to the first that fails. -/
def sumRuns (base : Int) (run : Nat) : Nat → List Term → Stream
  | _, [] => ⟨[], none⟩
  | pos, .bad st x :: _ => ⟨[], some ⟨pos, run, st, x⟩⟩
  | pos, .zero :: ts =>
    let r := sumRuns base run (pos + run) ts
    { r with runs := (none, run) :: r.runs }
  | pos, .off o :: ts =>
    let r := sumRuns base run (pos + run) ts
    { r with runs := (some (base + o).toNat, run) :: r.runs }

/-- The stream a pattern entry stands for, with a displacement (R125, R126), as local offsets. -/
def patStream (e : List Byte) (disp : Int) (s : State) : Stream × State :=
  let (ts, s) := patTerms e (patLoops e).reverse s
  (sumRuns ((faOff (patBase e) : Int) + disp) (patRun e) 0 (termSums ts), s)

/-! ### Formats (R70 to R75) -/

/-- Is a format code a Microscaling format. -/
def isMx (f : Nat) : Bool := decide (7 ≤ f) && decide (f ≤ 12)

/-- Bits of an element of a format code. -/
def elemBits : Nat → Nat
  | 0 => 32 | 1 => 16 | 2 => 8 | 3 => 8 | 4 => 8 | 5 => 32 | 6 => 4 | 7 => 8 | 8 => 8 | 9 => 6 | 10 => 6 | 11 => 4
  | 12 => 8 | _ => 64

/-- `n` rounded up to a multiple of `m`. -/
def roundUp (n m : Nat) : Nat := (n + m - 1) / m * m

/-- Bytes of a row of `l` elements: a row record for a Microscaling format (R78), else packed elements. -/
def rowBytes (f l : Nat) : Nat :=
  if isMx f then roundUp (l / 32) 16 + roundUp (l * elemBits f / 8) 16 else l * elemBits f / 8

/-- The row length of the Microscaling row record of `run` bytes (R78), if one has that length. -/
def rowOfRun (f run : Nat) : Option Nat :=
  ((List.range (run / 4 + 1)).map (fun k => 32 * (k + 1))).find? (fun l => rowBytes f l == run)

/-- Number of elements of a vector operand's stream (R78, R119); none where it holds no whole number. -/
def elemCount (e : List Byte) : Option Nat :=
  let f := patFmt e
  if isMx f then (rowOfRun f (patRun e)).map (fun l => l * (patLen e / patRun e))
  else
    let b := elemBits f / 8
    if b = 0 ∨ patLen e % b ≠ 0 then none else some (patLen e / b)

/-- The mode of an array command by the formats of R37: 0 BF16, 1 FP8, 2 FP4, 3 INT8. -/
def arrMode (sf wf : Nat) : Option Nat :=
  let fp8 := [2, 3, 7, 8, 9, 10]
  if sf = 1 ∧ wf = 1 then some 0
  else if fp8.contains sf && (fp8 ++ [6, 11]).contains wf then some 1
  else if [6, 11].contains sf && [6, 11].contains wf then some 2
  else if [4, 12].contains sf && [4, 12].contains wf then some 3
  else none

/-! ### Checks at the fetch (R114) -/

/-- Full-grade instances of a class (R113). -/
def classInstances : Nat → Nat
  | 0 => 6 | 1 => 1 | 2 => 2 | 3 => 1 | 4 => 32 | 5 => 8 | 6 => 16 | _ => 1

/-- Operand forms a slot may accept. -/
inductive Form where
  | p | d | n | i
deriving DecidableEq, Repr

/-- Class of an opcode and the forms its slots accept; none for a reserved opcode (R115 to R121, R182, R316, R325,
R342). NOP is valid with every class. -/
def opTable : Nat → Option (Nat × List (List Form))
  | 0x01 => some (7, [[.i], [.n], [.n]])
  | 0x02 => some (7, [[.d], [.i], [.n]])
  | 0x03 => some (7, [[.i], [.n], [.n]])
  | 0x10 => some (0, [[.p], [.p], [.p, .n]])
  | 0x20 => some (1, [[.p], [.p, .n], [.p]])
  | 0x21 => some (1, [[.p], [.n], [.p]])
  | 0x22 => some (1, [[.p], [.n], [.p]])
  | 0x23 => some (1, [[.p], [.p, .n], [.p]])
  | 0x24 => some (1, [[.p], [.n], [.p]])
  | 0x25 => some (1, [[.p], [.n], [.p]])
  | 0x26 => some (1, [[.p], [.n], [.n]])
  | 0x30 => some (2, [[.d, .p], [.d, .p], [.i]])
  | 0x31 => some (2, [[.i], [.d, .p], [.i]])
  | 0x32 => some (2, [[.d, .p], [.d, .p], [.i]])
  | 0x33 => some (2, [[.d, .p], [.d, .p], [.i]])
  | 0x34 => some (2, [[.d], [.d], [.i]])
  | 0x38 => some (3, [[.p], [.p], [.p]])
  | 0x40 => some (4, [[.d, .p], [.d, .p], [.i]])
  | 0x41 => some (4, [[.d, .p], [.d], [.i]])
  | 0x42 => some (4, [[.d], [.i], [.i]])
  | 0x50 | 0x51 | 0x52 | 0x53 | 0x54 | 0x55 => some (5, [[.d, .n], [.d, .n], [.i]])
  | 0x60 => some (6, [[.d, .p], [.n], [.n]])
  | 0x61 => some (6, [[.p], [.p], [.i]])
  | 0x62 => some (6, [[.p], [.p], [.i]])
  | 0x63 => some (6, [[.n], [.n], [.n]])
  | _ => none

/-- Forms of the slots of a descriptor's opcode in its class; none when the opcode is reserved or of another
class. -/
def slotForms (d : List Byte) : Option (List (List Form)) :=
  if descOpcode d = 0 then some [[.n], [.n], [.n]]
  else match opTable (descOpcode d) with
    | some (c, fs) => if c = descClass d then some fs else none
    | none => none

/-- The form of a reference as a slot that is not immediate sees it. -/
def refForm (x : Nat) : Form :=
  match opRef x with
  | .null => .n
  | .pat .. => .p
  | .dir _ => .d

/-- A check that failed: its place in the list of R114, the descriptor byte that ranks it, and its DETAIL
(R141, R547). -/
abbrev Chk := Nat × Nat × Nat

/-- The byte of the lowest bit of `x` that the mask keeps, from byte `b` up: a reserved bit that is set. Such a bit of an operand (a PARAM
bit, a bit of an immediate that is 0) is ranked with those of CTL and COUNTS (log entry 117). -/
def rsvByte (b x mask : Nat) : List Chk :=
  match (List.range 64).find? (fun i => (x &&& mask).testBit i) with
  | some i => [(2, b + i / 8, b + i / 8)]
  | none => []

def chkIf (c : Bool) (item byte : Nat) : List Chk := if c then [(item, byte, byte)] else []

/-- A failing byte of the pattern entry of slot `s`. -/
def chkPat (c : Bool) (item s b : Nat) : List Chk := if c then [(item, 40 + 8 * s, 0x200 + 64 * s + b)] else []

/-- A stream length of slot `s` that the opcode does not accept. -/
def chkLen (c : Bool) (s : Nat) : List Chk := if c then [(6, 40 + 8 * s, 0x300 + s)] else []

/-- CVT in OP2 (R75, R76): reserved bits, the reserved rounding, stochastic rounding on an array. -/
def chkCvt (d : List Byte) (array : Bool) : List Chk :=
  if isPat d 2 then
    rsvByte 56 (descOp d 2) 0xFE08 ++ chkIf (descOp d 2 % 4 == 3) 1 56 ++ chkIf (array && descOp d 2 % 4 == 2) 6 56
  else []

/-- Length of the stream of a pattern slot. -/
def slotLen (d : List Byte) (pats : List (Option (List Byte))) (i : Nat) : Option Nat :=
  if isPat d i then ((pats[i]?).join).map patLen else none

/-- LENGTH is 0 beside a pattern slot, and two pattern streams have equal lengths (R120). -/
def chkLengths (d : List Byte) (pats : List (Option (List Byte))) (slots : List Nat) : List Chk :=
  let ls := slots.filterMap (slotLen d pats)
  chkIf (!ls.isEmpty && descOp d 2 % 2 ^ 32 != 0) 6 56
    ++ (match ls with
        | [a, b] => chkLen (a != b) 1
        | _ => [])

def patAt (pats : List (Option (List Byte))) (i : Nat) : List Byte := ((pats[i]?).join).getD []
def hasPat (pats : List (Option (List Byte))) (i : Nat) : Bool := ((pats[i]?).join).isSome

/-- Does VEW take B from the local store (R119). -/
def vewLocal (d : List Byte) : Bool := descOpcode d == 0x20 && isPat d 1 && (opParam d 1).testBit 19

/-- Checks of the vector opcodes (R76, R119). PARAM bits that R119 does not name are judged reserved in OP0 and OP2 and not looked at
in OP1; an element count that is no multiple of n is charged to byte 40 (log entry 100). -/
def chkVec (d : List Byte) (pats : List (Option (List Byte))) : List Chk :=
  let op := descOpcode d
  let p := opParam d 0
  let fmts : List Chk := [0, 1, 2].flatMap (fun s =>
    if hasPat pats s then
      let f := patFmt (patAt pats s)
      chkPat (f == 6 || (s == 2 && isMx f != (op == 0x25)) || (s == 0 && op == 0x25 && f != 0 && f != 1)) 6 s 8
    else [])
  let n := if hasPat pats 0 then elemCount (patAt pats 0) else none
  let rsv (m : Nat) : List Chk := if isPat d 0 then rsvByte 40 (descOp d 0) m else []
  fmts
    ++ (if op = 0x20 then
          chkIf (isPat d 0 && p % 32 > 10) 1 40 ++ rsv 0xFFFE0 ++ chkIf (isNull d 1 && p % 32 != 6) 4 55
        else if op = 0x21 then chkIf (isPat d 0 && p % 8 > 5) 1 40 ++ rsv 0xFFFF8
        else if op = 0x22 then chkIf (isPat d 0 && p % 4 == 3) 1 40 ++ rsv 0x0000C
        else if op = 0x23 then rsv 0x0000F
        else if op = 0x26 then rsv 0xFFFC0
        else rsv 0xFFFFF)
    ++ (if op = 0x22 ∨ op = 0x23 then
          chkIf (n.any (fun n => n % (natBits p 19 4 + 1) != 0)) 6 40
        else [])
    ++ (if vewLocal d && hasPat pats 1 then
          let e := patAt pats 1
          let nb := (elemCount e).getD 0
          chkLen (256 * (opParam d 1 % 64) + patLen e > 16384 || nb == 0 || n.any (fun n => n % nb != 0)) 1
        else [])
    ++ (if op = 0x26 then [] else chkCvt d false ++ (if isPat d 2 then rsvByte 56 (descOp d 2) 0xF0000 else []))

/-- The opcode's own limits that a descriptor's fields show (R117 to R121, R182, R319, R325, R343). `own` says which device numbers
name this device (R309). Formats that R37 does not combine are charged to slot 1's OFMT (log entry 104). -/
def chkOpcode (own : Nat → Bool) (d : List Byte) (pats : List (Option (List Byte))) : List Chk :=
  let op := descOpcode d
  let all := nullRef
  let x0 := descOp d 0
  let x1 := descOp d 1
  let x2 := descOp d 2
  let rp (s m : Nat) : List Chk := if isPat d s then rsvByte (40 + 8 * s) (descOp d s) m else []
  if op = 0x01 then rsvByte 40 x0 0xFFFFE000
  else if op = 0x02 then rsvByte 48 x1 (all - 0xFFFF)
  else if op = 0x10 then
    let sf := patFmt (patAt pats 0)
    let wf := patFmt (patAt pats 1)
    rp 0 0xF0000 ++ chkIf (isPat d 0 && x0 % 65536 == 0) 6 40 ++ rp 1 0xFFC00
      ++ chkIf (isNull d 2 && isPat d 1 && x1.testBit 9) 4 63 ++ rp 2 0xF0000 ++ chkCvt d true
      ++ (if hasPat pats 0 && hasPat pats 1 then
            chkPat ((arrMode sf wf).isNone || (patComp (patAt pats 1) && wf == 1)) 6 1 8
          else [])
  else if 0x20 ≤ op ∧ op ≤ 0x26 then chkVec d pats
  else if op = 0x30 ∨ op = 0x32 then rsvByte 56 x2 (all - 0xFFFFFFFF) ++ chkLengths d pats [0, 1]
  else if op = 0x31 then rsvByte 56 x2 (all - 0xFFFFFFFF) ++ chkLengths d pats [1]
  else if op = 0x33 ∨ op = 0x40 then rsvByte 56 x2 (all - 0x1FFFFFFFF) ++ chkLengths d pats [0, 1]
  else if op = 0x34 then rsvByte 56 x2 (all - 0x3F) ++ chkIf (x2 % 16 > 10) 1 56
  else if op = 0x38 then
    rp 0 0xFFFFF ++ rp 1 0xFC000 ++ chkIf (isPat d 1 && natBits (opParam d 1) 12 10 > 5) 1 49
      ++ chkLen ((slotLen d pats 1).any (fun n => n != 8 && n != 16 && n != 24 && n != 32)) 1
  else if op = 0x41 then
    rsvByte 56 x2 (all - 0x1FFFFFFFFFF) ++ chkLengths d pats [0]
      ++ chkIf (refForm x1 == .d && (faSpace x1 != 0 || !own (faDev x1))) 6 54
  else if op = 0x42 then
    rsvByte 48 x1 (all - 0x3FFFF) ++ chkIf (natBits x1 17 16 > 1) 1 50 ++ rsvByte 56 x2 (all - 0x1FF)
      ++ chkIf (refForm x0 == .d && (faSpace x0 != 2 || !own (faDev x0))) 6 46
  else if 0x50 ≤ op ∧ op ≤ 0x55 then
    rsvByte 56 x2 0xC0000000 ++ chkIf (natBits x2 13 12 == 3 || natBits x2 11 8 == 15) 1 57
  else if op = 0x60 then rp 0 0xFFFFF
  else if op = 0x61 ∨ op = 0x62 then
    rp 0 0xFFFFF ++ rp 1 (if op = 0x61 then 0xFFFFF else 0xFFFFC)
      ++ chkIf (op == 0x62 && isPat d 1 && x1 % 4 == 3) 1 48
      ++ rsvByte 56 x2 (all - 0x1FFFFFFFF) ++ chkIf (!x2.testBit 32 && x2 % 2 ^ 32 != 0) 6 56
  else []

/-- FMT 0xD and 0xE are accepted only where their chapters name them (R76, R121, R177, R180, R182). -/
def fmtAccepted (op s f : Nat) : Bool :=
  [(0x61, 0, 0xD), (0x61, 1, 0xD), (0x62, 0, 0xD), (0x62, 1, 0xE), (0x38, 0, 0xE), (0x38, 1, 0xE)].contains (op, s, f)

/-- Checks of a slot's pattern entry (R76, R124): its encodings, and the limit of IND_LVL. -/
def chkEntry (d : List Byte) (pats : List (Option (List Byte))) (s : Nat) : List Chk :=
  match (pats[s]?).join with
  | none => []
  | some e =>
    (match patBad e with
     | some b => [(1, 40 + 8 * s, 0x200 + 64 * s + b)]
     | none => [])
      ++ chkPat (patIndLvl e ≤ 5 && patNLoop e < patIndLvl e) 6 s 12
      ++ chkPat ((patSparse e || patComp e) && !(descOpcode d == 0x10 && s == 1)) 6 s 8
      ++ chkPat ((patFmt e == 13 || patFmt e == 14) && !fmtAccepted (descOpcode d) s (patFmt e)) 6 s 8

/-- Checks of a slot's reference (R112, R114). -/
def chkSlot (d : List Byte) (count s : Nat) (forms : List Form) : List Chk :=
  let x := descOp d s
  if forms.contains .i then []
  else if !forms.contains (refForm x) then [(4, 40 + 8 * s + 7, 40 + 8 * s + 7)]
  else match opRef x with
    | .pat i _ _ => chkIf (count ≤ i || i == 1023) 5 (40 + 8 * s + 6)
    | _ => []

/-- Is a signal entry valid (R111). -/
def sigBad (x b : Nat) : List Chk :=
  let cf := natBits x 23 12
  chkIf (cf != 0xFFF && cf % 512 ≥ 288) 1 (b + 1) ++ chkIf (natBits x 55 54 > 1) 1 (b + 6)
    ++ chkIf (natBits x 63 56 != 0) 2 (b + 7)

def sigChecks (d : List Byte) : List Chk :=
  if descNSig d = 3 then [(1, 6, 6)]
  else (List.range (descNSig d)).flatMap (fun i => sigBad (descSig d i) (24 + 8 * i))

/-- Every check of R114, failed ones only. -/
def fetchChecks (own : Nat → Bool) (d : List Byte) (pats : List (Option (List Byte))) (count : Nat) : List Chk :=
  let op := descOpcode d
  chkIf (op != 0 && (opTable op).isNone) 1 0
    ++ chkIf (op != 0 && (opTable op).isSome && (slotForms d).isNone) 3 0
    ++ chkIf (classInstances (descClass d) ≤ descInst d) 1 1
    ++ rsvByte 2 (descCtl d) 0xFF80 ++ rsvByte 6 (descCounts d) 0xFFE0
    ++ chkIf (descNWait d > 4) 1 6 ++ sigChecks d
    ++ (match slotForms d with
        | none => []
        | some fs =>
          (List.range 3).flatMap (fun s => chkSlot d count s (fs.getD s []) ++ chkEntry d pats s)
            ++ chkOpcode own d pats)

/-- The order of R547 on failed checks. -/
def chkLt (a b : Chk) : Bool :=
  decide (a.1 < b.1) || (a.1 == b.1 && (decide (a.2.1 < b.2.1) || (a.2.1 == b.2.1 && decide (a.2.2 < b.2.2))))

/-- The fetch-time verdict: the DETAIL of the first failed check (R114, R547). -/
def fetchVerdict (own : Nat → Bool) (d : List Byte) (pats : List (Option (List Byte))) (count : Nat) : Option Nat :=
  match fetchChecks own d pats count with
  | [] => none
  | c :: cs => some (cs.foldl (fun m x => if chkLt x m then x else m) c).2.2

/-- Slots whose pattern entries the graver reads: pattern references below COUNT in slots that accept them. -/
def patSlots (d : List Byte) (count : Nat) : List (Option Nat) :=
  (List.range 3).map (fun s =>
    match slotForms d with
    | none => none
    | some fs =>
      if (fs.getD s []).contains .p then
        match opRef (descOp d s) with
        | .pat i _ _ => if i < count ∧ i ≠ 1023 then some i else none
        | _ => none
      else none)

end Sys2Proof.Machine
end

