-- ==== Sys2Proof/Machine/Flags.lean ====
section
/-!
DEFINITION. The flag store (R61, R137 to R140), the waits of the issue window, and the sending of packets and signals
(R139, R299, R311 to R313).
-/

namespace Sys2Proof.Machine

/-! ### This device and its peers -/

/-- The number this device sends as its own: 0x3FFF while it has none. -/
def State.ownDev (s : State) : Nat :=
  if s.flag pgMbr MBR_DEVNUM_VALID then s.fld pgMbr MBR_DEVNUM_NUMBER else 0x3FFF

/-- State code of a device number in the view (R371). -/
def State.viewOf (s : State) (dev : Nat) : Nat := smGet 0 s.mbr.view dev

/-- Is the device fenced in this device's view (R299). -/
def State.fenced (s : State) (dev : Nat) : Bool := s.viewOf dev == 4

/-- Has this device applied FENCE to its own number (R385). -/
def State.selfFenced (s : State) : Bool := s.flag pgMbr MBR_DEVNUM_VALID && s.fenced s.ownDev

/-- The DETAIL of FENCED_PEER for a packet to a device: 3 when this device is fenced itself, 1 when the destination is
(R299, R385). -/
def State.fencedDetail (s : State) (dev : Nat) : Option Nat :=
  if s.isOwn dev then none
  else if s.selfFenced then some 3
  else if s.fenced dev then some 1
  else none

/-- Is the device number a member of this device's sheet other than this device (R310). -/
def State.inSheet (s : State) (dev : Nat) : Bool :=
  s.flag pgMbr MBR_DEVNUM_VALID && !s.isOwn dev && dev / 32 == s.ownDev / 32

/-- Is the device in the fault state. -/
def State.inFault (s : State) : Bool := s.flag pgFlt FLT_FSTAT_FAULT

/-! ### The flag store -/

/-- Key of a flag. -/
def flagKey (c f : Nat) : Nat := 4096 * c + f

/-- A flag's counter and poison bit. -/
def State.flagVal (s : State) (c f : Nat) : Word := smGet 0 s.flags (flagKey c f)
def State.flagPois (s : State) (c f : Nat) : Bool := smHas s.fpois (flagKey c f)

def State.setFlagVal (s : State) (c f : Nat) (v : Word) : State := { s with flags := smSet 0 s.flags (flagKey c f) v }
def State.setFlagPois (s : State) (c f : Nat) (b : Bool) : State :=
  { s with fpois := if b then smInsert s.fpois (flagKey c f) () else smErase s.fpois (flagKey c f) }

/-- Is a wait with threshold T met by a counter (R138). -/
def reached (v : Word) (t : Nat) : Bool := decide ((v.toNat % 2 ^ 20 + (2 ^ 20 - t % 2 ^ 20)) % 2 ^ 20 < 2 ^ 19)

/-- The met marks of an entry's waits after looking at the flags; a met wait stays met (R138). -/
def metMarks (s : State) (c : Nat) (e : WinEntry) : List Bool :=
  (descWaits e.desc).mapIdx (fun i w => e.met.getD i false || reached (s.flagVal c (w % 4096)) (w / 4096))

/-- The graver evaluates the waits of every window entry (R61). -/
def evalWaits (s : State) (c : Nat) : State :=
  s.modCore c (fun x => { x with window := x.window.map (fun e => { e with met := metMarks s c e }) })

/-- A counter change in the flag store. A parity error found there sets the flag's poison bit (GRV source 5). -/
def changeFlag (s : State) (c f : Nat) (v : Word) : State :=
  let (inj, s) := takeCrcInjection s (pgGrv c) 5
  let s := s.setFlagVal c f v
  let s := if inj then errOcc (s.setFlagPois c f true) (pgGrv c) 5 0 else s
  evalWaits s c

/-- A signal's change (R111, R139): ADD or SET, with or without poison. -/
def applySignal (s : State) (c : Nat) (i : FlagInc) : State :=
  let v := if i.set then BitVec.ofNat 32 i.inc else s.flagVal c i.flag + BitVec.ofNat 32 i.inc
  changeFlag (if i.poison then s.setFlagPois c i.flag true else s) c i.flag v

/-- Increments held back for a later cycle, applied in the order in which they came (R61). -/
def drainIncs (s : State) (c : Nat) : State :=
  ((s.core c).finc).foldl (fun s i => applySignal s c i) (s.modCore c (fun x => { x with finc := [] }))

/-- A signal that reaches a core's flag store with `ahead` increments before it in the same cycle: the store takes four a
cycle, and a further one waits (R61). -/
def takeSignal (s : State) (c : Nat) (i : FlagInc) (ahead : Nat) : State :=
  if 4 ≤ ahead then s.modCore c (fun x => { x with finc := x.finc ++ [i] })
  else applySignal (drainIncs s c) c i

/-- A load of a flag counter (FLAG_SET and flag-space writes, R117, R137). -/
def loadFlag (s : State) (c f : Nat) (v : Word) (clear : Bool) : State :=
  let s := drainIncs s c
  changeFlag (if clear then s.setFlagPois c f false else s) c f v

/-- Is a flag local-only (R140). -/
def localOnly (s : State) (c f : Nat) : Bool := decide (f < s.fld (pgGrv c) GRV_GCTRL_LOCAL_LIMIT)

/-- A signal from outside the core: one to a local-only flag is discarded and recorded as GRV source 6 (R140). Mesh and fabric signals
share the four increments of a cycle with the core's own (R61); how many came before this one is left free. -/
def outsideSignal (s : State) (c : Nat) (i : FlagInc) : State :=
  if localOnly s c i.flag then errOcc s (pgGrv c) 6 0
  else
    let (ahead, s) := s.freeNat 5
    takeSignal s c i ahead

/-- The core and flag of a flag-space offset (R137); none where no core lies. -/
def flagOfOffset (off : Nat) : Option (Nat × Nat) :=
  let cf := off / 0x4000
  if cf / 512 < 8 ∧ cf % 512 < 288 then some (288 * (cf / 512) + cf % 512, off % 0x4000 / 4) else none

/-- The flag-space offset of a flag of core index `c` (R137). -/
def flagOffset (c f : Nat) : Nat := 0x4000 * ((512 * (c / 288) + c % 288)) + 4 * f

/-! ### Packets at their source -/

/-- A packet with every field but the named ones zero. -/
def mkPkt (kind dst src addr aux : Nat) (payload : List Byte) : Packet :=
  { kind := kind, flagged := false, poison := false, e2eRetx := false, dst := dst, src := src, addr := addr, seq := 0,
    aux := aux, rtag := 0, stage := 0, payload := payload }

def State.txDst (s : State) (d : Nat) : TxDst := smGet TxDst.init s.net.tx d
def State.setTxDst (s : State) (d : Nat) (x : TxDst) : State :=
  { s with net := { s.net with tx := smSet TxDst.init s.net.tx d x } }

/-- A packet joins the sequenced packets that wait at this source for their ESEQ (R293). -/
def sendSeq (s : State) (t : TxPkt) : State :=
  let x := s.txDst t.pkt.dst
  s.setTxDst t.pkt.dst { x with wait := x.wait ++ [t] }

/-! ### The sender's windows (R311 to R313) -/

/-- Permissions of R313. -/
inductive Perm where
  | r | w | a | s | t
deriving DecidableEq, Repr

def Window.grants (x : Window) : Perm → Bool
  | .r => x.r | .w => x.w | .a => x.a | .s => x.s | .t => x.t

/-- Does one entry pass an access of a device, a space and a byte range; `none` stands for every device of a tree. -/
def Window.passes (x : Window) (space : Nat) (dev : Option Nat) (lo hi : Nat) (p : Perm) : Bool :=
  x.space == space && x.grants p && decide (x.base ≤ lo) && decide (hi < x.base + 4096 * x.size)
    && (match dev with
        | some d => decide (x.devLo ≤ d) && decide (d ≤ x.devHi)
        | none => x.devLo == 0 && x.devHi == 0x3FFF)

/-- The check of core `c`'s graver (R312); a checker whose table failed parity denies every access until the next commit
(MEM source 4), which an injection can bring about (R439). -/
def windowCheck (s : State) (c space : Nat) (dev : Option Nat) (lo hi : Nat) (p : Perm) : Bool :=
  !smHas s.net.denied c && s.net.windows.any (fun x => x.passes space dev lo hi p)

/-- Does the XDMA engine's own checker let an access through: one whose table failed parity denies every access until the next
commit (MEM source 4, R314); a descriptor of another class passes no XDMA engine. -/
def engineChecker (s : State) (d : List Byte) : Bool :=
  descClass d != 4 || !smHas s.net.denied (2304 + descInst d)

/-- A window table parity check at a graver (MEM source 4). -/
def windowParity (s : State) (c : Nat) : State :=
  let (inj, s) := takeCrcInjection s pgMem 4
  if inj then
    errOcc { s with net := { s.net with denied := smInsert s.net.denied c () } } pgMem 4 0
  else s

/-! ### Signals of a descriptor -/

/-- Fields of a signal entry (R111). -/
def sigFlag (x : Nat) : Nat := natBits x 11 0
def sigDev (x : Nat) : Nat := natBits x 37 24
def sigCore (own x : Nat) : Nat :=
  let cf := natBits x 23 12
  if cf = 0xFFF then own else 288 * (cf / 512) + cf % 512
def sigInc (x : Nat) : Nat := natBits x 53 38
def sigSet (x : Nat) : Bool := natBits x 55 54 == 1

/-- The window check of one signal entry: a signal within this device needs none (R309, R313). -/
def sigAllowed (s : State) (c x : Nat) : Bool :=
  let off := flagOffset (sigCore c x) (sigFlag x)
  s.isOwn (sigDev x) || windowCheck s c 2 (some (sigDev x)) off (off + 3) .s

/-- The SIG packet of a signal entry (R282). -/
def sigPacket (s : State) (c x : Nat) (fence poison : Bool) : Packet :=
  { mkPkt 0x22 (sigDev x) s.ownDev (mkFa 2 (sigDev x) (flagOffset (sigCore c x) (sigFlag x)))
      (sigInc x + 0x10000 * natBits x 55 54) [] with flagged := fence, poison := poison }

/-- Is a signal sent: one to a fenced device is not (R299), nor one that the window table refuses (R311, log entry 16). -/
def sigSent (s : State) (c x : Nat) (checked : Bool) : Bool :=
  s.isOwn (sigDev x) || (!((s.fencedDetail (sigDev x)).isSome || s.inFault) && (checked || sigAllowed s c x))

/-- Does a signal entry name a flag of the sending core. -/
def sigHere (s : State) (c x : Nat) : Bool := s.isOwn (sigDev x) && sigCore c x == c

/-- One signal of a completing descriptor (R139). -/
def sendSignal (s : State) (c x : Nat) (fence poison checked : Bool) (ahead : Nat) : State :=
  if !sigSent s c x checked then s
  else if s.isOwn (sigDev x) then
    let i : FlagInc := ⟨sigFlag x, sigSet x, sigInc x, poison⟩
    if sigCore c x = c then takeSignal s c i ahead else outsideSignal s (sigCore c x) i
  else sendSeq s (mkTx (sigPacket s c x fence poison) .nobody [])

/-- The signals of a descriptor in entry order; those to this core's flags count against the four of its cycle (R61). -/
def sendSignals (s : State) (c : Nat) (d : List Byte) (poison checked : Bool) (ahead : Nat) : State :=
  ((descSigs d).foldl (fun (p : State × Nat) x =>
    (sendSignal p.1 c x (ctlFenceOut d) poison checked p.2, p.2 + (sigHere p.1 c x).toNat)) (s, ahead)).1

/-- The DETAIL of FENCED_PEER that a descriptor's signals bring (R299, R385). -/
def sigFence (s : State) (d : List Byte) : Option Nat :=
  ((descSigs d).filterMap (fun x => s.fencedDetail (sigDev x))).head?

end Sys2Proof.Machine
end

