-- ==== Sys2Proof/Machine/Ops.lean ====
section
/-!
DEFINITION. The shared operations of the graver: completion of a descriptor (R139, R141 to R144), readiness and choice of the entry to
issue (R135), the act of issuing (R145, R153), and the queues of a core's engines (R36).
-/

namespace Sys2Proof.Machine

/-- Fabric time in nanoseconds. -/
def timeNs (s : State) : Nat := 1000000000 * s.time.sec + s.time.ns

/-! ### Commands -/

def Cmd.none_ : Cmd :=
  { core := 0, ring := 0, idx := 0, desc := [], pats := [], sigOk := true, cls := 0, inst := 0, ran := false, status := 0,
    detail := 0, src := none, drained := 0, drainedOdd := 0, blocks := 0, left := 0, sent := 0,
    outs := [], stat := [], statFail := none, wts := [], wtsFail := none, wbuf := [], fed := 0, found := [], zero := false, cut := none, oruns := [], ofail := none, base := 0 }

def State.cmd (s : State) (id : Nat) : Cmd := smGet Cmd.none_ s.cmds id
def State.setCmd (s : State) (id : Nat) (x : Cmd) : State := { s with cmds := smInsert s.cmds id x }
def State.modCmd (s : State) (id : Nat) (f : Cmd → Cmd) : State :=
  if smHas s.cmds id then s.setCmd id (f (s.cmd id)) else s
def State.dropCmd (s : State) (id : Nat) : State := { s with cmds := smErase s.cmds id }

/-- A failure found while the command runs: the first one counts (R141); under POISON_PASS an uncorrectable word still
gives ECC_UNCORR after poison (R147). -/
def Cmd.failWith (x : Cmd) (status detail : Nat) (src : Option (Nat × Nat)) : Cmd :=
  if x.status = 0 ∨ (x.status = 1 ∧ status = 4 ∧ ctlPoisonPass x.desc) then
    { x with status := status, detail := detail, src := src }
  else x

/-- Failures of a command in the order given: status, DETAIL and source of each. -/
def Cmd.failAll (x : Cmd) (l : List (Nat × Nat × Option (Nat × Nat))) : Cmd :=
  l.foldl (fun x f => x.failWith f.1 f.2.1 f.2.2) x

/-! ### Completion -/

/-- A descriptor that completes: where it came from, its status, and whether its signals passed the window check. -/
structure Fin_ where
  core : Nat
  ring : Nat
  idx : Nat
  desc : List Byte
  sigOk : Bool
  status : Nat
  detail : Nat
  src : Option (Nat × Nat)
  checked : Bool
  outs : List (Nat × Nat)
deriving DecidableEq, Repr

/-- GRV source of a status (R159); the others are recorded on the page that names them (R143). -/
def grvSource : Nat → Option Nat
  | 0x8 => some 0 | 0x3 => some 1 | 0xC => some 2 | 0x7 => some 3 | 0x1 => some 8 | 0x2 => some 9 | 0x9 => some 10
  | 0x6 => some 11 | _ => none

/-- Offset of a ring's register from ring 0's. -/
def ringOff (q : Nat) : Nat := 0x20 * q
def qField (f : Fld) (q : Nat) : Fld := f.at (ringOff q)

/-- Entries of a ring. -/
def ringSize (s : State) (c q : Nat) : Nat := 2 ^ s.fld (pgGrv c) (qField GRV_QCTRL_LOG2SIZE q)

/-- Key of a completed index (R131). -/
def doneKey (q i : Nat) : Nat := 65536 * q + i

/-- HEAD advances over completed descriptors in ring order (R131). -/
def advanceHead : Nat → State → Nat → Nat → State
  | 0, s, _, _ => s
  | n + 1, s, c, q =>
    let h := s.fld (pgGrv c) (qField GRV_QHEAD_HEAD q)
    if smHas (s.core c).done (doneKey q h) then
      advanceHead n ((s.setFld (pgGrv c) (qField GRV_QHEAD_HEAD q) ((h + 1) % 65536)).modCore c
        (fun x => { x with done := smErase x.done (doneKey q h) })) c q
    else s

/-- Does a completion send poison with a signal (R142). -/
def poisonSent (s : State) (d : Fin_) : Bool :=
  d.status != 0 && d.sigOk && (descSigs d.desc).any (fun x => sigSent s d.core x d.checked)

/-- The 16 bytes of a completion record (R142). -/
def recordBytes (s : State) (d : Fin_) : List Byte :=
  leBytes 2 (descTag d.desc) ++ leBytes 1 d.status ++ (d.desc.take 2)
    ++ leBytes 1 (d.ring + (if poisonSent s d then 8 else 0)) ++ leBytes 2 d.detail
    ++ leBytes 4 s.time.ns ++ leBytes 4 s.time.sec

/-- The completion record, when the ring writes them and the status or CTL.REC asks for it (R142). -/
def writeRecord (s : State) (d : Fin_) : State :=
  let pg := pgGrv d.core
  if s.flag pg (qField GRV_QCBASE_EN d.ring) && (d.status != 0 || ctlRec d.desc) then
    let off := s.fld pg (qField GRV_QCBASE_BASE d.ring) * 16 + 16 * (d.idx % ringSize s d.core d.ring)
    writeRange s (sramOf d.core + off % 0x100000) (recordBytes s d) false
  else s

/-- The COMPLETION event of CTL.IRQ_DONE (R143, R488). -/
def doneEvent (s : State) (d : Fin_) : State :=
  if ctlIrqDone d.desc then
    queueEvent s { devEvent s 1 (d.status + 0x100 * leAt d.desc 0 1 + 0x10000 * leAt d.desc 1 1 + 0x1000000 * d.detail)
      with origin := originOf d.core d.ring (descTag d.desc) }
  else s

/-- The one error source a completion with another status than OK records, with the TAG as DETAIL (R143, R423). -/
def doneSource (s : State) (d : Fin_) : State :=
  if d.status = 0 then s
  else
    let tag := descTag d.desc
    let s := if d.status = 9 then s.bump pgMem 2 else if d.status = 0xA then s.bump pgEas 1 else s
    match d.src, grvSource d.status with
    | some (p, x), _ => errOcc s p x tag
    | none, some x => errOcc s (pgGrv d.core) x tag
    | none, none => s

/-- Completion of a descriptor: poison of what it wrote, the record, the signals, the event, the source, the counters and
HEAD (R131, R139 to R144). A signal to a fenced device makes an otherwise clean descriptor complete with FENCED_PEER
(R299, R385, log entry 15). `ahead` increments reached the flag store earlier in this cycle (R61). -/
def finish (s : State) (d : Fin_) (ahead : Nat) : State :=
  let d := match if d.status = 0 then sigFence s d.desc else none with
    | some x => { d with status := 6, detail := x }
    | none => d
  let bad := d.status != 0
  let s := if bad then poisonRuns (d.outs.map (fun r => (some r.1, r.2))) s else s
  let s := writeRecord s d
  let s := if d.sigOk then sendSignals s d.core d.desc bad d.checked ahead else s
  let s := doneEvent s d
  let s := doneSource s d
  let pg := pgGrv d.core
  let s := s.bump pg (if bad then 2 else 1)
  let s := if d.status = 0xC then s.bump pg 4 else s
  let s := if bad then s.setFld pg (qField GRV_QSTAT_LAST_TAG d.ring) (descTag d.desc) else s
  let s := s.modCore d.core (fun x => { x with done := smInsert x.done (doneKey d.ring d.idx) () })
  advanceHead ((s.core d.core).done.length + 1) s d.core d.ring

/-- A window entry leaves the window. -/
def leaveWindow (s : State) (c : Nat) (e : WinEntry) : State :=
  s.modCore c (fun x => { x with window := x.window.filter (fun y => y.seq != e.seq) })

/-- A window entry that completes without reaching an engine. -/
def finishEntry (s : State) (c : Nat) (e : WinEntry) (status detail : Nat) (src : Option (Nat × Nat)) (ahead : Nat) :
    State :=
  finish (leaveWindow s c e)
    { core := c, ring := e.ring, idx := e.idx, desc := e.desc, sigOk := e.sigOk, status := status, detail := detail,
      src := src, checked := false, outs := [] } ahead

/-- An issued command completes and leaves the table of commands. -/
def finishCmd (s : State) (id ahead : Nat) : State :=
  let x := s.cmd id
  finish (s.dropCmd id)
    { core := x.core, ring := x.ring, idx := x.idx, desc := x.desc, sigOk := x.sigOk, status := x.status,
      detail := x.detail, src := x.src, checked := true, outs := x.outs } ahead

/-! ### Engine queues of a core -/

def CoreSt.arr (x : CoreSt) : Nat → ArrSt
  | 0 => x.arr0 | 1 => x.arr1 | 2 => x.arr2 | _ => x.arr3

def CoreSt.setArr (x : CoreSt) (a : Nat) (v : ArrSt) : CoreSt :=
  match a with
  | 0 => { x with arr0 := v } | 1 => { x with arr1 := v } | 2 => { x with arr2 := v } | _ => { x with arr3 := v }

def State.modArr (s : State) (c a : Nat) (f : ArrSt → ArrSt) : State :=
  s.modCore c (fun x => x.setArr a (f (x.arr a)))

/-- The engine of class 1 to 3 and its instance: vector unit, DMA engines, sketch-match unit. -/
def CoreSt.eng (x : CoreSt) (cls inst : Nat) : EngSt :=
  if cls = 1 then x.vec else if cls = 3 then x.skm else if inst = 0 then x.dma0 else x.dma1

def CoreSt.setEng (x : CoreSt) (cls inst : Nat) (v : EngSt) : CoreSt :=
  if cls = 1 then { x with vec := v } else if cls = 3 then { x with skm := v }
  else if inst = 0 then { x with dma0 := v } else { x with dma1 := v }

def State.modEng (s : State) (c cls inst : Nat) (f : EngSt → EngSt) : State :=
  s.modCore c (fun x => x.setEng cls inst (f (x.eng cls inst)))

/-- The arrays an instance of class ARR names (R46, R113). -/
def arraysOf (inst : Nat) : List Nat := if inst < 4 then [inst] else [2 * inst - 8, 2 * inst - 7]

/-- The engine instances a descriptor names, a pair counting as both of its arrays (R135). -/
def unitsOf (d : List Byte) : List (Nat × Nat) :=
  if descClass d = 0 then (arraysOf (descInst d)).map (fun a => (0, a)) else [(descClass d, descInst d)]

/-- Queue entries of the engine classes (R36, R185, R331, R345). -/
def queueCap : Nat → Nat
  | 0 => 4 | 1 => 8 | 2 => 16 | 3 => 4 | 4 => 256 | 5 => 64 | 6 => 64 | _ => 0

def State.aqt (s : State) (e : Nat) : AqtSt := smGet AqtSt.init s.aqts e
def State.setAqt (s : State) (e : Nat) (x : AqtSt) : State := { s with aqts := smSet AqtSt.init s.aqts e x }
def State.modAqt (s : State) (e : Nat) (f : AqtSt → AqtSt) : State := s.setAqt e (f (s.aqt e))

/-- Commands in the queue of an engine instance. -/
def queueOf (s : State) (c cls inst : Nat) : List Nat :=
  match cls with
  | 0 => ((s.core c).arr inst).queue
  | 1 | 2 | 3 => ((s.core c).eng cls inst).queue
  | 4 => smGet [] s.net.xdma inst
  | 5 => smGet [] s.net.coll inst
  | 6 => (s.aqt inst).queue
  | _ => (s.core c).ctl

/-- The queue of an engine instance replaced. -/
def setQueue (s : State) (c cls inst : Nat) (l : List Nat) : State :=
  match cls with
  | 0 => s.modArr c inst (fun a => { a with queue := l })
  | 1 | 2 | 3 => s.modEng c cls inst (fun a => { a with queue := l })
  | 4 => { s with net := { s.net with xdma := smSet [] s.net.xdma inst l } }
  | 5 => { s with net := { s.net with coll := smSet [] s.net.coll inst l } }
  | 6 => s.modAqt inst (fun a => { a with queue := l })
  | _ => s.modCore c (fun x => { x with ctl := l })

/-- An entry of the group table (R339). -/
def State.group (s : State) (g : Nat) : GroupSt := smGet GroupSt.init s.coll.groups g
def GroupSt.valid (x : GroupSt) : Bool := bitAt x.cfg 31
def GroupSt.engine (x : GroupSt) : Nat := bits x.cfg 30 28

/-- The group to whose engine a COLL descriptor goes as a void where it completes at issue; a NOP names none (R345). -/
def voidGroup (s : State) (d : List Byte) : Option GroupSt :=
  let x := s.group (natBits (descOp d 2) 7 0)
  if descClass d = 5 ∧ descOpcode d ≠ 0 ∧ x.valid = true then some x else none

/-- Entries of a COLL queue in use: the commands that wait, and those that run in a context of the engine, whose entries free at
completion (R36). -/
def collDepth (s : State) (e : Nat) : Nat := (smGet [] s.net.coll e).length + countIf (fun x => x.1 / 4 == e) s.coll.ctxs

/-- Entries of an engine's queue in use (R36). -/
def queueUsed (s : State) (c cls inst : Nat) : Nat := if cls = 5 then collDepth s inst else (queueOf s c cls inst).length

/-- Has that engine's queue room for a void. -/
def voidRoom (s : State) (d : List Byte) : Bool :=
  match voidGroup s d with
  | some x => decide (collDepth s x.engine < queueCap 5)
  | none => true

/-- Does every queue the descriptor enters have a free entry (R36). -/
def queueRoom (s : State) (c : Nat) (d : List Byte) : Bool :=
  descClass d == 7
    || (unitsOf d).all (fun u => decide (queueUsed s c u.1 u.2 < queueCap u.1))

/-- A ready descriptor as a command, in every queue it names. Under POISON_PASS a poisoned awaited flag is its first
failure (R147). -/
def enqueue (s : State) (c : Nat) (e : WinEntry) (flagPois : Bool) : State :=
  let id := s.nextCmd
  let x : Cmd := { Cmd.none_ with core := c, ring := e.ring, idx := e.idx, desc := e.desc, pats := e.pats,
                                  sigOk := e.sigOk, cls := descClass e.desc, inst := descInst e.desc,
                                  status := if flagPois then 1 else 0, detail := if flagPois then 0xF else 0 }
  let s := { s.setCmd id x with nextCmd := id + 1 }
  (unitsOf e.desc).foldl (fun s u => setQueue s c u.1 u.2 (queueOf s c u.1 u.2 ++ [id])) s

/-! ### Presence and claims (R149, R528) -/

/-- Is an engine instance absent from the part or out of service. -/
def engineAbsent (s : State) (cls inst : Nat) : Bool :=
  match cls with
  | 4 => decide (s.fuses.part.xdmas ≤ inst)
  | 5 => decide (s.fuses.part.colls ≤ inst)
  | 6 => decide (s.fuses.part.aqts ≤ inst) || s.flag (pgAqt inst) AQT_STAT_OOS
  | _ => false

/-- Is an aquatint engine claimed by another core (R525, R528). -/
def claimedByOther (s : State) (c cls inst : Nat) : Bool :=
  let off := 4 * (5 + inst)
  cls == 6 && s.flag pgEas (EAS_CLAIM_HELD.at off)
    && !(s.fld pgEas (EAS_CLAIM_KIND.at off) == 2
         && s.fld pgEas (EAS_CLAIM_OWNER.at off) == 512 * (c / 288) + c % 288)

/-! ### At-hand test (R48, R49, R126) -/

/-- Slots an ARR, VEC or SKM descriptor reads. -/
def readSlots (d : List Byte) : List Nat :=
  let op := descOpcode d
  if op = 0x10 ∨ op = 0x38 then [0, 1]
  else if 0x20 ≤ op ∧ op ≤ 0x26 then
    [0] ++ (if op = 0x23 ∨ (op = 0x20 ∧ !(vewLocal d)) then [1] else [])
      ++ (if op = 0x20 ∧ (opParam d 0 % 32 = 3 ∨ opParam d 0 % 32 = 10) then [2] else [])
  else []

/-- Byte range of the whole index list of a pattern (R126). -/
def indexRange (e : List Byte) : Option (Nat × Nat) :=
  if patIndLvl e = 0 then none
  else
    let a := faOff (patIndAddr e)
    some (a, a + 3 + 4 * patCount e (patIndLvl e - 1))

/-- Local ranges that must be at hand when the descriptor issues. -/
def handRanges (d : List Byte) (pats : List (Option (List Byte))) : List (Nat × Nat) :=
  ((readSlots d).filterMap (fun i => if hasPat pats i then patBounds (patAt pats i) (opDisp d i) else none))
    ++ ([0, 1, 2].filterMap (fun i => if hasPat pats i then indexRange (patAt pats i) else none))

/-- Entries of the inbound tracker; a write beyond them waits at the mesh port (R49). -/
def trackerCap : Nat := 64

/-- Is every byte of a local range at hand: no tracked write overlaps it, completed fetches apart (R48, R49). -/
def atHand (s : State) (c lo hi : Nat) : Bool :=
  ((s.core c).inbound.take trackerCap).all (fun r =>
    r.done || decide (sramOf c + r.hi < lo) || decide (hi < sramOf c + r.lo))

/-- A bank is in use by a queued command of an array (R47). -/
def bankBusy (s : State) (c a bank : Nat) : Bool :=
  ((s.core c).arr a).queue.any (fun id => descOpcode (s.cmd id).desc == 0x10
    && natBits (opParam (s.cmd id).desc 1) 7 7 == bank)

/-! ### Readiness (R135) -/

/-- Unmet waits of an entry as a mask. -/
def unmetMask (e : WinEntry) : Nat :=
  ((descWaits e.desc).mapIdx (fun i _ => if e.met.getD i false then 0 else 2 ^ i)).sum

def waitsMet (e : WinEntry) : Bool := unmetMask e == 0

/-- Some awaited flag is poisoned (R145). -/
def anyFlagPois (s : State) (c : Nat) (e : WinEntry) : Bool :=
  (descWaits e.desc).any (fun w => s.flagPois c (w % 4096))

/-- An earlier descriptor of the same ring that names the same engine instance is still in the window. -/
def earlierSame (s : State) (c : Nat) (e : WinEntry) : Bool :=
  (s.core c).window.any (fun x => x.ring == e.ring && decide (x.seq < e.seq)
    && (unitsOf x.desc).any (fun u => (unitsOf e.desc).contains u))

/-- Room in the queues, free banks and bytes at hand. -/
def engineReady (s : State) (c : Nat) (e : WinEntry) : Bool :=
  queueRoom s c e.desc
    && (!(descOpcode e.desc == 0x10)
        || (arraysOf (descInst e.desc)).all (fun a => !bankBusy s c a (natBits (opParam e.desc 1) 7 7)))
    && (handRanges e.desc e.pats).all (fun r => atHand s c r.1 r.2)

/-- Is a window entry ready (R114, R135). A malformed descriptor needs its waits and its ring order only, and completes at
once when NWAIT is reserved; an absent engine has no queue to wait for (R149). A COLL descriptor of a valid group also waits for a place
in the queue of the group's engine, which it takes as a void if it completes at issue (R345). -/
def entryReady (s : State) (c : Nat) (e : WinEntry) : Bool :=
  let order := !ctlRingOrder e.desc || s.fld (pgGrv c) (qField GRV_QHEAD_HEAD e.ring) == e.idx
  if e.bad.isSome then voidRoom s e.desc && (descNWait e.desc > 4 || (waitsMet e && order))
  else
    waitsMet e && order && voidRoom s e.desc && !earlierSame s c e
      && (engineAbsent s (descClass e.desc) (descInst e.desc) || engineReady s c e)

/-- May the ring issue: enabled, no flush pending, not halted by a breakpoint (R132, R154). -/
def ringRuns (s : State) (c q : Nat) : Bool :=
  s.flag (pgGrv c) (qField GRV_QCTRL_EN q) && !s.flag (pgGrv c) (qField GRV_QSTAT_FLUSH_PEND q)
    && !s.flag (pgGrv c) (qField GRV_QSTAT_HALT_BRK q)

/-- Does the core's graver run: power is good and the device is not in the fault state (R433). -/
def State.running (s : State) : Bool := s.pins.pwrGood && !s.inFault

/-- The better of two entries: higher PRIO, then earlier fetch (R135). -/
def better (s : State) (c : Nat) (a b : WinEntry) : WinEntry :=
  let pa := s.fld (pgGrv c) (qField GRV_QCTRL_PRIO a.ring)
  let pb := s.fld (pgGrv c) (qField GRV_QCTRL_PRIO b.ring)
  if pb < pa ∨ (pa = pb ∧ a.seq < b.seq) then a else b

/-- The entry the graver issues next: the ready entry of the ring with the highest priority, the earliest fetched among
equals (R135). -/
def candidate (s : State) (c : Nat) : Option WinEntry :=
  if s.running then
    match (s.core c).window.filter (fun e => ringRuns s c e.ring && entryReady s c e) with
    | [] => none
    | e :: es => some (es.foldl (better s c) e)
  else none

/-! ### Breakpoints (R153 to R155) -/

/-- The cause of a breakpoint hit of an entry about to issue: 0 count, 1 tag, 2 CTL.BRK (log entry 18); an entry that was resumed does
not hit again on the condition that halted it (R154). -/
def brkCause (s : State) (c : Nat) (e : WinEntry) : Option Nat :=
  let pg := pgGrv c
  if !e.brkSkip.contains 0 && s.flag pg GRV_BRK_CTRL_EN && !s.flag pg GRV_BRK_CTRL_MODE
      && ((s.counter pg 0).toNat + 1) % 2 ^ 32 == s.fld pg GRV_BRK_COUNT then some 0
  else if !e.brkSkip.contains 1 && s.flag pg GRV_BRK_CTRL_EN && s.flag pg GRV_BRK_CTRL_MODE
      && (s.flag pg GRV_BRK_CTRL_ANYRING || s.fld pg GRV_BRK_CTRL_RING == e.ring)
      && (descTag e.desc &&& s.fld pg GRV_BRK_TAG_MASK) == (s.fld pg GRV_BRK_TAG_VALUE &&& s.fld pg GRV_BRK_TAG_MASK)
      then some 1
  else if !e.brkSkip.contains 2 && s.flag pg GRV_BRK_CTRL_DESC && ctlBrk e.desc then some 2
  else none

/-- Rings that a hit on ring `q` halts (R153). -/
def brkRings (s : State) (c q : Nat) : List Nat :=
  if s.flag (pgGrv c) GRV_BRK_CTRL_SCOPE then List.range 8 else [q]

/-- The halt of a hit: BRK_STAT, the halted rings and the BREAKPOINT event (R154). A step in progress goes on for the rings that are not
halted, and ends where none is left. -/
def brkHit (s : State) (c : Nat) (e : WinEntry) (cause : Nat) (rings : List Nat) : State :=
  let pg := pgGrv c
  let s := s.setFlds pg [(GRV_BRK_STAT_HIT, 1), (GRV_BRK_STAT_CAUSE, cause), (GRV_BRK_STAT_RING, e.ring),
    (GRV_BRK_STAT_TAG, descTag e.desc)]
  let s := rings.foldl (fun s q => s.setFld pg (qField GRV_QSTAT_HALT_BRK q) 1) s
  let left := (s.core c).stepRings.filter (fun q => !rings.contains q)
  let s := s.modCore c (fun x => { x with
    stepping := x.stepping && !left.isEmpty
    stepRings := left
    window := x.window.map (fun y => if y.seq == e.seq then { y with brkSkip := cause :: y.brkSkip } else y) })
  queueEvent s { devEvent s 3 cause with origin := originOf c e.ring (descTag e.desc) }

/-- After an issue under a single step the halted scope halts again with CAUSE 3 (R154, log entry 19). -/
def stepHalt (s : State) (c : Nat) (e : WinEntry) : State :=
  let x := s.core c
  if x.stepping && x.stepRings.contains e.ring then brkHit s c e 3 x.stepRings else s

/-! ### The act of issuing -/

/-- A verdict at issue other than OK: status, DETAIL, source. -/
abbrev Verdict := Nat × Nat × Option (Nat × Nat)

/-- The head of the order of R547 that does not depend on the opcode: presence, claim, poisoned awaited flag, and a pattern entry that
could not be read (R216, log entry 28). -/
def commonVerdict (s : State) (c : Nat) (e : WinEntry) : Option Verdict :=
  let cls := descClass e.desc
  let inst := descInst e.desc
  if engineAbsent s cls inst then some (2, 0, none)
  else if claimedByOther s c cls inst then some (0xA, 5 + inst, some (pgEas, 0))
  else if anyFlagPois s c e && !ctlPoisonPass e.desc then some (1, 0xF, none)
  else e.unread

/-- The window check of the signal entries, SIG0 first, after the operands (R311, R547). -/
def sigVerdict (s : State) (c : Nat) (d : List Byte) : Option Verdict :=
  if (descSigs d).all (sigAllowed s c) then none else some (9, 0xE, none)

/-- The issue of the entry that is the graver's choice when `want` accepts it: a breakpoint halts the graver instead; a
failed check completes the descriptor at issue, followed by `fail`; otherwise `go` acts. -/
def issue (s : State) (c : Nat) (want : WinEntry → Bool) (check : State → WinEntry → Option Verdict)
    (go : State → WinEntry → State) (fail : State → WinEntry → State := fun s _ => s) : State :=
  match candidate s c with
  | none => s
  | some e =>
    if !want e then s
    else match brkCause s c e with
      | some k => brkHit s c e k (brkRings s c e.ring)
      | none =>
        let s := windowParity s c
        let v := (commonVerdict s c e).or (check s e)
        let s := (leaveWindow s c e).bump (pgGrv c) 0
        let s := match v with
          | some (st, det, src) => fail (finishEntry s c e st det src 0) e
          | none => go s e
        stepHalt s c e

/-- The issue of a descriptor of one opcode. -/
def issueOp (s : State) (c op : Nat) (check : State → WinEntry → Option Verdict) (go : State → WinEntry → State) : State :=
  issue s c (fun e => e.bad.isNone && descOpcode e.desc == op) (fun s e => (check s e).or (sigVerdict s c e.desc)) go

/-- The entry with its poison mark as a command in its queues. -/
def push (c : Nat) (s : State) (e : WinEntry) : State := enqueue s c e (anyFlagPois s c e)

/-- A CTL command whose effect `act` comes at its issue and which completes in the next cycle (R116). -/
def pushCtl (c : Nat) (act : State → WinEntry → State) (s : State) (e : WinEntry) : State :=
  let s := enqueue s c e (anyFlagPois s c e)
  act (s.modCmd (s.nextCmd - 1) (fun x => { x with ran := true })) e

end Sys2Proof.Machine
end

