-- ==== Sys2Proof/Machine/Numbers.lean ====
section
/-!
DEFINITION. Number formats and arithmetic: exact values, decoding and encoding of element formats (R70 to R74, R89 to R92), FP32
arithmetic (R95), the transcendental operations within their bounds (R96), Microscaling scales and row records (R72,
R77, R78), and the lane generators (R93).
-/

namespace Sys2Proof.Machine

/-! ### Exact values -/

/-- A value: NaN, an infinity, or (−1)^neg × man × 2^exp. -/
inductive Num where
  | nan
  | inf (neg : Bool)
  | fin (neg : Bool) (man : Nat) (exp : Int)
deriving DecidableEq, Repr

def Num.zero : Num := .fin false 0 0
def Num.one : Num := .fin false 1 0

def Num.isNan : Num → Bool
  | .nan => true
  | _ => false

def Num.isNeg : Num → Bool
  | .nan => false
  | .inf n => n
  | .fin n _ _ => n

def Num.abs : Num → Num
  | .nan => .nan
  | .inf _ => .inf false
  | .fin _ m e => .fin false m e

/-- An integer as a value scaled by 2^e. -/
def Num.ofInt (i e : Int) : Num := .fin (decide (i < 0)) i.natAbs e

/-- floor(log2) of a positive number. -/
def ilog (m : Nat) (e : Int) : Int := (Nat.log2 m : Int) + e

/-- The signed mantissa of a finite value at exponent `e`, not above its own. -/
def signedAt (neg : Bool) (m : Nat) (exp e : Int) : Int :=
  let k : Int := (m * 2 ^ (exp - e).toNat : Nat)
  if neg then -k else k

/-- Exact sum; an exact zero is −0 only when both addends are negative zeros (IEEE 754 under RNE). -/
def Num.add : Num → Num → Num
  | .nan, _ => .nan
  | _, .nan => .nan
  | .inf a, .inf b => if a = b then .inf a else .nan
  | .inf a, .fin .. => .inf a
  | .fin .., .inf b => .inf b
  | .fin n m x, .fin k j y =>
    let e := min x y
    let t := signedAt n m x e + signedAt k j y e
    if t = 0 then .fin (n && k && m == 0 && j == 0) 0 0 else .ofInt t e

def Num.neg : Num → Num
  | .nan => .nan
  | .inf a => .inf !a
  | .fin n m e => .fin (!n) m e

/-- Exact product. -/
def Num.mul : Num → Num → Num
  | .nan, _ => .nan
  | _, .nan => .nan
  | .inf a, .inf b => .inf (a != b)
  | .inf a, .fin n m _ => if m = 0 then .nan else .inf (a != n)
  | .fin n m _, .inf b => if m = 0 then .nan else .inf (n != b)
  | .fin n m x, .fin k j y => .fin (n != k) (m * j) (x + y)

/-- The value times 2^k. -/
def Num.scale (v : Num) (k : Int) : Num :=
  match v with
  | .fin n m e => .fin n m (e + k)
  | v => v

/-- Order of two values that are not NaN, −0 below +0: is `a` below `b`. -/
def Num.below (a b : Num) : Bool :=
  match a, b with
  | .nan, _ => false
  | _, .nan => false
  | .inf x, .inf y => x && !y
  | .inf x, _ => x
  | _, .inf y => !y
  | .fin n m x, .fin k j y =>
    let e := min x y
    let s := signedAt n m x e
    let t := signedAt k j y e
    decide (s < t) || (s == t && n && !k)

/-- Numerical comparison, NaN comparing false. -/
def Num.gt (a b : Num) : Bool := (b.below a) && !(match a, b with | .fin _ 0 _, .fin _ 0 _ => true | _, _ => false)
def Num.eq (a b : Num) : Bool := !a.isNan && !b.isNan && !(a.gt b) && !(b.gt a)
def Num.ge (a b : Num) : Bool := a.gt b || a.eq b

/-! ### Formats (R70, R71) -/

/-- How the exponent of all ones is used. -/
inductive Special where
  | ieee | e4m3 | none
deriving DecidableEq, Repr

/-- A floating-point element format. -/
structure FpFmt where
  w : Nat
  eb : Nat
  mb : Nat
  bias : Nat
  sp : Special
  /-- the NaN it encodes (R90); 0 where it has none -/
  nan : Nat
deriving DecidableEq, Repr

def fp32F : FpFmt := ⟨32, 8, 23, 127, .ieee, 0x7FC00000⟩
def bf16F : FpFmt := ⟨16, 8, 7, 127, .ieee, 0x7FC0⟩
def e4m3F : FpFmt := ⟨8, 4, 3, 7, .e4m3, 0x7F⟩
def e5m2F : FpFmt := ⟨8, 5, 2, 15, .ieee, 0x7E⟩
def e2m3F : FpFmt := ⟨6, 2, 3, 1, .none, 0⟩
def e3m2F : FpFmt := ⟨6, 3, 2, 3, .none, 0⟩
def e2m1F : FpFmt := ⟨4, 2, 1, 1, .none, 0⟩

/-- An element kind: floating point, an integer of some width, or an MXINT8 element. -/
inductive Kind where
  | fp (f : FpFmt)
  | int (w : Nat)
  | mxint
deriving DecidableEq, Repr

/-- The element kind of a format code (R75); codes without scalar elements give FP32. -/
def kindOf : Nat → Kind
  | 0x1 => .fp bf16F | 0x2 => .fp e4m3F | 0x3 => .fp e5m2F | 0x4 => .int 8 | 0x5 => .int 32 | 0x6 => .fp e2m1F
  | 0x7 => .fp e4m3F | 0x8 => .fp e5m2F | 0x9 => .fp e2m3F | 0xA => .fp e3m2F | 0xB => .fp e2m1F | 0xC => .mxint
  | _ => .fp fp32F

/-- The value of a code of a floating-point format (R70, R74). -/
def decodeFp (f : FpFmt) (c : Nat) : Num :=
  let neg := natBits c (f.w - 1) (f.w - 1) = 1
  let e := natBits c (f.w - 2) f.mb
  let m := c % 2 ^ f.mb
  let top := 2 ^ f.eb - 1
  if f.sp = .ieee ∧ e = top then (if m = 0 then .inf neg else .nan)
  else if f.sp = .e4m3 ∧ e = top ∧ m = 7 then .nan
  else if e = 0 then .fin neg m (1 - (f.bias : Int) - f.mb)
  else .fin neg (2 ^ f.mb + m) ((e : Int) - f.bias - f.mb)

/-- The value of an element code. -/
def decodeElem (k : Kind) (c : Nat) : Num :=
  match k with
  | .fp f => decodeFp f c
  | .int w => .ofInt (sext w c) 0
  | .mxint => .ofInt (sext 8 c) (-6)

/-- FP32 of a 32-bit word. -/
def f32 (w : Nat) : Num := decodeFp fp32F w

/-! ### Rounding (R89, R92) -/

/-- Rounding of a magnitude of `n` last places and `r / d` of one more, `d` positive. -/
def roundUp? (mode rn n r d : Nat) : Nat :=
  if r = 0 then n
  else match mode with
    | 0 => if 2 * r > d ∨ (2 * r = d ∧ n % 2 = 1) then n + 1 else n
    | 2 => if 65536 ≤ r * 65536 / d + rn then n + 1 else n
    | _ => n

/-- man × 2^exp rounded to a multiple of 2^q. -/
def roundTo (mode rn man : Nat) (exp q : Int) : Nat :=
  if q ≤ exp then man * 2 ^ (exp - q).toNat
  else
    let d := 2 ^ (q - exp).toNat
    roundUp? mode rn (man / d) (man % d) d

/-- Sticky flags of VEC.ARITH_STAT (R97): NAN_IN, INVALID, OVF, BLOCK_NAN, INT_SAT, NAN_TO_INT in bits 0 to 5. -/
abbrev Sticky := Nat

def stNanIn : Sticky := 1
def stInvalid : Sticky := 2
def stOvf : Sticky := 4
def stBlockNan : Sticky := 8
def stIntSat : Sticky := 16
def stNanToInt : Sticky := 32

/-- Code of the largest finite value of a format. -/
def maxCode (f : FpFmt) : Nat :=
  match f.sp with
  | .ieee => 2 ^ (f.w - 1) - 2 ^ f.mb - 1
  | .e4m3 => 2 ^ (f.w - 1) - 2
  | .none => 2 ^ (f.w - 1) - 1

/-- Conversion of a value to a floating-point format (R89, R90): code and sticky flags. Formats without specials always
saturate. -/
def encodeFp (f : FpFmt) (mode rn : Nat) (sat : Bool) (v : Num) : Nat × Sticky :=
  let s (neg : Bool) : Nat := if neg then 2 ^ (f.w - 1) else 0
  let excess (neg : Bool) : Nat :=
    if sat ∨ f.sp = .none then s neg + maxCode f
    else if f.sp = .e4m3 then f.nan
    else s neg + maxCode f + 1
  match v with
  | .nan => (f.nan, 0)
  | .inf neg =>
    if f.sp = .ieee then (s neg + maxCode f + 1, 0)
    else (excess neg, if f.sp = .e4m3 then stOvf else 0)
  | .fin neg 0 _ => (s neg, 0)
  | .fin neg m e =>
    let emin : Int := 1 - f.bias
    let l := ilog m e
    let b := max l emin
    if f.sp = .e4m3 ∧ l = 8 ∧ 448 * 2 ^ (max 0 (-e)).toNat < m * 2 ^ (max 0 e).toNat then
      -- above 448 the next value is 512, over a gap of 64, and a tie at 480 stays at 448
      let k := max 0 (-e)
      let r := m * 2 ^ (max 0 e).toNat - 448 * 2 ^ k.toNat
      if roundUp? mode rn 0 r (64 * 2 ^ k.toNat) = 0 then (s neg + maxCode f, 0) else (excess neg, stOvf)
    else
      let q := b - f.mb
      let n := roundTo mode rn m e q
      -- the code is continuous over the binades: exponent field and mantissa carry into each other
      let code := if b = emin ∧ n < 2 ^ f.mb then n else (b + f.bias - 1).toNat * 2 ^ f.mb + n
      if maxCode f < code then (excess neg, stOvf) else (s neg + code, 0)

/-- Conversion to an integer of width `w` with `k` fraction bits (R89, R90). -/
def encodeInt (w k mode rn : Nat) (v : Num) : Nat × Sticky :=
  match v with
  | .nan => (0, stNanToInt)
  | .inf neg => (wrapInt w (if neg then -(2 ^ (w - 1) : Int) else 2 ^ (w - 1) - 1), stIntSat)
  | .fin neg m e =>
    let n : Int := roundTo mode rn m (e + k) 0
    let i := if neg then -n else n
    (wrapInt w (clampInt w i), if clampInt w i = i then 0 else stIntSat)

/-- Conversion to an element kind. -/
def encodeElem (k : Kind) (mode rn : Nat) (sat : Bool) (v : Num) : Nat × Sticky :=
  match k with
  | .fp f => encodeFp f mode rn sat v
  | .int w => encodeInt w 0 mode rn v
  | .mxint => encodeInt 8 6 mode rn v

/-- One RNE rounding to FP32, overflow to infinity (R84, R95): code and value. -/
def toF32 (v : Num) : Nat := (encodeFp fp32F 0 0 false v).1
def round32 (v : Num) : Num := f32 (toF32 v)

/-! ### FP32 operations (R95) -/

def fAdd (a b : Num) : Num := round32 (a.add b)
def fSub (a b : Num) : Num := round32 (a.add b.neg)
def fMul (a b : Num) : Num := round32 (a.mul b)
def fMa (a b c : Num) : Num := round32 ((a.mul b).add c)
def fMin (a b : Num) : Num := if a.isNan || b.isNan then .nan else if b.below a then b else a
def fMax (a b : Num) : Num := if a.isNan || b.isNan then .nan else if a.below b then b else a

/-- Pairs combined level by level, a value without a partner passing up (R546). -/
def pairUp {α : Type} (f : α → α → α) : List α → List α
  | a :: b :: t => f a b :: pairUp f t
  | l => l

/-- All levels, `z` for no value; the first argument bounds their number. -/
def pairAll {α : Type} (f : α → α → α) (z : α) : Nat → List α → α
  | 0, l => l.headD z
  | n + 1, l =>
    match l with
    | [] => z
    | [a] => a
    | l => pairAll f z n (pairUp f l)

/-- The fixed order of R546: chunks of 64, then the chunk results. -/
def treeOf {α : Type} (f : α → α → α) (z : α) (l : List α) : α :=
  pairAll f z 16 ((pieces (l.length + 1) 64 l).map (pairAll f z 7))

/-! ### Transcendental operations (R96) -/

/-- Fraction bits of the fixed-point approximations. -/
def fxP : Nat := 160
def fxOne : Nat := 2 ^ fxP

/-- Squaring steps of the binary logarithm: `y` in [1, 2) at `fxP` fraction bits, `n` bits of the result. -/
def log2Bits : Nat → Nat → Nat → Nat
  | 0, _, acc => acc
  | n + 1, y, acc =>
    let y := y * y / fxOne
    if 2 * fxOne ≤ y then log2Bits n (y / 2) (2 * acc + 1) else log2Bits n y (2 * acc)

/-- log2 of man × 2^exp to 120 fraction bits. -/
def fxLog2 (m : Nat) (e : Int) : Int :=
  let l := Nat.log2 m
  let y := m * fxOne / 2 ^ l
  ((l : Int) + e) * 2 ^ 120 + log2Bits 120 y 0

/-- Square roots 2^(2^−i) of two for i = 1 to n, at `fxP` fraction bits. -/
def fxRoots : Nat → Nat → List Nat
  | 0, _ => []
  | n + 1, r =>
    let r := Nat.sqrt (r * fxOne)
    r :: fxRoots n r

/-- 2^(f / 2^120) for a fraction `f` below 2^120, at `fxP` fraction bits: the product of the roots its bits select. -/
def fxExp2Frac (f : Nat) : Nat :=
  ((fxRoots 120 (2 * fxOne)).mapIdx (fun i r => if f.testBit (119 - i) then r else fxOne)).foldl
    (fun p r => p * r / fxOne) fxOne

/-- 2^x for x = t / 2^120, as a value. -/
def fxExp2 (t : Int) : Num :=
  let i := t / 2 ^ 120
  .fin false (fxExp2Frac (t - i * 2 ^ 120).toNat) (i - fxP)

/-- log2(e) at 160 fraction bits. -/
def fxLog2e : Nat := 2108501164428393954197770173035669514763056903505

/-- A finite value times 2^120, rounded down. -/
def fxOf (neg : Bool) (m : Nat) (e : Int) : Int :=
  let k : Int := if 0 ≤ e + 120 then (m * 2 ^ (e + 120).toNat : Nat) else (m / 2 ^ (-(e + 120)).toNat : Nat)
  if neg then -k else k

/-- u = e^(−|x|·c) as a fraction of 2^160, for c = 1 or 2; 0 beyond reach. -/
def fxDecay (c m : Nat) (e : Int) : Nat :=
  if ilog m e > 8 then 0
  else
    let t := fxOf false m e * c * fxLog2e / 2 ^ 160
    match fxExp2 (-t) with
    | .fin _ k x => if x + fxP ≥ 0 then k * 2 ^ (x + fxP).toNat else k / 2 ^ (-(x + fxP)).toNat
    | _ => 0

/-- A magnitude as a multiple of 2^q, rounded down. -/
def magAt (m : Nat) (e q : Int) : Nat := if q ≤ e then m * 2 ^ (e - q).toNat else m / 2 ^ (q - e).toNat

/-- The value a transcendental operation gives: an FP32 value left free within `num` / 2 units of 2^`unit` of the
approximation `v`, less the approximation's own error; where the free draw falls outside, the approximation rounded
to FP32 (log entry 21). -/
def nearFree (s : State) (v : Num) (halves : Nat) (unit : Int) : Num × State :=
  match v with
  | .fin n m e =>
    let (w, s) := s.freeNat (2 ^ 32)
    match f32 w with
    | .fin k j x =>
      let q := unit - 40
      let d := (signedAt n (magAt m e q) 0 0 - signedAt k (magAt j x q) 0 0).natAbs
      (if d + 4 ≤ halves * 2 ^ 39 then .fin k j x else round32 v, s)
    | _ => (round32 v, s)
  | v => (round32 v, s)

/-- The unit in the last place of FP32 at a value: 2^−149 for zero and subnormals. -/
def ulpExp (v : Num) : Int :=
  match v with
  | .fin _ m e => if m = 0 then -149 else max (ilog m e) (-126) - 23
  | _ => -149

/-- Reciprocal of a non-zero finite value, with 100 bits. -/
def fxRecip (n : Bool) (m : Nat) (e : Int) : Num :=
  let k := Nat.log2 m + 100
  .fin n (2 ^ k / m) (-(k : Int) - e)

/-- Reciprocal square root of a positive value, with about 100 bits. -/
def fxRsqrt (m : Nat) (e : Int) : Num :=
  let (m, e) := if e % 2 = 0 then (m, e) else (2 * m, e - 1)
  let k := Nat.log2 m + 200
  let k := k + k % 2
  .fin false (Nat.sqrt (2 ^ k / m)) (-((k / 2 : Nat) : Int) - e / 2)

/-- exp2 (R96): within 2 ulp of a normal result; a subnormal result has no stated bound and is left free. -/
def tExp2 (s : State) (v : Num) : Num × State :=
  match v with
  | .nan => (.nan, s)
  | .inf n => (if n then .zero else .inf false, s)
  | .fin n m e =>
    if !n ∧ (v.ge (.fin false 128 0)) then (.inf false, s)
    else if Num.gt (.fin true 149 0) v then (.zero, s)
    else if Num.gt (.fin true 126 0) v then
      let (w, s) := s.freeNat (2 ^ 32)
      (f32 w, s)
    else
      let r := fxExp2 (fxOf n m e)
      nearFree s r 4 (ulpExp r)

/-- log2 (R96): within 2 ulp. -/
def tLog2 (s : State) (v : Num) : Num × State :=
  match v with
  | .nan => (.nan, s)
  | .inf n => (if n then .nan else .inf false, s)
  | .fin n m e =>
    if m = 0 then (.inf true, s)
    else if n then (.nan, s)
    else
      let r := Num.ofInt (fxLog2 m e) (-120)
      nearFree s r 4 (ulpExp r)

/-- Reciprocal (R96): within 1 ulp. -/
def tRecip (s : State) (v : Num) : Num × State :=
  match v with
  | .nan => (.nan, s)
  | .inf n => (.fin n 0 0, s)
  | .fin n m e =>
    if m = 0 then (.inf n, s)
    else
      let r := fxRecip n m e
      nearFree s r 2 (ulpExp r)

/-- Reciprocal square root (R96): within 1 ulp. -/
def tRsqrt (s : State) (v : Num) : Num × State :=
  match v with
  | .nan => (.nan, s)
  | .inf n => (if n then .nan else .zero, s)
  | .fin n m e =>
    if m = 0 then (.inf n, s)
    else if n then (.nan, s)
    else
      let r := fxRsqrt m e
      nearFree s r 2 (ulpExp r)

/-- tanh (R96): absolute error at most 2^−22. -/
def tTanh (s : State) (v : Num) : Num × State :=
  match v with
  | .nan => (.nan, s)
  | .inf n => (.fin n 1 0, s)
  | .fin n m e =>
    let u := fxDecay 2 m e
    let r := Num.fin n ((fxOne - u) * fxOne / (fxOne + u)) (-fxP)
    nearFree s r 2 (-22)

/-- sigmoid (R96): absolute error at most 2^−23. -/
def tSigmoid (s : State) (v : Num) : Num × State :=
  match v with
  | .nan => (.nan, s)
  | .inf n => (if n then .zero else .one, s)
  | .fin n m e =>
    let u := fxDecay 1 m e
    let r := Num.fin false ((if n then u else fxOne) * fxOne / (fxOne + u)) (-fxP)
    nearFree s r 2 (-23)

/-! ### Packing (R73) and rows (R78) -/

/-- Element codes of a packed run: `n` elements of `b` bits. -/
def unpackBits (b n : Nat) (bs : List Byte) : List Nat :=
  if b % 8 = 0 then (List.range n).map (fun i => leAt bs (i * (b / 8)) (b / 8))
  else
    let x := leNat bs
    (List.range n).map (fun i => (x >>> (b * i)) % 2 ^ b)

/-- Elements packed from the least significant bit up. -/
def packBits (b : Nat) (l : List Nat) : List Byte :=
  if b % 8 = 0 then l.flatMap (leBytes (b / 8))
  else leBytes ((b * l.length + 7) / 8) ((l.mapIdx (fun i c => c * 2 ^ (b * i))).sum)

/-- An E8M0 scale applied (R72, R77). -/
def applyScale (e : Nat) (v : Num) : Num := if e = 0xFF then .nan else v.scale ((e : Int) - 127)

/-- Bytes of the scale section of a row record of `l` elements. -/
def scaleSec (f l : Nat) : Nat := if isMx f then roundUp (l / 32) 16 else 0

/-- The exact values of a row of `l` elements (R77, R78). -/
def decodeRow (f l : Nat) (bs : List Byte) : List Num :=
  let k := kindOf f
  let cs := unpackBits (elemBits f) l (bs.drop (scaleSec f l))
  cs.mapIdx (fun i c =>
    let v := decodeElem k c
    if isMx f then applyScale (leAt bs (i / 32) 1) v else v)

/-! ### Lane generators (R93) -/

/-- One xorshift step of a lane. -/
def laneStep (x : Word) : Word :=
  let x := x ^^^ (x <<< 13)
  let x := x ^^^ (x >>> 17)
  x ^^^ (x <<< 5)

/-- The value a seed loads into lane l (R94). -/
def laneSeed (v : Word) (l : Nat) : Word :=
  let x := v ^^^ BitVec.ofNat 32 (l * 0x01010101)
  if x = 0 then 1 else x

end Sys2Proof.Machine
end

