-- ==== Sys2Proof/Machine/Issue.lean ====
section
/-!
DEFINITION. The checks an opcode's own rules ask for when its descriptor would issue (R547 items 4 to 6): lengths and formats, the
reach and the bounding range of each operand (R127, R310), and the sender's windows (R311).
-/

namespace Sys2Proof.Machine

/-! ### Operands -/

/-- Where an operand lies: SPACE, device field, and its bounding range of `n` bytes for a direct operand; none where the
offset leaves 0 to 2^48 − 1 (R127). -/
def slotSpan (d : List Byte) (pats : List (Option (List Byte))) (i n : Nat) : Option (Nat × Nat × Nat × Nat) :=
  if hasPat pats i then
    let e := patAt pats i
    (patBounds e (opDisp d i)).map (fun b => (faSpace (patBase e), faDev (patBase e), b.1, b.2))
  else
    let x := descOp d i
    if 2 ^ 48 < faOff x + n then none else some (faSpace x, faDev x, faOff x, faOff x + n - 1)

/-- Does the operand name another device. -/
def slotRemote (s : State) (d : List Byte) (pats : List (Option (List Byte))) (i : Nat) : Bool :=
  !s.isOwn (if hasPat pats i then faDev (patBase (patAt pats i)) else faDev (descOp d i))

def slotSpace (d : List Byte) (pats : List (Option (List Byte))) (i : Nat) : Nat :=
  if hasPat pats i then faSpace (patBase (patAt pats i)) else faSpace (descOp d i)

def slotDev (d : List Byte) (pats : List (Option (List Byte))) (i : Nat) : Nat :=
  if hasPat pats i then faDev (patBase (patAt pats i)) else faDev (descOp d i)

/-- The length of the operands of COPY and its like (R120): the stream length of a pattern slot, else LENGTH. -/
def moveLen (d : List Byte) (pats : List (Option (List Byte))) (slots : List Nat) : Nat :=
  match slots.filterMap (fun i => if hasPat pats i then some (patLen (patAt pats i)) else none) with
  | n :: _ => n
  | [] => descOp d 2 % 2 ^ 32

/-- ADDR_FAULT of a slot. -/
def addrFault (i : Nat) : Option Verdict := some (3, i, none)
def fmtErr (detail : Nat) : Option Verdict := some (8, detail, none)
def winDenied (i : Nat) : Option Verdict := some (9, i, none)

/-- The first verdict of a list of checks in order. -/
def firstV : List (Option Verdict) → Option Verdict
  | [] => none
  | some v :: _ => some v
  | none :: t => firstV t

def whenV (c : Bool) (v : Option Verdict) : Option Verdict := if c then v else none

/-- Does a bounding range lie in the core's own SRAM window (R127). -/
def inOwnSram (c lo hi : Nat) : Bool := decide (sramOf c ≤ lo) && decide (hi < sramOf c + 0x100000)

/-- An operand that must lie in this core's own SRAM (R127, R316). -/
def checkCore (s : State) (c : Nat) (d : List Byte) (pats : List (Option (List Byte))) (n i : Nat) : Option Verdict :=
  match slotSpan d pats i n with
  | none => addrFault i
  | some (sp, dv, lo, hi) => whenV (!(sp == 0 && s.isOwn dv && inOwnSram c lo hi)) (addrFault i)

/-- An operand that must lie in this device's memory (R120, R325). -/
def checkDev (s : State) (d : List Byte) (pats : List (Option (List Byte))) (n i : Nat) : Option Verdict :=
  match slotSpan d pats i n with
  | none => addrFault i
  | some (sp, dv, lo, hi) =>
    whenV (!(sp == 0 && s.isOwn dv && rangeExists s.fuses lo (hi + 1 - lo))) (addrFault i)

/-- The pattern slots of a vector or array descriptor, all in this core's own SRAM. -/
def checkCores (s : State) (c : Nat) (d : List Byte) (pats : List (Option (List Byte))) (slots : List Nat) :
    Option Verdict :=
  firstV (slots.map (fun i => whenV (hasPat pats i) (checkCore s c d pats 0 i)))

/-- A remote operand's window check (R311, R312). -/
def checkWindow (s : State) (c : Nat) (d : List Byte) (pats : List (Option (List Byte))) (i n : Nat) (p : Perm) :
    Option Verdict :=
  match slotSpan d pats i n with
  | none => addrFault i
  | some (sp, dv, lo, hi) => whenV (!(engineChecker s d && windowCheck s c sp (some dv) lo hi p)) (winDenied i)

/-! ### Arrays (R37, R40, R80, R87, R91, R118) -/

/-- What a MATMUL descriptor asks for. -/
structure Mat where
  n : Nat
  k : Nat
  acc : Bool
  bank : Nat
  drain : Bool
  sf : Nat
  wf : Nat
  sparse : Bool
  comp : Bool
  arrays : List Nat
deriving DecidableEq, Repr

def matOf (d : List Byte) (pats : List (Option (List Byte))) : Mat :=
  let p := opParam d 1
  { n := natBits p 6 0 + 1, k := 16 * (opParam d 0 % 65536), acc := p.testBit 8, bank := natBits p 7 7,
    drain := p.testBit 9, sf := patFmt (patAt pats 0), wf := patFmt (patAt pats 1), sparse := patSparse (patAt pats 1),
    comp := patComp (patAt pats 1), arrays := arraysOf (descInst d) }

/-- Bank kind of R87: 1 floating, 2 integer. -/
def Mat.kind (m : Mat) : Nat := if m.sf = 4 ∧ m.wf = 4 then 2 else 1

/-- Reduction elements of a K-tile, and the number of K-tiles (R38, R39). -/
def Mat.tile (m : Mat) : Nat := if m.sparse then 32 else 16
def Mat.tiles (m : Mat) : Nat := m.k / m.tile

/-- Bytes of a column piece of the weight stream (R79). -/
def Mat.piece (m : Mat) : Nat := 2 * elemBits m.wf + (if m.sparse then 4 else 0)

/-- Bytes of a slice's scale section, and of a whole slice record. -/
def Mat.wscale (m : Mat) : Nat := if isMx m.wf then roundUp m.n 16 else 0
def Mat.perSlice (m : Mat) : Nat := if m.sparse then 1 else 2
def Mat.slice (m : Mat) : Nat := m.wscale + m.perSlice * m.n * m.piece
def Mat.slices (m : Mat) : Nat := (m.tiles + m.perSlice - 1) / m.perSlice

/-- Bytes of the whole weight operand in the slice layout. -/
def Mat.weightLen (m : Mat) : Nat := m.slices * m.wscale + m.tiles * m.n * m.piece

/-- Bytes of one drained column of one array. -/
def Mat.colBytes (outFmt : Nat) : Nat := 2 * elemBits outFmt

def State.bank (s : State) (c a b : Nat) : Bank :=
  let x := (s.core c).arr a
  if b = 0 then x.bankA else x.bankB

/-- The issue checks of MATMUL (R37, R40, R80, R87, R91, R118). An output operand that nothing drains to is checked for its place only
(log entry 106). -/
def checkMatmul (s : State) (c : Nat) (e : WinEntry) : Option Verdict :=
  let d := e.desc
  let pats := e.pats
  let m := matOf d pats
  let rows := 16 * m.arrays.length
  let len (i : Nat) := patLen (patAt pats i)
  let out := patFmt (patAt pats 2)
  firstV
    [ whenV (arrMode m.sf m.wf == some 2 && m.n % 2 == 1) (fmtErr 48),
      whenV ((m.sparse || isMx m.sf || isMx m.wf) && m.k % 32 != 0) (fmtErr 40),
      whenV (m.acc && m.arrays.any (fun a => (s.bank c a m.bank).kind != m.kind)) (fmtErr 49),
      whenV (len 0 != rows * rowBytes m.sf m.k) (fmtErr 0x300),
      whenV (if m.comp then len 1 % 4096 != 0 else len 1 != m.weightLen) (fmtErr 0x301),
      whenV (m.drain && !(if m.kind = 2 then [4, 5] else [0, 1, 2, 3]).contains out) (fmtErr (0x200 + 128 + 8)),
      whenV (m.drain && len 2 != m.n * m.arrays.length * Mat.colBytes out) (fmtErr 0x302),
      checkCores s c d pats [0, 1, 2] ]

/-! ### Vector unit (R78, R119) -/

/-- Elements of a slot's operand, with the check of R78 and R119 that it holds a whole number of them. -/
def checkCount (pats : List (Option (List Byte))) (i : Nat) : Option Verdict :=
  let e := patAt pats i
  whenV (hasPat pats i && (elemCount e).isNone) (fmtErr (if isMx (patFmt e) then 0x200 + 64 * i + 10 else 0x300 + i))

def countOf (pats : List (Option (List Byte))) (i : Nat) : Nat := (elemCount (patAt pats i)).getD 0

/-- Row length n of VRED and VSMX. -/
def rowLen (d : List Byte) : Nat := natBits (opParam d 0) 19 4 + 1

/-- The issue checks of the vector opcodes (R119): VRED writes one FP32 a row. A pattern OP1 of ABS is read and checked as any B (log
entry 107), and the format of VSMX's state operand is not judged beyond what holds of every vector operand (log entry 120). -/
def checkVec (s : State) (c : Nat) (e : WinEntry) : Option Verdict :=
  let d := e.desc
  let pats := e.pats
  let op := descOpcode d
  let n := countOf pats 0
  let loc := vewLocal d
  if op = 0x26 then
    firstV [whenV (patLen (patAt pats 0) > (64 - opParam d 0 % 64) * 256) (fmtErr 0x300), checkCores s c d pats [0]]
  else
    let rows := n / rowLen d
    firstV
      [ checkCount pats 0,
        (if op = 0x23 then whenV (hasPat pats 1 && patLen (patAt pats 1) != 8 * rows) (fmtErr 0x301)
         else firstV [checkCount pats 1, whenV (op == 0x20 && hasPat pats 1 && !loc && countOf pats 1 != n) (fmtErr 0x301)]),
        whenV (op == 0x22 && hasPat pats 2 && patFmt (patAt pats 2) != 0) (fmtErr 0x288),
        checkCount pats 2,
        whenV (countOf pats 2 != (if op = 0x22 then rows else n)) (fmtErr 0x302),
        checkCores s c d pats (if loc then [0, 2] else [0, 1, 2]) ]

/-! ### Sketch-match unit (R64, R65, R121) -/

def selBlk (d : List Byte) : Nat := 4 * 2 ^ natBits (opParam d 1) 12 10
def selKeys (pats : List (Option (List Byte))) : Nat := patLen (patAt pats 0) / 8
def selBlocks (d : List Byte) (pats : List (Option (List Byte))) : Nat := (selKeys pats + selBlk d - 1) / selBlk d
/-- L = min(K, B). -/
def selLimit (d : List Byte) (pats : List (Option (List Byte))) : Nat :=
  min (natBits (opParam d 1) 9 0 + 1) (selBlocks d pats)
/-- Bytes of one list (R65). -/
def selListLen (l : Nat) : Nat := 8 * ((4 + 4 * l + 7) / 8)

/-- The issue checks of SELECT: the limits of R63, and the length of the lists (R121). -/
def checkSelect (s : State) (c : Nat) (e : WinEntry) : Option Verdict :=
  let n := patLen (patAt e.pats 0)
  let r := opParam e.desc 2
  firstV
    [ whenV (selBlocks e.desc e.pats > 4096) (fmtErr 0x300),
      whenV (natBits r 9 0 + natBits r 19 10 > natBits (opParam e.desc 1) 9 0 + 1) (fmtErr 56),
      whenV (n % 8 != 0 || n / 8 == 0 || n / 8 > 262144) (fmtErr 0x300),
      whenV (patLen (patAt e.pats 2) != patLen (patAt e.pats 1) / 8 * selListLen (selLimit e.desc e.pats)) (fmtErr 0x302),
      checkCores s c e.desc e.pats [0, 1, 2] ]

/-! ### Local and remote moves (R120, R310, R316, R317, R319) -/

def checkCopy (s : State) (e : WinEntry) : Option Verdict :=
  let n := moveLen e.desc e.pats [0, 1]
  firstV [checkDev s e.desc e.pats n 0, checkDev s e.desc e.pats n 1]

def checkFill (s : State) (e : WinEntry) : Option Verdict := checkDev s e.desc e.pats (moveLen e.desc e.pats [1]) 1

/-- Is every run of a remote operand 4-byte aligned and a multiple of 4 bytes long (R317). -/
def runsAligned (s : State) (d : List Byte) (pats : List (Option (List Byte))) (i n : Nat) : Bool :=
  if hasPat pats i then
    let e := patAt pats i
    if patIndLvl e ≠ 0 then
      (patStream e (opDisp d i) s).1.runs.all (fun r => r.2 % 4 == 0 && (match r.1 with | some a => a % 4 == 0 | none => true))
    else
      decide (((faOff (patBase e) : Int) + opDisp d i) % 4 = 0) && patRun e % 4 == 0
        && (patLoops e).all (fun j => decide (patStride e j % 4 = 0) || patCount e j == 1)
  else faOff (descOp d i) % 4 == 0 && n % 4 == 0

/-- Does the remote operand lie within the reach of the load/store unit: another member of this sheet, in the spaces the
operation has (R310). -/
def checkSheet (s : State) (d : List Byte) (pats : List (Option (List Byte))) (i n : Nat) (spaces : List Nat) :
    Option Verdict :=
  match slotSpan d pats i n with
  | none => addrFault i
  | some (sp, dv, _, _) => whenV (!(s.inSheet dv && spaces.contains sp)) (addrFault i)

/-- RGET and RPUT: the remote operand is slot `r`. -/
def checkRemote (s : State) (c : Nat) (e : WinEntry) (r : Nat) (p : Perm) : Option Verdict :=
  let d := e.desc
  let n := moveLen d e.pats [0, 1]
  let own (i : Nat) := checkCore s c d e.pats n i
  let far := checkSheet s d e.pats r n [0, 1, 2]
  firstV
    [ whenV ((slotSpace d e.pats r == 1 || slotSpace d e.pats r == 2) && !runsAligned s d e.pats r n) (fmtErr (40 + 8 * r)),
      (if r = 0 then far else own 0), (if r = 1 then far else own 1),
      checkWindow s c d e.pats r n p ]

def atomicWidth (x2 : Nat) : Nat := if x2.testBit 4 then 8 else 4

def checkRatomic (s : State) (c : Nat) (e : WinEntry) : Option Verdict :=
  let d := e.desc
  let w := atomicWidth (descOp d 2)
  firstV
    [ whenV (descOp d 0 % w != 0) (fmtErr 40), whenV (descOp d 1 % 32 != 0) (fmtErr 48),
      whenV (descOp d 2 % 16 == 1 && w == 8) (fmtErr 56),
      checkSheet s d e.pats 0 w [0], checkCore s c d e.pats 32 1, checkWindow s c d e.pats 0 w .a ]

/-! ### Bulk copies (R310, R325, R326) -/

/-- An indirect list must lie in the issuing core's SRAM (R325). -/
def checkList (s : State) (c : Nat) (pats : List (Option (List Byte))) (i : Nat) : Option Verdict :=
  let a := patIndAddr (patAt pats i)
  match indexRange (patAt pats i) with
  | some (lo, hi) => whenV (hasPat pats i && !(faSpace a == 0 && s.isOwn (faDev a) && inOwnSram c lo hi)) (addrFault i)
  | none => none

/-- A remote operand of XCOPY: space 0b00 within the 48-bit offset. -/
def checkBulk (d : List Byte) (pats : List (Option (List Byte))) (n i : Nat) : Option Verdict :=
  match slotSpan d pats i n with
  | none => addrFault i
  | some (sp, _, _, _) => whenV (sp != 0) (addrFault i)

def checkXcopy (s : State) (c : Nat) (e : WinEntry) : Option Verdict :=
  let d := e.desc
  let pats := e.pats
  let n := moveLen d pats [0, 1]
  let r0 := slotRemote s d pats 0
  let r1 := slotRemote s d pats 1
  let p0 := hasPat pats 0
  let p1 := hasPat pats 1
  let one (i : Nat) (r : Bool) : Option Verdict :=
    firstV [checkList s c pats i, if r then checkBulk d pats n i else checkDev s d pats n i]
  firstV
    [ whenV (r0 && !r1 && p0 != p1) (fmtErr 55),
      whenV (r0 && !r1 && p0 && patRun (patAt pats 0) != patRun (patAt pats 1)) (fmtErr (0x200 + 64 + 10)),
      whenV (r0 && r1) (addrFault 0),
      one 0 r0, one 1 r1,
      whenV r0 (checkWindow s c d pats 0 n .r), whenV r1 (checkWindow s c d pats 1 n .w) ]

/-- The window check of a tree's traffic: an entry that covers every device (R312). -/
def checkTree (s : State) (c : Nat) (d : List Byte) (i n : Nat) (p : Perm) : Option Verdict :=
  match slotSpan d [] i n with
  | none => addrFault i
  | some (sp, _, lo, hi) => whenV (!(engineChecker s d && windowCheck s c sp none lo hi p)) (winDenied i)

def checkXmcast (s : State) (c : Nat) (e : WinEntry) : Option Verdict :=
  let n := moveLen e.desc e.pats [0]
  firstV [checkList s c e.pats 0, checkDev s e.desc e.pats n 0, checkTree s c e.desc 1 n .w]

def checkXmsig (s : State) (c : Nat) (e : WinEntry) : Option Verdict := checkTree s c e.desc 0 4 .s

/-! ### TRIGGER (R117, R329) -/

/-- First byte of the CSR pages (R308). -/
def csrBase : Nat := 0x200000000000

/-- The core and ring of a QTAIL register's CSR offset. -/
def qtailOf (off : Nat) : Option (Nat × Nat) :=
  if off < csrBase then none
  else
    let r := off - csrBase
    let c := r / 0x8000
    let o := r % 0x8000
    if c < 2304 ∧ 0x148 ≤ o ∧ o ≤ 0x228 ∧ (o - 0x148) % 0x20 = 0 then some (c, (o - 0x148) / 0x20) else none

def checkTrigger (s : State) (c : Nat) (e : WinEntry) : Option Verdict :=
  let x := descOp e.desc 0
  firstV
    [ whenV (faSpace x != 1 || (qtailOf (faOff x)).isNone) (addrFault 0),
      whenV (!s.isOwn (faDev x) && !windowCheck s c 1 (some (faDev x)) (faOff x) (faOff x + 3) .t) (winDenied 0) ]

end Sys2Proof.Machine
end

