-- ==== Sys2Proof/Machine/Streams.lean ====
section
/-!
DEFINITION. Operand streams of a running command: what a slot stands for, reading it with its failures, and writing output
(R125, R126, R144, R146, R147).
-/

namespace Sys2Proof.Machine

/-- The stream of a slot: its pattern's, or `n` bytes from a direct address (R112). -/
def slotStream (s : State) (x : Cmd) (i n : Nat) : Stream × State :=
  if hasPat x.pats i then patStream (patAt x.pats i) (opDisp x.desc i) s
  else (⟨[(some (faOff (descOp x.desc i)), n)], none⟩, s)

/-- Bytes of a list of runs. -/
def runsLen (l : List Run) : Nat := (l.map (·.2)).sum

/-- The runs of a list that lie in memory, as ranges. -/
def runRanges (l : List Run) : List (Nat × Nat) := l.filterMap (fun r => r.1.map (fun a => (a, r.2)))

/-- The runs of bytes `off` to `off + n − 1` of a stream. -/
def sliceRuns : List Run → Nat → Nat → List Run
  | [], _, _ => []
  | (a, k) :: t, off, n =>
    if n = 0 then []
    else if k ≤ off then sliceRuns t (off - k) n
    else
      let m := min n (k - off)
      (a.map (· + off), m) :: sliceRuns t 0 (n - m)

/-- A read of several runs of which every word is used for itself: a word that fails leaves the others their bytes, which columns
before the failing one still need (R146). -/
def readLines (pp : Bool) (runs : List Run) (s : State) : Rd × State :=
  runs.foldl (fun x r =>
    match r.1 with
    | some a => (cwPieces a r.2).foldl (fun x p =>
        let (y, s) := readPiece pp (⟨[], [], []⟩, x.2) p.1 p.2
        (x.1.append y, s)) x
    | none => (x.1.append ⟨List.replicate r.2 0, [], []⟩, x.2)) (⟨[], [], []⟩, s)

/-- A read filled up with zeros to `n` bytes, which fails where its stream's expansion did (R126). -/
def Rd.upTo (r : Rd) (n : Nat) (f : Option RdFail) : Rd :=
  let k := n - r.bytes.length
  ⟨r.bytes ++ List.replicate k 0,
    r.bad ++ (match f with
      | some f => if k = 0 then [] else [{ f with pos := r.bytes.length, len := k }]
      | none => []), r.soft⟩

/-- A slot read whole: its bytes, filled up with zeros to the stream's length, the words that failed with an expansion
failure last, and the poisoned words passed over (R126, R146, R147). -/
def readSlot (s : State) (x : Cmd) (i n : Nat) : Rd × State :=
  let (st, s) := slotStream s x i n
  let s := if x.cls < 4 then (runRanges st.runs).foldl (fun s r => meshChecker x.core s r.1) s else s
  let (r, s) := readRuns (ctlPoisonPass x.desc) st.runs s
  let total := if hasPat x.pats i then patLen (patAt x.pats i) else n
  ({ r with
      bytes := r.bytes ++ List.replicate (total - r.bytes.length) 0
      bad := r.bad ++ (match st.fail with
        | some f => [{ f with len := total - f.pos }]
        | none => []) }, s)

/-- The least of a list of numbers. -/
def minOf : List Nat → Option Nat
  | [] => none
  | a :: t => match minOf t with
    | none => some a
    | some b => some (min a b)

/-! ### Writes and the inbound tracker (R48, R49) -/

/-- The bytes of a stream write by address, none crossing a core's window; a run without an address takes its bytes nowhere. -/
def runParts : List Run → List Byte → List (Nat × List Byte)
  | [], _ => []
  | (a, n) :: rest, bs =>
    (match a with
     | some a => (cutRange 0x100000 (n + 1) a n).map (fun p => (p.1, ((bs.take n).drop (p.1 - a)).take p.2))
     | none => []) ++ runParts rest (bs.drop n)

/-- Bytes written by address. -/
def putParts (parts : List (Nat × List Byte)) (pois : Bool) (s : State) : State :=
  parts.foldl (fun s p => writeRange s p.1 p.2 pois) s

/-- The bounding range of a write in a core's SRAM. -/
def partSpan (c : Nat) (parts : List (Nat × List Byte)) : Nat × Nat :=
  ((minOf (parts.map (fun p => p.1 - sramOf c))).getD 0, (parts.map (fun p => p.1 + p.2.length - 1 - sramOf c)).foldl max 0)

/-- A write that reaches core `c` takes one range of its tracker (log entry 101) and is in flight until it commits; with 64 tracked
it waits at the mesh port, its bytes not yet in memory (R48, R49). `ack` names the packet that its commit commits. -/
def sendWrite (s : State) (c : Nat) (cmd fetch : Option Nat) (ack : Option Ack) (parts : List (Nat × List Byte)) (pois : Bool) : State :=
  let full := decide (trackerCap ≤ (s.core c).inbound.length)
  let r : InRange := { lo := (partSpan c parts).1, hi := (partSpan c parts).2, fetched := fetch.isSome, eng := fetch.getD 0,
                       done := false, cmd := cmd, parts := if full then parts else [], pois := pois, ack := ack }
  let s := if full then s else putParts parts pois s
  s.modCore c (fun x => { x with inbound := x.inbound ++ [r] })

/-- Bytes written to memory: to the plates at once, to cores' SRAM through their trackers. -/
def sendParts (s : State) (cmd : Option Nat) (fetch : Nat → Option Nat) (ack : Option Ack) (parts : List (Nat × List Byte)) (pois : Bool) :
    State :=
  let here := parts.filter (fun p => isSram p.1 && !p.2.isEmpty)
  ((here.map (fun p => sramCore p.1)).eraseDups).foldl (fun s c =>
    sendWrite s c cmd (fetch c) ack (here.filter (fun p => sramCore p.1 == c)) pois)
    (putParts (parts.filter (fun p => !isSram p.1)) pois s)

/-- Is a write whose commit a packet waits for still in flight. -/
def ackWaits (s : State) (a : Ack) : Bool := s.cores.any (fun e => e.2.inbound.any (fun r => r.ack == some a))

/-- Has every write of a command been committed. -/
def writesDone (s : State) (id : Nat) : Bool := s.cores.all (fun e => e.2.inbound.all (fun r => r.cmd != some id))

/-- Bytes written by a command to a list of runs; they are marked poisoned where the command has failed, and noted so that its
completion can mark them (R144). What a local DMA engine writes to its own core is a fetch (R48). -/
def emit (s : State) (id : Nat) (runs : List Run) (bs : List Byte) (ack : Option Ack := none) : State :=
  let x := s.cmd id
  let runs := combineRuns runs
  let s := if x.cls < 4 then (runRanges runs).foldl (fun s r => meshChecker x.core s r.1) s else s
  let fetch (c : Nat) : Option Nat := if x.cls = 2 ∧ c = x.core then some x.inst else none
  (sendParts s (some id) fetch ack (runParts runs bs) (x.status != 0)).modCmd id (fun x => { x with outs := x.outs ++ runRanges runs })

/-- A command's whole output to a slot: an expansion that fails ends the writing there with its status (R126). -/
def emitSlot (s : State) (id i : Nat) (bs : List Byte) : State :=
  let x := s.cmd id
  let (st, s) := slotStream s x i bs.length
  let s := match st.fail with
    | some f => s.modCmd id (fun x => x.failWith f.status i f.src)
    | none => s
  emit s id st.runs bs

/-- Failures of a read in the order found, as status, slot and source. -/
def Rd.fails (r : Rd) (slot : Nat) : List (Nat × Nat × Option (Nat × Nat)) :=
  (sortBy (fun (a b : RdFail) => decide (a.pos ≤ b.pos)) (r.bad ++ r.soft)).map (fun f => (f.status, slot, f.src))

end Sys2Proof.Machine
end

