-- ==== Sys2Proof/Machine/Array.lean ====
section
/-!
DEFINITION. The matrix arrays: issue, feed, accumulation, drain, the burnisher and shading (R37 to R53, R77 to R88, R91, R98 to
R105, R466).
-/

namespace Sys2Proof.Machine

/-! ### Operand layouts -/

/-- Columns fed from one buffer of the stationary store, which is one slice of the weights (R39, R79). -/
def Mat.span (m : Mat) : Nat := m.perSlice * m.n

/-- Columns of the whole command, over all K-tiles (R40). -/
def Mat.total (m : Mat) : Nat := m.tiles * m.n

/-- K-tiles in buffer `b` of a command. -/
def Mat.bufTiles (m : Mat) (b : Nat) : Nat := min m.perSlice (m.tiles - b * m.perSlice)

/-- Bytes a token has in buffer `b`: its scale byte under a Microscaling format, and its elements (R39). -/
def Mat.tokScale (m : Mat) : Nat := if isMx m.sf then 1 else 0
def Mat.tokElems (m : Mat) (b : Nat) : Nat := m.bufTiles b * m.tile * elemBits m.sf / 8
def Mat.tokBytes (m : Mat) (b : Nat) : Nat := m.tokScale + m.tokElems b

/-- The runs of a stationary stream that fill buffer `b` of the command's `k`-th array: each of its 16 tokens' scale byte and
elements (R39, R78). -/
def bufRuns (m : Mat) (st : List Run) (k b : Nat) : List Run :=
  combineRuns ((List.range 16).flatMap (fun t =>
    let row := (16 * k + t) * rowBytes m.sf m.k
    (if isMx m.sf then sliceRuns st (row + b) 1 else [])
      ++ sliceRuns st (row + scaleSec m.sf m.k + 4 * b * elemBits m.sf) (m.tokElems b)))

/-- Feed position, K-tile × N + column, of the first column that uses byte `o` of buffer `b`. -/
def statPos (m : Mat) (b o : Nat) : Option Nat :=
  let p := o % m.tokBytes b
  let tile := if p < m.tokScale then 0 else (p - m.tokScale) * 8 / elemBits m.sf / m.tile
  some (b * m.span + tile * m.n)

/-- Feed position of the first column that uses byte `o` of slice `b` of the weights (R79): scale byte n serves column n; padding
serves none. -/
def weightPos (m : Mat) (b o : Nat) : Option Nat :=
  if o < m.wscale then (if o < m.n then some (b * m.span + o) else none)
  else some (b * m.span + (o - m.wscale) / m.piece)

/-- The first of the positions at which the bytes of a failing word are used; `dflt` where none is. -/
def failPos (f : RdFail) (pos : Nat → Option Nat) (dflt : Nat) : Nat :=
  (minOf ((List.range f.len).filterMap (fun i => pos (f.pos + i)))).getD dflt

/-- Failures of an operand read by feed position. A failing word that no column uses stops what follows position `dflt` (log
entry 108). -/
def readFails (r : Rd) (slot : Nat) (pos : Nat → Option Nat) (dflt : Nat) : List ArrFail :=
  r.bad.map (fun f => ⟨failPos f pos dflt, slot, f.status, slot, f.src, true⟩)
    ++ r.soft.map (fun f => ⟨failPos f pos dflt, slot, f.status, slot, f.src, false⟩)

def ArrFail.le (a b : ArrFail) : Bool := decide (a.pos < b.pos) || (a.pos == b.pos && decide (a.rank ≤ b.rank))

/-- Failures up to the first that stops the use of input. -/
def toStop : List ArrFail → List ArrFail
  | [] => []
  | f :: t => if f.stop then [f] else f :: toStop t

/-- The feed reaches the failures it knows before position `lim`, in order of position (R547, log entry 24): they enter the command, and
after one that stops it the array feeds zero columns. -/
def Cmd.meet (x : Cmd) (lim : Nat) : Cmd :=
  let l := toStop (sortBy ArrFail.le (x.found.filter (fun f => decide (f.pos < lim))))
  let x := x.failAll (l.map (fun f => (f.status, f.detail, f.src)))
  let z := l.any (·.stop)
  { x with zero := x.zero || z, found := if z then [] else x.found.filter (fun f => decide (lim ≤ f.pos)) }

/-- The position at which the known failures stop the feed, if before `lim`. -/
def Cmd.stopAt (x : Cmd) (lim : Nat) : Nat := (minOf ((x.found.filter (·.stop)).map (·.pos))).elim lim (min lim)

/-- A 2:4 metadata nibble (R98): indices of the group's two stored elements. -/
def metaFirst (w g : Nat) : Nat := (w >>> (4 * g)) % 4
def metaSecond (w g : Nat) : Nat := (w >>> (4 * g + 2)) % 4
def metaBad (w : Nat) : Bool := (List.range 8).any (fun g => decide (metaSecond w g ≤ metaFirst w g))

/-- A column piece of the weight stream: its 16 values, metadata and scale byte. -/
structure Piece where
  vals : List Nat
  mask : Nat
  scale : Nat
deriving DecidableEq, Repr

/-- The column piece of column `col` of the `j`-th K-tile of a slice (R73, R79, R98). -/
def pieceAt (m : Mat) (w : List Byte) (j col : Nat) : Piece :=
  let bs := (w.drop (m.wscale + (j * m.n + col) * m.piece)).take m.piece
  { vals := unpackBits (elemBits m.wf) 16 (if m.sparse then bs.drop 4 else bs),
    mask := if m.sparse then leAt bs 0 4 else 0,
    scale := if isMx m.wf then leAt w col 1 else 127 }

/-- The 16 stationary codes a piece multiplies for token `t`, and the scale byte of their block, from buffer `b` (R39, R98). -/
def stationAt (m : Mat) (buf : List Byte) (b t j mask : Nat) : List Nat × Nat :=
  let row := buf.drop (t * m.tokBytes b)
  let w := elemBits m.sf
  -- a K-tile of 16 or 32 elements starts on a byte boundary in every format
  let codes := unpackBits w m.tile ((row.drop (m.tokScale + j * m.tile * w / 8)).take (m.tile * w / 8))
  let sel := if m.sparse then
      (List.range 8).flatMap (fun g => [codes.getD (4 * g + metaFirst mask g) 0, codes.getD (4 * g + metaSecond mask g) 0])
    else codes
  (sel, if isMx m.sf then leAt row 0 1 else 127)

/-! ### Products and accumulation (R82 to R88) -/

/-- The tree sum of exact products (R83, R88): magnitudes cut 27 bits below the leading bit of the largest. -/
def treeSum (ps : List Num) : Num :=
  if ps.any (·.isNan) then .nan
  else
    let infs := ps.filter (fun p => match p with | .inf _ => true | _ => false)
    match infs with
    | p :: rest => if rest.any (· != p) then .nan else p
    | [] =>
      let nz := ps.filterMap (fun p => match p with | .fin n m e => if m = 0 then none else some (n, m, e) | _ => none)
      match nz with
      | [] => .fin (ps.all (·.isNeg)) 0 0
      | (n0, m0, e0) :: t =>
        let top := t.foldl (fun a p => max a (ilog p.2.1 p.2.2)) (ilog m0 e0)
        let q := top - 27
        .ofInt (((n0, m0, e0) :: t).foldl (fun a p =>
          let k : Int := magAt p.2.1 p.2.2 q
          if p.1 then a - k else a + k) 0) q

/-- An accumulator entry after a K-tile, floating (R84, R88) or integer (R86). -/
def accumulate (m : Mat) (acc : Word) (p : Piece) (codes : List Nat) (sa : Nat) : Word :=
  let sk := kindOf m.sf
  let wk := kindOf m.wf
  let pairs := codes.zip p.vals
  if m.kind = 2 then
    let t : Int := (pairs.map (fun x => sext 8 x.1 * sext 8 x.2)).foldl (· + ·) 0
    BitVec.ofInt 32 (clampInt 32 (acc.toInt + t))
  else
    let t := treeSum (pairs.map (fun x => (decodeElem sk x.1).mul (decodeElem wk x.2)))
    let t := if sa = 0xFF ∨ p.scale = 0xFF then .nan else t.scale ((sa : Int) + p.scale - 254)
    BitVec.ofNat 32 (toF32 ((f32 acc.toNat).add t))

/-- One column fed to one array from its buffer: 16 accumulator entries. -/
def feedColumn (m : Mat) (buf : List Byte) (b j col : Nat) (p : Piece) (vals : SMap Word) : SMap Word :=
  (List.range 16).foldl (fun v t =>
    let (codes, sa) := stationAt m buf b t j p.mask
    smMod 0 v (128 * t + col) (fun a => accumulate m a p codes sa)) vals

/-- `n` positions from `pos` on, counted within slice `b`, fed from its weight bytes and the arrays' buffers up to the first bad
metadata nibble: the banks' entries, one map for each array, and the position of the nibble (R85, R99). -/
def feedRange (m : Mat) (bufs : List (List Byte)) (w : List Byte) (b : Nat) : Nat → Nat → List (SMap Word) →
    List (SMap Word) × Option Nat
  | 0, _, vs => (vs, none)
  | n + 1, pos, vs =>
    let p := pieceAt m w (pos / m.n) (pos % m.n)
    if m.sparse && metaBad p.mask then (vs, some pos)
    else
      feedRange m bufs w b n (pos + 1)
        (vs.mapIdx (fun i v => feedColumn m (bufs.getD i []) b (pos / m.n) (pos % m.n) p v))

/-! ### State of an array command -/

def State.setBank (s : State) (c a b : Nat) (x : Bank) : State :=
  s.modArr c a (fun r => if b = 0 then { r with bankA := x } else { r with bankB := x })

/-- The banks of a command's arrays with new entries. -/
def putBanks (s : State) (c : Nat) (m : Mat) (vs : List (SMap Word)) : State :=
  ((m.arrays.zip vs).foldl (fun s p => s.setBank c p.1 m.bank { s.bank c p.1 m.bank with vals := p.2 }) s)

def getBanks (s : State) (c : Nat) (m : Mat) : List (SMap Word) := m.arrays.map (fun a => (s.bank c a m.bank).vals)

/-- A command that clears its bank sets every entry to zero and the bank's kind (R44, R87). -/
def clearBanks (s : State) (c : Nat) (m : Mat) : State :=
  if m.acc then s else m.arrays.foldl (fun s a => s.setBank c a m.bank ⟨m.kind, []⟩) s

/-- Core cycles of one column's feed, in halves (R40). -/
def halfCycles (m : Mat) : Nat :=
  match arrMode m.sf m.wf with
  | some 0 => 4
  | some 2 => 1
  | _ => 2

/-- `n` more columns of a command have entered the feeder: FEED_CYC of its arrays (R55). -/
def countFeed (s : State) (id n : Nat) : State :=
  let x := s.cmd id
  let m := matOf x.desc x.pats
  let k := (x.fed + n) * halfCycles m / 2 - x.fed * halfCycles m / 2
  (m.arrays.foldl (fun s a => s.bumpBy (pgArr x.core) a k) s).modCmd id (fun x => { x with fed := x.fed + n })

/-- The buffer of an array that feeds. -/
def ArrSt.feeding (a : ArrSt) : List Byte := if a.turn = 0 then a.buf0 else a.buf1

/-- Buffer `b` of the command's `k`-th array loads (R39): what the read and the store's parity check (ARR source 1) found. -/
def loadBuffer (b id : Nat) (s : State) (k : Nat) : State :=
  let x := s.cmd id
  let m := matOf x.desc x.pats
  let (inj, s) := takeCrcInjection s (pgArr x.core) 1
  let (r, s) := readLines (ctlPoisonPass x.desc) (bufRuns m x.stat k b) s
  let r := r.upTo (16 * m.tokBytes b) x.statFail
  let s := s.modArr x.core (m.arrays.getD k 0) (fun y =>
    if y.turn = 0 then { y with buf0 := r.bytes } else { y with buf1 := r.bytes })
  let par : List ArrFail := if inj then [⟨b * m.span, 0, 4, 0, some (pgArr x.core, 1), true⟩] else []
  s.modCmd id (fun x => { x with found := x.found ++ readFails r 0 (statPos m b) (b * m.span) ++ par })

/-- The feeder reads slice `b` of weights that are not compressed (R79). -/
def loadSlice (s : State) (id b : Nat) : State :=
  let x := s.cmd id
  let m := matOf x.desc x.pats
  let n := min m.slice (m.weightLen - b * m.slice)
  let (r, s) := readLines (ctlPoisonPass x.desc) (sliceRuns x.wts (b * m.slice) n) s
  let r := r.upTo n x.wtsFail
  s.modCmd id (fun x => { x with
    wbuf := r.bytes, found := x.found ++ readFails r 1 (weightPos m b) ((b + 1) * m.span) })

/-- The loads that precede the first column of slice `b`. -/
def loadSpan (s : State) (id b : Nat) : State :=
  let x := s.cmd id
  let m := matOf x.desc x.pats
  let s := (List.range m.arrays.length).foldl (loadBuffer b id) s
  if m.comp then s else loadSlice s id b

/-- After a slice's last column the other buffer of each array feeds (R41). -/
def turnBuffers (s : State) (id : Nat) : State :=
  let x := s.cmd id
  (matOf x.desc x.pats).arrays.foldl (fun s a => s.modArr x.core a (fun r => { r with turn := 1 - r.turn })) s

/-- Columns of positions `lo` to `lo + n − 1`, all of one slice, are fed: with real values up to the first failure that stops them,
and then as zero columns (R99, R146). -/
def feedPart (s : State) (id lo n : Nat) : State :=
  let m := matOf (s.cmd id).desc (s.cmd id).pats
  let b := lo / m.span
  let s := if lo % m.span = 0 ∧ !(s.cmd id).zero then loadSpan s id b else s
  let x := s.cmd id
  let s := if x.zero then s
    else
      let w := if m.comp then (x.wbuf.drop (b * m.slice)).take m.slice else x.wbuf
      let bufs := m.arrays.map (fun a => ((s.core x.core).arr a).feeding)
      let (vs, bad) := feedRange m bufs w b (x.stopAt (lo + n) - lo) (lo % m.span) (getBanks s x.core m)
      let nib : List ArrFail := match bad with
        | some p => [⟨b * m.span + p, 3, 8, 0x101, none, true⟩]
        | none => []
      (putBanks s x.core m vs).modCmd id (fun x => { x with found := x.found ++ nib }.meet (lo + n))
  let s := if (lo + n) % m.span = 0 then turnBuffers s id else s
  countFeed s id n

/-- Columns of positions `lo` to `lo + n − 1` of a command are fed, slice by slice. The first argument bounds their number. -/
def feedSpan (id : Nat) : Nat → Nat → Nat → State → State
  | 0, _, _, s => s
  | f + 1, lo, n, s =>
    if n = 0 then s
    else
      let span := (matOf (s.cmd id).desc (s.cmd id).pats).span
      let k := min n (span - lo % span)
      feedSpan id f (lo + k) (n - k) (feedPart s id lo k)

/-- The feed of a command ends: its last buffer gives way to the other, into which the next command's first load goes (R41, R47); a
failure that no column used counts now, and the array's gap may begin (R45, R53). -/
def endFeed (s : State) (id : Nat) : State :=
  let x := s.cmd id
  let m := matOf x.desc x.pats
  let s := if (m.slices - x.fed / m.span) % 2 = 1 then turnBuffers s id else s
  let s := countFeed s id (m.total - x.fed)
  let s := s.modCmd id (fun x => { x.meet (m.total + m.span + 1) with ran := true, left := 0 })
  (arraysOf x.inst).foldl (fun s a => s.modArr x.core a (fun r => { r with gap := true })) s

/-- The first feed of a command: streams expanded, banks cleared, and, unless its weights are compressed, every column fed
(R40, R44, R146). -/
def startFeed (s : State) (id : Nat) : State :=
  let x := s.cmd id
  let m := matOf x.desc x.pats
  let s := m.arrays.foldl (fun s a => s.modArr x.core a (fun r => { r with shade := .idle, density := 0, gap := false })) s
  let s := clearBanks s x.core m
  let (st, s) := slotStream s x 0 0
  let (wt, s) := slotStream s x 1 0
  let (out, s) := if m.drain then slotStream s x 2 0 else (⟨[], none⟩, s)
  let s := s.modCmd id (fun x => { x with
    sent := 1, stat := st.runs, statFail := st.fail, wts := wt.runs, wtsFail := wt.fail, oruns := out.runs, ofail := out.fail })
  if m.comp then s.modCmd id (fun x => { x with left := patLen (patAt x.pats 1) / 4096 })
  else endFeed (feedSpan id (m.slices + 1) 0 m.total s) id

/-! ### Shading (R53, R466) -/

/-- Effective throttle step of a die (R453). -/
def effStep (s : State) (die : Nat) : Nat := s.fld pgPwr (PWR_STEP_EFF.at (4 * die))
def clampStep (s : State) (die : Nat) : Nat := s.fld pgPwr (PWR_STEP_CLAMP.at (4 * die))

/-- The highest density shading may have, in quarters (R466). -/
def shadeCap (s : State) (c : Nat) : Nat :=
  if clampStep s (c / 288) ≠ 0 then 0
  else if effStep s (c / 288) = 0 then 4
  else if effStep s (c / 288) ≤ 3 then 2
  else 0

/-- Full density ends: the density falls a step at a time, or shading stops at once (R53 rule 2). -/
def beginRampDown (s : State) (c a : Nat) : State :=
  if s.flag (pgArr c) ARR_SHADE_CTRL_RAMP_DOWN then s.modArr c a (fun r => { r with shade := .down, density := r.density - 1 })
  else s.modArr c a (fun r => { r with shade := .idle, density := 0 })

/-- SHADE_CTRL.EN is cleared: the core's arrays run no shading (R53). -/
def stopShading (s : State) (c : Nat) : State :=
  (List.range 4).foldl (fun s a => s.modArr c a (fun r => { r with shade := .idle, density := 0 })) s

/-- Is an array command of this array in the window (R53 rule 1). -/
def windowNames (s : State) (c a : Nat) : Bool :=
  (s.core c).window.any (fun e => descOpcode e.desc == 0x10 && (arraysOf (descInst e.desc)).contains a)

/-- The arrays a command names need a ramp-up before its first feed (R53 rule 3). An array whose feed has just ended is at full
density. -/
def rampNeeded (s : State) (id : Nat) : Bool :=
  let x := s.cmd id
  let c := x.core
  s.flag (pgArr c) ARR_SHADE_CTRL_EN && s.flag (pgArr c) ARR_SHADE_CTRL_RAMP_UP && ctlShadeOk x.desc
    && (arraysOf x.inst).any (fun a => !((s.core c).arr a).gap && decide (((s.core c).arr a).density < shadeCap s c))

/-- The ramp-up of every array of a command that is not ramping yet begins with its first step. -/
def beginRampUp (s : State) (id : Nat) : State :=
  let x := s.cmd id
  (arraysOf x.inst).foldl (fun s a =>
    let r := (s.core x.core).arr a
    if r.shade = .up ∨ r.gap ∨ shadeCap s x.core ≤ r.density then s
    else s.modArr x.core a (fun r => { r with shade := .up, density := r.density + 1 })) s

/-- The first command of an array's queue whose feed has not ended, none behind one that is still feeding. -/
def nextFeed (s : State) (c a : Nat) : Option Nat :=
  (((s.core c).arr a).queue.filter (fun id => descOpcode (s.cmd id).desc == 0x10 && !(s.cmd id).ran)).head?

/-! ### The commands -/

/-- MATMUL issues into the queue of every array it names (R47, R118). -/
def doMatmul (c : CoreId) (s : State) : State := issueOp s c 0x10 (fun s e => checkMatmul s c e) (push c)

/-- A queued array command starts to feed when every array it names is free, awake and, where shading asks for it, has
ramped up (R46, R47, R53). -/
def doArrayFeedStart (c : CoreId) (a : ArrId) (s : State) : State :=
  match if s.running then nextFeed s c a else none with
  | none => s
  | some id =>
    let arrs := arraysOf (s.cmd id).inst
    if (s.cmd id).sent ≠ 0 || arrs.any (fun b => nextFeed s c b != some id || ((s.core c).arr b).power != 0) then s
    else if rampNeeded s id then beginRampUp s id
    else startFeed (coreChecker s 9 c (s.cmd id).inst) id

/-- The bytes of column `n` of the bank of array index `k` of a command, converted (R45, R90, R91). -/
def drainBytes (s : State) (x : Cmd) (m : Mat) (a n : Nat) : List Byte :=
  let vals := (s.bank x.core a m.bank).vals
  let f := patFmt (patAt x.pats 2)
  let cvt := opParam x.desc 2
  let conv (w : Word) : Nat :=
    if m.kind = 2 then
      if f = 4 then (encodeInt 8 0 (cvt % 4) 0 (.ofInt w.toInt (-(natBits cvt 8 4 : Nat)))).1 else w.toNat
    else (encodeElem (kindOf f) (cvt % 4) 0 (cvt.testBit 2) (f32 w.toNat)).1
  packBits (elemBits f) ((List.range 16).map (fun t => conv (smGet 0 vals (128 * t + n))))

/-- One column of one array of a command drains (R45): its converted bytes go to their place in the output stream. The
parity of the accumulators is checked there (ARR source 0), as is the residue of the datapath (FLT source 6). -/
def drainColumn (s : State) (id k : Nat) : State :=
  let x := s.cmd id
  let m := matOf x.desc x.pats
  let a := m.arrays.getD k 0
  let s := coreChecker s 6 x.core a
  let n := if k = 0 then x.drained else x.drainedOdd
  let (inj, s) := takeCrcInjection s (pgArr x.core) 0
  let s := if inj then s.modCmd id (fun x => x.failWith 4 2 (some (pgArr x.core, 0))) else s
  let cb := Mat.colBytes (patFmt (patAt x.pats 2))
  let off := (k * m.n + n) * cb
  let s := match x.ofail with
    | some f => if f.pos < off + cb then s.modCmd id (fun x => x.failWith f.status 2 f.src) else s
    | none => s
  let s := emit s id (sliceRuns x.oruns off cb) (drainBytes s x m a n)
  s.modCmd id (fun x => if k = 0 then { x with drained := n + 1 } else { x with drainedOdd := n + 1 })

/-- The next command of an array that has a column whose final update is available, and the array's index within it (R45): column n
of the last K-tile has been fed. -/
def nextDrain (s : State) (c a : Nat) : Option (Nat × Nat) :=
  (((s.core c).arr a).queue.filterMap (fun id =>
    let x := s.cmd id
    let m := matOf x.desc x.pats
    let k := if m.arrays.getD 0 0 = a then 0 else 1
    let col := if k = 0 then x.drained else x.drainedOdd
    if descOpcode x.desc == 0x10 && m.drain && decide (col < m.n) && decide ((m.tiles - 1) * m.n + col < x.fed)
    then some (id, k) else none)).head?

def doArrayColumnDrain (c : CoreId) (a : ArrId) (s : State) : State :=
  match if s.running then nextDrain s c a else none with
  | none => s
  | some (id, k) => drainColumn s id k

/-! ### The burnisher (R100 to R105) -/

/-- Code lengths of the symbols of a block (R103). -/
def codeLens (bits : Nat) (bs : List Byte) : List Nat := unpackBits 4 (2 ^ bits) bs

/-- Do the code lengths obey R103. -/
def lensOk (bits : Nat) (ls : List Nat) : Bool :=
  let maxLen := if bits = 4 then 8 else 15
  let present := ls.filter (· != 0)
  ls.all (· ≤ maxLen)
    && (if present.length = 1 then present == [1]
        else (present.map (fun l => 2 ^ (15 - l))).sum == 2 ^ 15)

/-- Canonical codes (R104): length, code and symbol of each present symbol, in order. -/
def canonical : Nat → Nat → List (Nat × Nat) → List (Nat × Nat × Nat)
  | _, _, [] => []
  | prevLen, code, (l, y) :: t =>
    let code := code * 2 ^ (l - prevLen)
    (l, code, y) :: canonical l (code + 1) t

/-- Symbols sorted by length, then by value, each length at most 15. -/
def sortedSyms (ls : List Nat) : List (Nat × Nat) :=
  (List.range 16).flatMap (fun l =>
    if l = 0 then [] else (ls.mapIdx (fun y k => (k, y))).filter (fun p => p.1 == l))

/-- One symbol read from bit `pos` of a bit string of `n` bits: the symbol and the next bit. The first argument bounds the
code length. -/
def readSym (tab : List (Nat × Nat × Nat)) (x n : Nat) : Nat → Nat → Nat → Nat → Option (Nat × Nat)
  | 0, _, _, _ => none
  | f + 1, pos, len, code =>
    if n ≤ pos then none
    else
      let code := 2 * code + (x.testBit pos).toNat
      match tab.find? (fun t => t.1 == len + 1 && t.2.1 == code) with
      | some t => some (t.2.2, pos + 1)
      | none => readSym tab x n f (pos + 1) (len + 1) code

/-- `k` symbols from bit `pos` up, each with the bit after it; fewer where the bits run out. -/
def readSyms (tab : List (Nat × Nat × Nat)) (x n : Nat) : Nat → Nat → List (Nat × Nat)
  | 0, _ => []
  | k + 1, pos =>
    match readSym tab x n 16 pos 0 0 with
    | none => []
    | some (y, p) => (y, p) :: readSyms tab x n k p

/-- A block of a compressed stream, as its header names it (R101). -/
structure BlockHdr where
  flags : Nat
  firstPiece : Nat
  nPieces : Nat
  scaleLen : Nat
  metaLen : Nat
  codeLen : Nat
  codeBits : Nat
  expLen : Nat
  crc : Nat
deriving DecidableEq, Repr

def blockHdr (b : List Byte) : BlockHdr :=
  { flags := leAt b 3 1, firstPiece := leAt b 6 2, nPieces := leAt b 8 2, scaleLen := leAt b 10 2, metaLen := leAt b 12 2,
    codeLen := leAt b 14 2, codeBits := leAt b 16 4, expLen := leAt b 20 4, crc := leAt b 24 4 }

/-- Sizes of the pieces of the command in order, a slice's scale section included where the format has one: the piece's
index in its slice (R101) and its bytes. -/
def pieceSizes (m : Mat) : List (Nat × Nat) :=
  (List.range m.slices).flatMap (fun sl =>
    let cols := min m.perSlice (m.tiles - sl * m.perSlice) * m.n
    (if m.wscale = 0 then [] else [(0, m.wscale)]) ++ (List.range cols).map (fun i => (i + 1, m.piece)))

/-- Pieces already complete in `n` expanded bytes. -/
def piecesDone (m : Mat) : List (Nat × Nat) → Nat → Nat
  | [], _ => 0
  | (_, b) :: t, n => if b ≤ n then 1 + piecesDone m t (n - b) else 0

/-- The content of coded pieces put together from scale bytes, metadata bytes and symbols (R102, R104); what the block does not hold
stands as zeros. -/
def assemble (m : Mat) : List (Nat × Nat) → List Byte → List Byte → List Nat → List Byte
  | [], _, _, _ => []
  | (i, b) :: t, sc, me, sy =>
    if i = 0 then
      let x := sc.take m.n
      x ++ List.replicate (b - x.length) 0 ++ assemble m t (sc.drop m.n) me sy
    else
      let h := if m.sparse then (List.range 4).map (fun k => me.getD k 0) else []
      h ++ packBits (elemBits m.wf) ((List.range 16).map (fun k => sy.getD k 0)) ++ assemble m t sc (if m.sparse then me.drop 4 else me) (sy.drop 16)

/-- What the check of a block gives: the number of the failed check (R105) and the byte of the block at which it is found, the
expanded content, the bits at which each symbol ends, and the bytes at which the scale, metadata and coded sections start. -/
structure BlockOut where
  fail : Option (Nat × Nat)
  content : List Byte
  ends : List Nat
  scaleAt : Nat
  metaAt : Nat
  codeAt : Nat
deriving DecidableEq, Repr

/-- The first of the checks that failed: the one found at the lowest byte of the block, the lower number first among equals. -/
def firstCheck (l : List (Bool × Nat × Nat)) : Option (Nat × Nat) :=
  ((sortBy (fun a b => decide (a.2.2 < b.2.2) || (a.2.2 == b.2.2 && decide (a.2.1 ≤ b.2.1))) (l.filter (·.1))).head?).map (·.2)

/-- A block checked and expanded against the pieces that are still to come (R101 to R105). `last` says that no block follows. The
header's checks are found at byte 32, the table's at its end, the codes' at theirs, and the rest at the block's end (log entries 24
and 102). Bits [7:5] of FMT and [7:1] of FLAGS fail check 1, CODE_BITS of a raw block is not looked at, and CODE_LEN may be longer than
CODE_BITS needs (log entry 119). -/
def expandBlock (m : Mat) (ofmt : Nat) (todo : List (Nat × Nat)) (last : Bool) (b : List Byte) : BlockOut :=
  let h := blockHdr b
  let eb := elemBits m.wf
  let ps := todo.take h.nPieces
  let exp := (ps.map (·.2)).sum
  let cols := countIf (fun p => p.1 != 0) ps
  let raw := h.flags % 2 = 1
  let tabLen := if eb = 4 then 8 else if eb = 6 then 32 else 128
  let tab := (b.drop 32).take tabLen
  let ls := codeLens eb tab
  let s0 := 32 + tabLen
  let m0 := s0 + h.scaleLen
  let c0 := m0 + h.metaLen
  let used := if raw then 32 + h.expLen else c0 + h.codeLen
  let syms := if raw then []
    else readSyms (canonical 0 0 (sortedSyms ls)) (leNat ((b.drop c0).take h.codeLen)) (min h.codeBits (8 * h.codeLen))
      (16 * cols) 0
  let content := if raw then (b.drop 32).take h.expLen
    else assemble m ps ((b.drop s0).take h.scaleLen) ((b.drop m0).take h.metaLen) (syms.map (·.1))
  let hdr := leAt b 0 1 != 0xB7 || leAt b 1 1 != 1 || h.flags ≥ 2 || leAt b 5 1 != 0 || leAt b 28 4 != 0 || leAt b 2 1 ≥ 32
  let fmt := leAt b 2 1 % 32 != ofmt % 32 || leAt b 4 1 != m.n
  let order := some h.firstPiece != (todo.head?).map (·.1)
  let lens := h.nPieces = 0 || 4096 < used || exp != h.expLen || (raw && 4064 < h.expLen)
    || (if raw then h.scaleLen != 0 || h.metaLen != 0 || h.codeLen != 0
        else h.scaleLen != countIf (fun p => p.1 == 0) ps * m.n || h.metaLen != (if m.sparse then 4 * cols else 0)
          || 8 * h.codeLen < h.codeBits)
  let tooMany := decide (todo.length < h.nPieces)
  let bits := !raw && (decide (syms.length < 16 * cols) || ((syms.getLast?).map (·.2)).getD 0 != h.codeBits)
  { fail := firstCheck [(hdr, 1, 32), (fmt, 2, 32), (order, 3, 32), (!tooMany && lens, 4, 32), (tooMany, 7, 32),
      (!raw && !lensOk eb ls, 5, s0), (bits, 6, c0 + h.codeLen), (!((b.drop used).all (· == 0)), 1, 4096),
      ((last && h.nPieces < todo.length) || (!last && todo.length ≤ h.nPieces), 7, 4096),
      ((crc32c content).toNat != h.crc, 8, 4096)],
    content := content, ends := syms.map (·.2), scaleAt := s0, metaAt := m0, codeAt := c0 }

/-- Column pieces among the first `n` pieces of a list. -/
def colsIn (ps : List (Nat × Nat)) (n : Nat) : Nat := countIf (fun p => p.1 != 0) (ps.take n)

/-- Columns that come before the scale piece number `k` of a list of pieces. -/
def colsToScale (ps : List (Nat × Nat)) (k : Nat) : Nat :=
  colsIn ps ((((ps.mapIdx (fun i p => (i, p))).filter (fun p => p.2.1 == 0)).map (·.1)).getD k ps.length)

/-- Columns before the first that byte `o` of the expanded content serves (R79). -/
def contentCol (m : Mat) : List (Nat × Nat) → Nat → Nat
  | [], _ => 0
  | (i, b) :: t, o =>
    if o < b then (if i = 0 then (if o < m.n then o else m.span) else 0)
    else contentCol m t (o - b) + (if i = 0 then 0 else 1)

/-- Columns of a block before the first that its byte `o` serves: of a raw block by its content, else header and table serve
every column, scale and metadata bytes theirs, and codes the columns they complete (R102, R146). -/
def blockCol (m : Mat) (ps : List (Nat × Nat)) (x : BlockOut) (raw : Bool) (o : Nat) : Nat :=
  if raw then (if o < 32 then 0 else contentCol m ps (o - 32))
  else if o < x.scaleAt then 0
  else if o < x.metaAt then colsToScale ps ((o - x.scaleAt) / m.n) + (o - x.scaleAt) % m.n
  else if o < x.codeAt then (o - x.metaAt) / 4
  else countIf (fun e => decide (e ≤ 8 * (o - x.codeAt))) x.ends / 16

/-- The failed check of a block, unless a word that fails lies before the byte at which it is found: status, DETAIL and feed
position. How many of the columns that had their codes fed before a check found late is left free (log entry 24). -/
def blockCheck (s : State) (c pos cols : Nat) (o : BlockOut) (raw : Bool) (bad : List RdFail) : List ArrFail × State :=
  match o.fail with
  | none => ([], s)
  | some (k, at_) =>
    if bad.any (fun f => decide (f.pos < at_)) then ([], s)
    else
      let ready := if at_ ≤ o.scaleAt then 0 else if raw then cols else min cols (o.ends.length / 16)
      let (fed, s) := if ready = 0 then (0, s) else s.freeNat (ready + 1)
      ([⟨pos + fed, 2, if k = 8 then 4 else 8, if k = 8 then 1 else 0x110 + k, some (pgArr c, 3), true⟩], s)

/-- The end of a block (R105): the block is checked and its columns are fed; after the first failure zero columns are fed for the
rest of the command. -/
def blockEnd (s : State) (id : Nat) : State :=
  let x := s.cmd id
  let m := matOf x.desc x.pats
  let all := pieceSizes m
  let done := piecesDone m all x.wbuf.length
  let todo := all.drop done
  let pos := colsIn all done
  let (r, s) := readLines (ctlPoisonPass x.desc) (sliceRuns x.wts (4096 * x.blocks) 4096) s
  let r := r.upTo 4096 x.wtsFail
  let (inj, s) := takeCrcInjection s (pgArr x.core) 3
  let h := blockHdr r.bytes
  let raw := decide (h.flags % 2 = 1)
  let o := expandBlock m (patOfmt (patAt x.pats 1)) todo (x.left == 1) r.bytes
  let o := if inj && o.fail.isNone then { o with fail := some (8, 4096) } else o
  let cols := colsIn todo h.nPieces
  let reads := readFails r 1 (fun b => some (pos + min cols (blockCol m (todo.take h.nPieces) o raw b))) pos
  let (checks, s) := blockCheck s x.core pos cols o raw r.bad
  let s := s.modCmd id (fun x => { x with
    wbuf := x.wbuf ++ o.content, blocks := x.blocks + 1, left := x.left - 1, found := x.found ++ reads ++ checks })
  let s := feedSpan id (cols + 1) pos cols s
  -- a failure at the block's very end is reached before the next block is read
  let s := if (reads ++ checks).any (·.stop) then s.modCmd id (fun x => x.meet (pos + cols + 1)) else s
  if (s.cmd id).zero || (s.cmd id).left == 0 then endFeed s id else s

def doBurnisherBlockEnd (c : CoreId) (a : ArrId) (s : State) : State :=
  match if s.running then nextFeed s c a else none with
  | none => s
  | some id =>
    let x := s.cmd id
    if (matOf x.desc x.pats).comp && x.sent != 0 && x.left != 0 then blockEnd s id else s

/-! ### Gaps -/

/-- A gap begins after the last feed of an array (R53): full density while a descriptor for the array is in the window,
else the ramp-down. -/
def doArrayGapBegin (c : CoreId) (a : ArrId) (s : State) : State :=
  let r := (s.core c).arr a
  if !r.gap then s
  else
    let s := s.modArr c a (fun r => { r with gap := false })
    if !s.flag (pgArr c) ARR_SHADE_CTRL_EN || r.power != 0 || shadeCap s c = 0 && clampStep s (c / 288) ≠ 0 then
      s.modArr c a (fun r => { r with shade := .idle, density := 0 })
    else
      let s := s.modArr c a (fun r => { r with shade := .full, density := 4 })
      if windowNames s c a && s.fld (pgArr c) ARR_SHADE_CTRL_THRESH ≠ 0 then s else beginRampDown s c a

/-- The gap reaches THRESH cycles: full density ends (R53 rule 2). -/
def doShadeThreshExpiry (c : CoreId) (a : ArrId) (s : State) : State :=
  if ((s.core c).arr a).shade = .full then beginRampDown s c a else s

/-- A ramp step elapses: one quarter down or up, a ramp-up stopping at the throttle's cap, a density above the cap falling to
it (R53, R466). -/
def doShadeRampStep (c : CoreId) (a : ArrId) (s : State) : State :=
  let r := (s.core c).arr a
  let cap := shadeCap s c
  match r.shade with
  | .idle => s
  | .down => s.modArr c a (fun r => { r with density := r.density - 1, shade := if r.density ≤ 1 then .idle else .down })
  | .full => if cap < r.density then s.modArr c a (fun r => { r with density := r.density - 1 }) else s
  | .up => s.modArr c a (fun r => { r with density := if cap < r.density then r.density - 1 else min cap (r.density + 1) })

/-! ### Meanings -/

/-- MATMUL. -/
def execMatmul (c : CoreId) (s : State) : Res := .next (powered (doMatmul c) s)

/-- ARRAY_FEED_START. -/
def execArrayFeedStart (c : CoreId) (a : ArrId) (s : State) : Res := .next (powered (doArrayFeedStart c a) s)

/-- ARRAY_COLUMN_DRAIN. -/
def execArrayColumnDrain (c : CoreId) (a : ArrId) (s : State) : Res := .next (powered (doArrayColumnDrain c a) s)

/-- BURNISHER_BLOCK_END. -/
def execBurnisherBlockEnd (c : CoreId) (a : ArrId) (s : State) : Res := .next (powered (doBurnisherBlockEnd c a) s)

/-- ARRAY_GAP_BEGIN. -/
def execArrayGapBegin (c : CoreId) (a : ArrId) (s : State) : Res := .next (powered (doArrayGapBegin c a) s)

/-- SHADE_THRESH_EXPIRY. -/
def execShadeThreshExpiry (c : CoreId) (a : ArrId) (s : State) : Res := .next (powered (doShadeThreshExpiry c a) s)

/-- SHADE_RAMP_STEP. -/
def execShadeRampStep (c : CoreId) (a : ArrId) (s : State) : Res := .next (powered (doShadeRampStep c a) s)

end Sys2Proof.Machine
end

