-- ==== Sys2Proof/Machine/Vector.lean ====
section
/-!
DEFINITION. The vector unit: what its commands compute at the queue head (R81, R90 to R97, R119, R146, R546), and the issue of
its opcodes.
-/

namespace Sys2Proof.Machine

/-! ### Inputs -/

/-- Row length of a slot's Microscaling records, else 0 (R78). -/
def rowOf (e : List Byte) : Nat := if isMx (patFmt e) then (rowOfRun (patFmt e) (patRun e)).getD 32 else 0

/-- The element that uses byte `b` of a stream: of a block, its first element for the scale byte (R78). -/
def elemOf (f l b : Nat) : Option Nat :=
  if !isMx f then some (b * 8 / elemBits f)
  else
    let rb := rowBytes f l
    let o := b % rb
    let sec := scaleSec f l
    if o < sec then (if o < l / 32 then some (b / rb * l + 32 * o) else none)
    else
      let e := (o - sec) * 8 / elemBits f
      if e < l then some (b / rb * l + e) else none

/-- A failure in a vector operation: element, slot, status, source, and whether no further input is used. -/
structure VFail where
  elem : Nat
  slot : Nat
  status : Nat
  src : Option (Nat × Nat)
  stop : Bool
deriving DecidableEq, Repr

def VFail.le (a b : VFail) : Bool := decide (a.elem < b.elem) || (a.elem == b.elem && decide (a.slot ≤ b.slot))

/-- The first element whose inputs include a byte of the failing word (R146). -/
def failElem (f l : Nat) (x : RdFail) : Nat :=
  (minOf ((List.range (min x.len 64)).filterMap (fun i => elemOf f l (x.pos + i)))).getD 0

def vecFails (f l slot : Nat) (r : Rd) : List VFail :=
  r.bad.map (fun x => ⟨failElem f l x, slot, x.status, x.src, true⟩)
    ++ r.soft.map (fun x => ⟨failElem f l x, slot, x.status, x.src, false⟩)

/-- Elements that keep their real values: those before the first that a failure stops (R146). -/
def realCount (n : Nat) (fs : List VFail) : Nat :=
  match minOf ((fs.filter (·.stop)).map (·.elem)) with
  | some k => min k n
  | none => n

/-- Element values of a byte string in a format, Microscaling records of `l` elements (R73, R77, R78). -/
def decodeBytes (f l n : Nat) (bs : List Byte) : List Num :=
  if isMx f then ((pieces (bs.length + 1) (rowBytes f l) bs).flatMap (decodeRow f l)).take n
  else decodeRow f n bs

/-- An input operand: its values widened to FP32 (R95, log entry 22), its failures, NAN_IN, and its exact values. -/
structure VIn where
  vals : List Num
  fails : List VFail
  sticky : Sticky
  exact : List Num
deriving DecidableEq, Repr

def VIn.none_ : VIn := ⟨[], [], 0, []⟩

/-- An operand read whole. NAN_IN is taken of all its elements, and a scaled element above the range of FP32 enters as an infinity without
OVF (log entry 118). -/
def vecInput (s : State) (x : Cmd) (i : Nat) : VIn × State :=
  let e := patAt x.pats i
  let f := patFmt e
  let l := rowOf e
  let (r, s) := readSlot s x i 0
  let ex := decodeBytes f l ((elemCount e).getD 0) r.bytes
  ({ vals := ex.map round32, fails := vecFails f l i r, sticky := if ex.any (·.isNan) then stNanIn else 0, exact := ex }, s)

/-! ### Outputs -/

/-- A lane's generator; a lane nothing has reloaded holds what the reset seed of 1 gives it (R94, R97). -/
def genOf (g : SMap Word) (l : Nat) : Word := (smFind g l).getD (laneSeed 1 l)

/-- A draw of lane `e mod 64` for element `e` under stochastic rounding, 0 otherwise (R93). -/
def drawFor (mode e : Nat) (g : SMap Word) : Nat × SMap Word :=
  if mode = 2 then
    let x := laneStep (genOf g (e % 64))
    (bits x 31 16, smInsert g (e % 64) x)
  else (0, g)

/-- Codes of the elements from number `e` up, the sticky flags, and the generators after their draws. -/
def encodeVals (k : Kind) (mode : Nat) (sat : Bool) : Nat → List Num → SMap Word → List Nat × Sticky × SMap Word
  | _, [], g => ([], 0, g)
  | e, v :: vs, g =>
    let (rn, g) := drawFor mode e g
    let (c, f) := encodeElem k mode rn sat v
    let (cs, fs, g) := encodeVals k mode sat (e + 1) vs g
    (c :: cs, f ||| fs, g)

/-- EMAX of an element format (R81). -/
def emaxOf : Nat → Int
  | 0x7 => 8 | 0x8 => 15 | 0x9 => 2 | 0xA => 4 | 0xB => 2 | _ => 0

/-- Largest magnitude's floor(log2), none when every input is zero. -/
def amaxLog (vs : List Num) : Option Int :=
  vs.foldl (fun a v =>
    match v with
    | .fin _ m e => if m = 0 then a else match a with
      | none => some (ilog m e)
      | some x => some (max x (ilog m e))
    | _ => a) none

/-- Block quantisation (R81): scale byte, element codes, flags, generators. -/
def quantBlock (f mode e0 : Nat) (vs : List Num) (g : SMap Word) : Nat × List Nat × Sticky × SMap Word :=
  if vs.any (fun v => match v with | .fin .. => false | _ => true) then
    let g := (List.range vs.length).foldl (fun g i => (drawFor mode (e0 + i) g).2) g
    (0xFF, vs.map (fun _ => 0), stBlockNan, g)
  else
    let e : Int := match amaxLog vs with
      | none => -127
      | some x => max (-127) (min 127 (x - emaxOf f))
    let (cs, fl, g) := encodeVals (kindOf f) mode true e0 (vs.map (fun v => v.scale (-e))) g
    ((e + 127).toNat, cs, fl, g)

/-- Quantised blocks from element `e` up. -/
def quantAll (f mode : Nat) : Nat → List (List Num) → SMap Word → List (Nat × List Nat) × Sticky × SMap Word
  | _, [], g => ([], 0, g)
  | e, b :: bs, g =>
    let (x, cs, fl, g) := quantBlock f mode e b g
    let (r, fs, g) := quantAll f mode (e + 32) bs g
    ((x, cs) :: r, fl ||| fs, g)

/-- A row record of `l` elements from its blocks (R78). -/
def rowRecord (f l : Nat) (bs : List (Nat × List Nat)) : List Byte :=
  let sc := (bs.map (fun b => BitVec.ofNat 8 b.1))
  let el := packBits (elemBits f) (bs.flatMap (·.2))
  sc ++ List.replicate (scaleSec f l - sc.length) 0 ++ el ++ List.replicate (rowBytes f l - scaleSec f l - el.length) 0

/-- Sticky flags of ARITH_STAT and the counters of an output of `n` elements of which `drawn` were converted (R93, R97). -/
def countOut (s : State) (c n drawn : Nat) (fl : Sticky) : State :=
  let s := s.setReg (pgVec c) 0x104 (s.reg (pgVec c) 0x104 ||| BitVec.ofNat 32 fl)
  (s.bumpBy (pgVec c) 0 n).bumpBy (pgVec c) 1 drawn

/-- Failures entered in the command, first failure first (R141, R547). -/
def failVec (s : State) (id : Nat) (fs : List VFail) : State :=
  s.modCmd id (fun x => x.failAll ((sortBy VFail.le fs).map (fun f => (f.status, f.slot, f.src))))

/-- The plain output of `vals`, converted under CVT, followed by zeros up to `n` elements (R90, R146). A source of INT32
values to INT8 is shifted by CVT.SHIFT. -/
def outPlain (s : State) (id n : Nat) (vals : List Num) (shift : Bool) (fl : Sticky) : State :=
  let x := s.cmd id
  let f := patFmt (patAt x.pats 2)
  let cvt := opParam x.desc 2
  let mode := cvt % 4
  let vals := if shift && f == 4 then vals.map (fun v => v.scale (-(natBits cvt 8 4 : Nat))) else vals
  let (cs, fs, g) := encodeVals (kindOf f) mode (cvt.testBit 2) 0 vals (s.core x.core).gens
  let s := s.modCore x.core (fun y => { y with gens := g })
  let s := countOut s x.core n (if mode = 2 then vals.length else 0) (fl ||| fs)
  emitSlot s id 2 (packBits (elemBits f) (cs ++ List.replicate (n - vals.length) 0))

/-- The Microscaling output of VBQ: whole blocks, zero bytes from the first block a failure reaches (R81, R146). -/
def outBlocks (s : State) (id n : Nat) (vals : List Num) (fl : Sticky) : State :=
  let x := s.cmd id
  let e := patAt x.pats 2
  let f := patFmt e
  let l := rowOf e
  let mode := opParam x.desc 2 % 4
  let (bs, fs, g) := quantAll f mode 0 (pieces (vals.length + 1) 32 vals) (s.core x.core).gens
  let s := s.modCore x.core (fun y => { y with gens := g })
  let s := countOut s x.core n (if mode = 2 then vals.length else 0) (fl ||| fs)
  let all := bs ++ List.replicate (n / 32 - bs.length) (0, List.replicate 32 0)
  emitSlot s id 2 ((pieces (all.length + 1) (l / 32) all).flatMap (rowRecord f l))

/-! ### Operations -/

/-- INVALID when an operation made a NaN of values that are none (R97). -/
def invalidOf (r : Num) (xs : List Num) : Sticky := if r.isNan && xs.all (fun x => !x.isNan) then stInvalid else 0

/-- A reduction in the order of R546, and INVALID of every combination it makes (R97). -/
def reduceWith (f : Num → Num → Num) (l : List Num) : Num × Sticky :=
  treeOf (fun a b => (f a.1 b.1, a.2 ||| b.2 ||| invalidOf (f a.1 b.1) [a.1, b.1])) (Num.zero, 0) (l.map (fun v => (v, 0)))

/-- VEW functions (R119) of A, B and D. -/
def vewFn (fn : Nat) (a b d : Num) : Num :=
  match fn with
  | 0 => fAdd a b
  | 1 => fSub a b
  | 2 => fMul a b
  | 3 => fMa a b d
  | 4 => fMin a b
  | 5 => fMax a b
  | 6 => a.abs
  | 7 => if a.gt b then .one else .zero
  | 8 => if a.ge b then .one else .zero
  | 9 => if a.eq b then .one else .zero
  | _ => if d.eq .zero then b else a

/-- VTR functions (R96, R119). -/
def vtrFn (fn : Nat) (s : State) (v : Num) : Num × State :=
  match fn with
  | 0 => tExp2 s v
  | 1 => tLog2 s v
  | 2 => tRecip s v
  | 3 => tRsqrt s v
  | 4 => tTanh s v
  | _ => tSigmoid s v

/-- A function with free values applied along a list. -/
def mapFree (f : State → Num → Num × State) : List Num → State → List Num × State
  | [], s => ([], s)
  | v :: vs, s =>
    let (r, s) := f s v
    let (rs, s) := mapFree f vs s
    (r :: rs, s)

/-- B of VEW from the local store (R119), with the store's parity check (VEC source 0). -/
def localB (s : State) (x : Cmd) (n : Nat) : VIn × State :=
  let e := patAt x.pats 1
  let f := patFmt e
  let l := rowOf e
  let off := 256 * (opParam x.desc 1 % 64)
  let bs := (List.range (patLen e)).map (fun i => smGet 0 (s.core x.core).ls (off + i))
  let nb := (elemCount e).getD 1
  let ex := decodeBytes f l nb bs
  let (inj, s) := takeCrcInjection s (pgVec x.core) 0
  ({ vals := (List.range n).map (fun i => round32 (ex.getD (i % nb) .zero)),
     fails := if inj then [⟨0, 1, 4, some (pgVec x.core, 0), true⟩] else [],
     sticky := if ex.any (·.isNan) then stNanIn else 0, exact := [] }, s)

def orAll (l : List Sticky) : Sticky := l.foldl (· ||| ·) 0

/-- VEW at the queue head. -/
def runVew (s : State) (id : Nat) : State :=
  let x := s.cmd id
  let fn := opParam x.desc 0 % 32
  let n := countOf x.pats 0
  let (a, s) := vecInput s x 0
  let (b, s) := if vewLocal x.desc then localB s x n else if hasPat x.pats 1 then vecInput s x 1 else (VIn.none_, s)
  let (d, s) := if fn = 3 ∨ fn = 10 then vecInput s x 2 else (VIn.none_, s)
  let fs := a.fails ++ b.fails ++ d.fails
  let z := realCount n fs
  let args := (List.range z).map (fun i => (a.vals.getD i .zero, b.vals.getD i .zero, d.vals.getD i .zero))
  let out := args.map (fun p => vewFn fn p.1 p.2.1 p.2.2)
  let inv := orAll ((out.zip args).map (fun p => invalidOf p.1 [p.2.1, p.2.2.1, p.2.2.2]))
  outPlain (failVec s id fs) id n out false (a.sticky ||| b.sticky ||| d.sticky ||| inv)

/-- VTR at the queue head. -/
def runVtr (s : State) (id : Nat) : State :=
  let x := s.cmd id
  let n := countOf x.pats 0
  let (a, s) := vecInput s x 0
  let xs := a.vals.take (realCount n a.fails)
  let (out, s) := mapFree (vtrFn (opParam x.desc 0 % 8)) xs s
  outPlain (failVec s id a.fails) id n out false
    (a.sticky ||| orAll ((out.zip xs).map (fun p => invalidOf p.1 [p.2])))

/-- One row of VRED (R546) and its INVALID. -/
def reduceRow (fn : Nat) (xs : List Num) : Num × Sticky :=
  match fn with
  | 1 => reduceWith fMax xs
  | 2 => reduceWith fAdd (xs.map (fun v => fMul v v))
  | _ => reduceWith fAdd xs

/-- VRED at the queue head: whole rows before the first row a failure reaches keep their values. -/
def runVred (s : State) (id : Nat) : State :=
  let x := s.cmd id
  let n := countOf x.pats 0
  let nr := rowLen x.desc
  let (a, s) := vecInput s x 0
  let rows := (pieces (n + 1) nr a.vals).take (realCount n a.fails / nr)
  let out := rows.map (reduceRow (opParam x.desc 0 % 4))
  outPlain (failVec s id a.fails) id (n / nr) (out.map (·.1)) false (a.sticky ||| orAll (out.map (·.2)))

/-- One row of VSMX: the outputs, m′, s′ and flags, INVALID of each operation it takes (R97, R119, R546). -/
def softRow (s : State) (m t : Num) (xs : List Num) : List Num × Num × Num × Sticky × State :=
  let m' := fMax m (reduceWith fMax xs).1
  let ds := xs.map (fun v => fSub v m')
  let (es, s) := mapFree tExp2 ds s
  let (k, s) := tExp2 s (fSub m m')
  let (sum, fl) := reduceWith fAdd es
  let t' := fMa t k sum
  let inv := orAll ((ds.zip xs).map (fun p => invalidOf p.1 [p.2, m'])) ||| invalidOf (fSub m m') [m, m'] ||| fl
    ||| invalidOf t' [t, k, sum]
  (es, m', t', (if m.isNan || t.isNan then stNanIn else 0) ||| inv, s)

/-- Rows of VSMX with the state of each. -/
def softRows : List (List Num) → List (Num × Num) → State → List (List Num) × List (Num × Num) × Sticky × State
  | [], _, s => ([], [], 0, s)
  | xs :: rows, st, s =>
    let (m, t) := st.headD (.inf true, .zero)
    let (es, m', t', fl, s) := softRow s m t xs
    let (r, ms, fs, s) := softRows rows (st.drop 1) s
    (es :: r, (m', t') :: ms, fl ||| fs, s)

/-- VSMX at the queue head. ELEM_OUT counts the elements of the destination, not the state words (log entry 103). -/
def runVsmx (s : State) (id : Nat) : State :=
  let x := s.cmd id
  let n := countOf x.pats 0
  let nr := rowLen x.desc
  let has := hasPat x.pats 1
  let (a, s) := vecInput s x 0
  let (r, s) := if has then readSlot s x 1 0 else (⟨[], [], []⟩, s)
  -- the state of row r occupies bytes 8r to 8r + 7, and serves elements nr × r and up
  let stFails := (vecFails 0 0 1 r).map (fun f => { f with elem := f.elem / 2 * nr })
  let fs := a.fails ++ stFails
  let nrows := realCount n fs / nr
  let rows := (pieces (n + 1) nr a.vals).take nrows
  let st := (List.range nrows).map (fun i =>
    if has then (f32 (leAt r.bytes (8 * i) 4), f32 (leAt r.bytes (8 * i + 4) 4)) else (Num.inf true, Num.zero))
  let (out, ms, fl, s) := softRows rows st s
  let s := failVec s id fs
  let s := if has then
      emitSlot s id 1 (ms.flatMap (fun p => leBytes 4 (toF32 p.1) ++ leBytes 4 (toF32 p.2))
        ++ List.replicate (8 * (n / nr) - 8 * ms.length) 0)
    else s
  outPlain s id n out.flatten false (a.sticky ||| fl)

/-- VCVT at the queue head: INT32 values are converted exactly, with one rounding (R89, R90). -/
def runVcvt (s : State) (id : Nat) : State :=
  let x := s.cmd id
  let n := countOf x.pats 0
  let (a, s) := vecInput s x 0
  let i32 := patFmt (patAt x.pats 0) == 5
  outPlain (failVec s id a.fails) id n ((if i32 then a.exact else a.vals).take (realCount n a.fails)) i32 a.sticky

/-- VBQ at the queue head. -/
def runVbq (s : State) (id : Nat) : State :=
  let x := s.cmd id
  let n := countOf x.pats 0
  let (a, s) := vecInput s x 0
  outBlocks (failVec s id a.fails) id n (a.vals.take (realCount n a.fails / 32 * 32)) a.sticky

/-- VLS at the queue head: bytes from the first failing element on load as zeros; bytes past the store's end are dropped
(R119, R146). A load moves bytes: it sets no NAN_IN and counts nothing in ELEM_OUT (log entry 118). -/
def runVls (s : State) (id : Nat) : State :=
  let x := s.cmd id
  let e := patAt x.pats 0
  let f := patFmt e
  let (r, s) := readSlot s x 0 0
  let fs := vecFails f (rowOf e) 0 r
  let total := patLen e
  let keep := match minOf (r.bad.map (·.pos)) with
    | some p => if isMx f then p else p * 8 / elemBits f * elemBits f / 8
    | none => total
  let bs := r.bytes.take keep ++ List.replicate (total - keep) 0
  let off := 256 * (opParam x.desc 0 % 64)
  let s := failVec s id fs
  s.modCore x.core (fun y => { y with ls := memStore y.ls off (bs.take (16384 - off)) })

/-! ### The commands: issue -/

/-- A descriptor boundary of the vector unit: after a write to SR_SEED every lane's generator reloads (R94). -/
def reloadSeed (s : State) (c : Nat) : State :=
  if (s.core c).seedPend then
    let v := s.reg (pgVec c) 0x100
    s.modCore c (fun x => { x with seedPend := false, gens := (List.range 64).map (fun l => (l, laneSeed v l)) })
  else s

/-- The vector unit runs its queue head once it is awake, which is a descriptor boundary. -/
def startVec (s : State) (c : Nat) : State :=
  match (s.core c).vec.queue with
  | [] => s
  | id :: _ =>
    let x := s.cmd id
    if x.ran || (s.core c).vec.power ≠ 0 then s
    else
      let s := reloadSeed (coreChecker (coreChecker s 9 c 0) 7 c 0) c
      let s := match descOpcode x.desc with
        | 0x20 => runVew s id
        | 0x21 => runVtr s id
        | 0x22 => runVred s id
        | 0x23 => runVsmx s id
        | 0x24 => runVcvt s id
        | 0x25 => runVbq s id
        | 0x26 => runVls s id
        | _ => s
      s.modCmd id (fun x => { x with ran := true })

/-- A vector descriptor issues; an idle unit starts it at once. -/
def issueVec (c op : Nat) (s : State) : State :=
  issueOp s c op (fun s e => checkVec s c e) (fun s e => startVec (push c s e) c)

def doVew (c : CoreId) (s : State) : State := issueVec c 0x20 s
def doVtr (c : CoreId) (s : State) : State := issueVec c 0x21 s
def doVred (c : CoreId) (s : State) : State := issueVec c 0x22 s
def doVsmx (c : CoreId) (s : State) : State := issueVec c 0x23 s
def doVcvt (c : CoreId) (s : State) : State := issueVec c 0x24 s
def doVbq (c : CoreId) (s : State) : State := issueVec c 0x25 s
def doVls (c : CoreId) (s : State) : State := issueVec c 0x26 s

/-- A write to VEC.SR_SEED schedules the reload of the lane generators (R94). -/
def doSrSeedWrite (c : CoreId) (v : Word) (s : State) : State :=
  (s.setReg (pgVec c) 0x100 v).modCore c (fun x => { x with seedPend := true })

/-- At the next descriptor boundary of the vector unit every lane's generator reloads (R94). -/
def doSrSeedReload (c : CoreId) (s : State) : State := reloadSeed s c

/-! ### Meanings -/

/-- VEW. -/
def execVew (c : CoreId) (s : State) : Res := .next (powered (doVew c) s)

/-- VTR. -/
def execVtr (c : CoreId) (s : State) : Res := .next (powered (doVtr c) s)

/-- VRED. -/
def execVred (c : CoreId) (s : State) : Res := .next (powered (doVred c) s)

/-- VSMX. -/
def execVsmx (c : CoreId) (s : State) : Res := .next (powered (doVsmx c) s)

/-- VCVT. -/
def execVcvt (c : CoreId) (s : State) : Res := .next (powered (doVcvt c) s)

/-- VBQ. -/
def execVbq (c : CoreId) (s : State) : Res := .next (powered (doVbq c) s)

/-- VLS. -/
def execVls (c : CoreId) (s : State) : Res := .next (powered (doVls c) s)

/-- SR_SEED_WRITE. -/
def execSrSeedWrite (c : CoreId) (v : Word) (s : State) : Res := .next (powered (doSrSeedWrite c v) s)

/-- SR_SEED_RELOAD. -/
def execSrSeedReload (c : CoreId) (s : State) : Res := .next (powered (doSrSeedReload c) s)

end Sys2Proof.Machine
end

