-- ==== Sys2Proof/Machine/Moves.lean ====
section
/-!
DEFINITION. The local DMA engines' COPY and FILL (R120, R146), the sketch-match unit (R62 to R66), and the steps of core memory:
fetches, merge buffers, write-back and scrubbing (R48, R49, R215 to R218).
-/

namespace Sys2Proof.Machine

/-! ### COPY and FILL -/

/-- Bytes that keep their values: those before the first failing word (R146). -/
def keepBefore (bad : List RdFail) (bs : List Byte) : List Byte :=
  match minOf (bad.map (·.pos)) with
  | some p => bs.take p ++ List.replicate (bs.length - p) 0
  | none => bs

/-- The write buffer's parity check (DMA source 0). -/
def dmaParity (s : State) (id : Nat) : State :=
  let c := (s.cmd id).core
  let (inj, s) := takeCrcInjection s (pgDma c) 0
  if inj then s.modCmd id (fun x => x.failWith 4 1 (some (pgDma c, 0))) else s

/-- COPY at the queue head: bytes in stream order, zeros from the first failing word on (R120, R146). -/
def runCopy (s : State) (id : Nat) : State :=
  let x := s.cmd id
  let n := moveLen x.desc x.pats [0, 1]
  let (r, s) := readSlot s x 0 n
  let s := s.modCmd id (fun x => x.failAll (r.fails 0))
  let s := dmaParity s id
  emitSlot s id 1 (keepBefore r.bad r.bytes)

/-- FILL at the queue head: the 8-byte value repeated, byte 0 first (R120). -/
def runFill (s : State) (id : Nat) : State :=
  let x := s.cmd id
  let n := moveLen x.desc x.pats [1]
  let v := leBytes 8 (descOp x.desc 0)
  let s := dmaParity s id
  emitSlot s id 1 ((List.range n).map (fun i => v.getD (i % 8) 0))

/-! ### Sketch-match unit -/

/-- Number of ones of a 64-bit word. -/
def popcount (n : Nat) : Nat := countIf (fun i => n.testBit i) (List.range 64)

/-- Similarity of a query and a key (R62). -/
def similarity (q k : Nat) : Nat := 64 - popcount (q ^^^ k)

/-- A block's score (R64). -/
def blockScore (sum : Bool) (q : Nat) (keys : List Nat) : Nat :=
  let l := keys.map (similarity q)
  if sum then l.sum else l.foldl max 0

/-- The blocks selected from their scores (R64), in ascending order. -/
def selectBlocks (scores : List Nat) (l sink recent : Nat) : List Nat :=
  let b := scores.length
  let idx := List.range b
  let forced := idx.filter (fun i => decide (i < sink) || decide (b ≤ i + recent))
  let rest := idx.filter (fun i => !(decide (i < sink) || decide (b ≤ i + recent)))
  let before (i j : Nat) : Bool :=
    let a := scores.getD i 0
    let c := scores.getD j 0
    decide (c < a) || (a == c && decide (j < i))
  let best := (sortBy before rest).take (l - forced.length)
  idx.filter (fun i => forced.contains i || best.contains i)

/-- A count-prefixed list padded to 8 bytes (R65). -/
def listBytes (l : List Nat) : List Byte :=
  let bs := leBytes 4 l.length ++ l.flatMap (leBytes 4)
  bs ++ List.replicate (selListLen l.length - bs.length) 0

/-- SELECT at the queue head: queries are read before keys; a failing word writes every list as zeros (R64 to R66). -/
def runSelect (s : State) (id : Nat) : State :=
  let x := s.cmd id
  let (q, s) := readSlot s x 1 0
  let (k, s) := if q.bad.isEmpty then readSlot s x 0 0 else (⟨[], [], []⟩, s)
  let (inj, s) := takeCrcInjection s (pgSkm x.core) 0
  let s := s.modCmd id (fun x => x.failAll (q.fails 1 ++ k.fails 0))
  let s := if inj then s.modCmd id (fun y => y.failWith 4 2 (some (pgSkm x.core, 0))) else s
  let nq := patLen (patAt x.pats 1) / 8
  let l := selLimit x.desc x.pats
  let keys := (List.range (selKeys x.pats)).map (fun i => leAt k.bytes (8 * i) 8)
  let blocks := pieces (keys.length + 1) (selBlk x.desc) keys
  let lists := (List.range nq).flatMap (fun j =>
    let sc := blocks.map (blockScore ((opParam x.desc 1).testBit 13) (leAt q.bytes (8 * j) 8))
    listBytes (selectBlocks sc l (natBits (opParam x.desc 2) 9 0) (natBits (opParam x.desc 2) 19 10)))
  emitSlot s id 2 (if q.bad.isEmpty && k.bad.isEmpty then lists else List.replicate (nq * selListLen l) 0)

/-- The sketch-match unit runs its queue head once it is awake. -/
def startSkm (s : State) (c : Nat) : State :=
  match (s.core c).skm.queue with
  | [] => s
  | id :: _ =>
    if (s.cmd id).ran || (s.core c).skm.power ≠ 0 then s
    else
      let s := coreChecker s 9 c 0
      let s := if descOpcode (s.cmd id).desc = 0x38 then runSelect s id else s
      s.modCmd id (fun x => { x with ran := true })

def doSelect (c : CoreId) (s : State) : State :=
  issueOp s c 0x38 (fun s e => checkSelect s c e) (fun s e => startSkm (push c s e) c)

/-! ### Core memory -/

/-- The first fetch of a DMA engine that has not completed does so. -/
def markFetch (e : Nat) : List InRange → List InRange
  | [] => []
  | r :: t => if r.fetched && !r.done && r.eng == e then { r with done := true } :: t else r :: markFetch e t

/-- A local DMA fetch completes: its bytes are at hand (R48). -/
def doFetchComplete (c : CoreId) (e : Fin 2) (s : State) : State :=
  s.modCore c (fun x => { x with inbound := markFetch e (x.inbound.take trackerCap) ++ x.inbound.drop trackerCap })

/-- A merge buffer writes its whole line, re-encoded, and frees (R215). -/
def doMergeBufferEvict (c : CoreId) (line : Fin 32768) (s : State) : State :=
  s.modCore c (fun x => { x with merge := x.merge.filter (fun l => l != line) })

/-- A corrected line is written back, unless a write to it committed first (R216). -/
def doSramCorrectedWriteback (c : CoreId) (line : Fin 32768) (s : State) : State :=
  if smHas (s.core c).wback line then
    (s.setErrs (sramOf c + 32 * line) []).modCore c (fun x => { x with wback := smErase x.wback line })
  else s

/-- The SRAM scrubber reads a line (R218): `errs` are the symbols found in error. An uncorrectable line is rewritten as
poisoned. The pass is counted when every line has been read. -/
def doSramScrubRead (c : CoreId) (line : Fin 32768) (errs : List SymErr) (s : State) : State :=
  if !s.flag (pgSrm c) SRM_SCFG_EN then s
  else
    let a := sramOf c + 32 * line
    let (d, s) := decodeCw s a (errs.map SymErr.pair) [0, 2]
    let s := match d with
      | .uncorr => errOcc (s.markCw a true) (pgSrm c) 2 0
      | _ => s
    let s := s.modCore c (fun x => { x with scrubbed := smInsert x.scrubbed line () })
    if (s.core c).scrubbed.length = 32768 then (s.bump (pgSrm c) 2).modCore c (fun x => { x with scrubbed := [] }) else s

/-! ### Meanings -/

/-- SELECT. -/
def execSelect (c : CoreId) (s : State) : Res := .next (powered (doSelect c) s)

/-- FETCH_COMPLETE. -/
def execFetchComplete (c : CoreId) (e : Fin 2) (s : State) : Res := .next (powered (doFetchComplete c e) s)

/-- MERGE_BUFFER_EVICT. -/
def execMergeBufferEvict (c : CoreId) (line : Fin 32768) (s : State) : Res := .next (powered (doMergeBufferEvict c line) s)

/-- SRAM_CORRECTED_WRITEBACK. -/
def execSramCorrectedWriteback (c : CoreId) (line : Fin 32768) (s : State) : Res := .next (powered (doSramCorrectedWriteback c line) s)

/-- SRAM_SCRUB_READ. -/
def execSramScrubRead (c : CoreId) (line : Fin 32768) (errs : List SymErr) (s : State) : Res := .next (powered (doSramScrubRead c line errs) s)

end Sys2Proof.Machine
end

