-- ==== Sys2Proof/Machine/Plates.lean ====
section
/-!
DEFINITION. The plate controllers (R200, R208 to R219).
-/

namespace Sys2Proof.Machine

/-- Codewords of a plate: 6 GiB in codewords of 64 bytes (R12, R210). -/
def plateCodewords : Nat := 0x180000000 / 64

/-- Is the plate fitted. -/
def platePresent (s : State) (k : Nat) : Bool := decide (k < s.fuses.part.plates)

/-- A demand read of a codeword (R211, R213): `errs` are the symbols found in error. -/
def doPlateRead (off : Nat) (errs : List SymErr) (s : State) : State :=
  if !isPlate s.fuses off then s
  else
    let s := readGranule s (off / 256)
    let (d, s) := decodeCw s off (errs.map SymErr.pair) [0, 1]
    match d with
    | .uncorr => errOcc s (pgPlt (plateOf s.fuses off)) 1 0
    | _ => s

/-- A combined write (R209, R212, R213). -/
def doPlateWrite (off : Nat) (data : List Byte) (poison : Bool) (s : State) : State :=
  if !rangeExists s.fuses off data.length || !isPlate s.fuses off then s else writeRange s off data poison

/-- Is the plate above 85 °C by its sensor (R200, R448), in units of 0.125 °C. -/
def plateHot (s : State) (p : Nat) : Bool := decide (680 < smGet 0 s.thm.temps (72 + s.fuses.part.platePos p))

/-- A refresh of a channel at tREFI with its interface check (R200, R219): the rows close; REF_2X follows the plate's
temperature; a refresh or a check without an answer loses the plate. That a refresh of all banks closes their rows is the model's choice
(log entry 125). In retention the plate refreshes itself and runs no check (R463, R465). -/
def doPlateRefresh (p : PlateId) (ch : Fin 64) (refreshed answered : Bool) (s : State) : State :=
  if !platePresent s p || s.flag (pgPlt p) PLT_PSTAT_LOST || 3 ≤ (s.plate p).power then s
  else
    let x := s.plate p
    let s := s.setPlate p { x with rows := x.rows.filter (fun e => e.1 / 32 != ch) }
    let s := s.setFld (pgPlt p) PLT_PSTAT_REF_2X (plateHot s p).toNat
    if refreshed && answered then s else losePlate s p 4 ch

/-- A completed pass restarts the lane counts and counts in SCRUB_PASS (R217, R219). -/
def scrubPass (s : State) (p : Nat) : State :=
  if (s.plate p).scrubbed.length = plateCodewords then
    (s.setPlate p { s.plate p with scrubbed := [], lanes := [] }).bump (pgPlt p) 6
  else s

/-- The plate scrubber reads a codeword (R217); its channel counts the read as any other (R222). -/
def doPlateScrubRead (off : Nat) (errs : List SymErr) (s : State) : State :=
  if !isPlate s.fuses off then s
  else
    let k := plateOf s.fuses off
    if !s.flag (pgPlt k) PLT_SCRUB_CFG_EN || s.flag (pgPlt k) PLT_PSTAT_LOST || (s.plate k).power ≥ 3 then s
    else
      let (d, s) := decodeCw (readGranule s (off / 256)) off (errs.map SymErr.pair) [0, 2]
      let s := match d with
        | .uncorr =>
          if s.flag (pgPlt k) PLT_PSTAT_LOST then s
          else errOcc (queueWrite (s.markCw off true) off (some (off / 64))) (pgPlt k) 2 0
        | _ => s
      let x := s.plate k
      scrubPass (s.setPlate k { x with scrubbed := smInsert x.scrubbed (off / 64) () }) k

/-- With scrubbing off, every lane's count restarts each PERIOD (R219). -/
def doLaneCountPeriodExpiry (p : PlateId) (s : State) : State :=
  if !platePresent s p || s.flag (pgPlt p) PLT_SCRUB_CFG_EN then s else s.setPlate p { s.plate p with lanes := [] }

/-- A channel command has had no answer for 2 µs: the plate is lost (R219). The time counts from the plate being ready, so that one that
sleeps or wakes runs into none (R465). -/
def doPlateChannelTimeout (p : PlateId) (ch : Fin 64) (s : State) : State :=
  if platePresent s p && (s.plate p).power == 0 then losePlate s p 4 ch else s

/-! ### Meanings -/

/-- PLATE_READ. -/
def execPlateRead (off : Nat) (errs : List SymErr) (s : State) : Res := .next (powered (doPlateRead off errs) s)

/-- PLATE_WRITE. -/
def execPlateWrite (off : Nat) (data : List Byte) (poison : Bool) (s : State) : Res := .next (powered (doPlateWrite off data poison) s)

/-- PLATE_REFRESH. -/
def execPlateRefresh (p : PlateId) (ch : Fin 64) (refreshed answered : Bool) (s : State) : Res :=
  .next (powered (doPlateRefresh p ch refreshed answered) s)

/-- PLATE_SCRUB_READ. -/
def execPlateScrubRead (off : Nat) (errs : List SymErr) (s : State) : Res := .next (powered (doPlateScrubRead off errs) s)

/-- LANE_COUNT_PERIOD_EXPIRY. -/
def execLaneCountPeriodExpiry (p : PlateId) (s : State) : Res := .next (powered (doLaneCountPeriodExpiry p) s)

/-- PLATE_CHANNEL_TIMEOUT. -/
def execPlateChannelTimeout (p : PlateId) (ch : Fin 64) (s : State) : Res := .next (powered (doPlateChannelTimeout p ch) s)

end Sys2Proof.Machine
end

