-- ==== Sys2Proof/Machine/Graver.lean ====
section
/-!
DEFINITION. The graver's own steps: fetching (R123, R129, R133, R134), doorbells and flushes (R130, R132), the CTL opcodes (R116,
R117), stall tracer and timeouts (R150 to R152), breakpoints (R153 to R155) and accesses to the flag store (R137, R140, R148).
-/

namespace Sys2Proof.Machine

/-! ### Fetching -/

/-- First byte of a structure in the core's SRAM: the offset taken within the 1 MiB (log entry 27). -/
def coreByte (c off : Nat) : Nat := sramOf c + off % 0x100000

/-- Where descriptor `i` of ring `q` lies (R129). -/
def descAddr (s : State) (c q i : Nat) : Nat :=
  coreByte c (s.fld (pgGrv c) (qField GRV_QBASE_BASE q) * 64 + 64 * (i % ringSize s c q))

/-- Where pattern entry `i` lies (R123). -/
def patAddr (s : State) (c i : Nat) : Nat := coreByte c (s.fld (pgGrv c) GRV_PAT_CFG_BASE * 64 + 64 * i)

/-- Window entries of a ring (QSTAT.INWIN). -/
def inWindow (s : State) (c q : Nat) : Nat := countIf (fun e => e.ring == q) (s.core c).window

def qFetch (s : State) (c q : Nat) : Nat := s.fld (pgGrv c) (qField GRV_QHEAD_FETCH q)
def qHead (s : State) (c q : Nat) : Nat := s.fld (pgGrv c) (qField GRV_QHEAD_HEAD q)
def qTail (s : State) (c q : Nat) : Nat := s.fld (pgGrv c) (qField GRV_QTAIL_TAIL q)

/-- Has the ring a descriptor to fetch and room for it (R132 to R134). -/
def ringFetches (s : State) (c q : Nat) : Bool :=
  ringRuns s c q && !s.flag (pgGrv c) (qField GRV_QSTAT_HALT_ERR q) && qFetch s c q != qTail s c q
    && decide (inWindow s c q < s.fld (pgGrv c) (qField GRV_QCTRL_WMAX q))

/-- The pattern entries a descriptor names are at hand (R123). -/
def patsAtHand (s : State) (c : Nat) (d : List Byte) (count : Nat) : Bool :=
  (patSlots d count).all (fun o =>
    match o with
    | some i => atHand s c (patAddr s c i) (patAddr s c i + 63)
    | none => true)

/-- The entries read at the fetch, and the first that is poisoned or uncorrectable: its status, slot and source. It is never used
with its stored bits. -/
def readPats (s : State) (c : Nat) (d : List Byte) (count : Nat) :
    List (Option (List Byte)) × Option (Nat × Nat × Option (Nat × Nat)) × State :=
  (patSlots d count).foldl (fun (x : List (Option (List Byte)) × Option (Nat × Nat × Option (Nat × Nat)) × State) o =>
    match o with
    | none => (x.1 ++ [none], x.2.1, x.2.2)
    | some i =>
      let (r, s) := readRun false (⟨[], [], []⟩, x.2.2) (patAddr s c i) 64
      match r.bad with
      | [] => (x.1 ++ [some r.bytes], x.2.1, s)
      | f :: _ => (x.1 ++ [none], x.2.1.or (some (f.status, x.1.length, f.src)), s)) ([], none, s)

/-- The rings in round-robin order, and the first that can fetch a descriptor whose pattern entries are at hand. -/
def fetchRing (s : State) (c : Nat) : Option Nat :=
  ((List.range 8).map (fun k => ((s.core c).rr + 1 + k) % 8)).find? (fun q =>
    ringFetches s c q
      && patsAtHand s c (memBytes s.mem (descAddr s c q (qFetch s c q)) 64) (s.fld (pgGrv c) GRV_PAT_CFG_COUNT))

/-- The check of a descriptor's first codeword under an injection armed at GRV source 4 (R439). -/
def descInjected (s : State) (c a : Nat) : CwRead × State :=
  let (n, s) := takeInjection s (pgGrv c) [4]
  if n = 0 then (.ok, s) else decodeWord s a ((List.range n).map (fun i => (cwSize a + i, 0xFF)))

/-- The fetch of ring `q`: descriptor bytes that are uncorrectable or poisoned halt the ring (R133, log entry 28); a pattern entry that
cannot be read completes its descriptor later (R216). -/
def fetchOne (s : State) (c q : Nat) : State :=
  let i := qFetch s c q
  let s := coreChecker (s.modCore c (fun x => { x with rr := q })) 8 c 0
  let (first, s) := descInjected s c (descAddr s c q i)
  let (r, s) := readRun false (⟨[], [], []⟩, s) (descAddr s c q i) 64
  let count := s.fld (pgGrv c) GRV_PAT_CFG_COUNT
  if !r.bad.isEmpty || first != .ok then errOcc (s.setFld (pgGrv c) (qField GRV_QSTAT_HALT_ERR q) 1) (pgGrv c) 4 0
  else
    let (pats, unread, s) := readPats s c r.bytes count
    let e : WinEntry :=
      { ring := q, idx := i, seq := (s.core c).nextSeq, desc := r.bytes, pats := pats, unread := unread,
        bad := fetchVerdict s.isOwn r.bytes pats count, sigOk := (sigChecks r.bytes).isEmpty, met := [], brkSkip := [] }
    let s := s.setFld (pgGrv c) (qField GRV_QHEAD_FETCH q) ((i + 1) % 65536)
    evalWaits (s.modCore c (fun x => { x with window := x.window ++ [e], nextSeq := x.nextSeq + 1 })) c

def doDescriptorFetch (c : CoreId) (s : State) : State :=
  if !s.running || 32 ≤ (s.core c).window.length then s
  else
    match fetchRing s c with
    | none => s
    | some q => fetchOne s c q

/-- Software writes QSTAT.HALT_ERR = 1: the ring fetches the same index again (R133). -/
def doHaltErrResume (c : CoreId) (q : RingId) (s : State) : State := s.setFld (pgGrv c) (qField GRV_QSTAT_HALT_ERR q) 0

/-! ### Doorbells and flushes -/

/-- A write of a new TAIL (R130). -/
def ringDoorbell (s : State) (c q tail : Nat) : State :=
  let fwd (a b : Nat) : Nat := (a + 65536 - b) % 65536
  let used := fwd tail (qHead s c q)
  if ringSize s c q < used ∨ used < fwd tail (qTail s c q) then errOcc s (pgGrv c) 7 0
  else s.setFld (pgGrv c) (qField GRV_QTAIL_TAIL q) tail

def doQtailWrite (c : CoreId) (q : RingId) (tail : BitVec 16) (s : State) : State := ringDoorbell s c q tail.toNat

/-- QCTRL.FLUSH = 1: taken while EN = 0 and no flush is pending (R132). -/
def doQueueFlush (c : CoreId) (q : RingId) (s : State) : State :=
  if s.flag (pgGrv c) (qField GRV_QCTRL_EN q) || s.flag (pgGrv c) (qField GRV_QSTAT_FLUSH_PEND q) then s
  else s.setFld (pgGrv c) (qField GRV_QSTAT_FLUSH_PEND q) 1

/-- Has the ring an issued descriptor that has not completed; a void's descriptor completed at its issue (R345). -/
def ringBusy (s : State) (c q : Nat) : Bool :=
  s.cmds.any (fun x => x.2.core == c && x.2.ring == q && !smHas s.coll.voids x.1)

/-- After the last issued descriptor of the ring has completed, the flush ends (R132). -/
def doFlushComplete (c : CoreId) (q : RingId) (s : State) : State :=
  if s.flag (pgGrv c) (qField GRV_QSTAT_FLUSH_PEND q) && !ringBusy s c q then
    let s := s.modCore c (fun x => { x with
      window := x.window.filter (fun e => e.ring != q)
      done := x.done.filter (fun e => e.1 / 65536 != q) })
    s.setFlds (pgGrv c) [(qField GRV_QHEAD_HEAD q, qTail s c q), (qField GRV_QHEAD_FETCH q, qTail s c q),
      (qField GRV_QSTAT_FLUSH_PEND q, 0)]
  else s

/-! ### CTL opcodes and NOP -/

/-- NOP: CTL completes in the next cycle; any other class enters its engine's queue (R116). -/
def doNop (c : CoreId) (s : State) : State :=
  issueOp s c 0 (fun _ _ => none)
    (fun s e => if descClass e.desc = 7 then pushCtl c (fun s _ => s) s e else push c s e)

/-- FLAG_SET (R117). -/
def flagSetAct (c : Nat) (s : State) (e : WinEntry) : State :=
  let x := descOp e.desc 0
  loadFlag s c (natBits x 11 0) (BitVec.ofNat 32 (natBits x 63 32)) (x.testBit 12)

def doFlagSet (c : CoreId) (s : State) : State := issueOp s c 0x01 (fun _ _ => none) (pushCtl c (flagSetAct c))

/-- EVENT: the event message with TAG and payload (R117, R488). -/
def eventAct (c : Nat) (s : State) (e : WinEntry) : State :=
  queueEvent s { devEvent s 2 (descOp e.desc 0) with origin := originOf c e.ring (descTag e.desc) }

def doEvent (c : CoreId) (s : State) : State := issueOp s c 0x03 (fun _ _ => none) (pushCtl c (eventAct c))

/-! ### The flag store -/

/-- The next cycle of the flag store: four of the increments that wait (R61). -/
def doFlagIncrementApply (c : CoreId) (s : State) : State :=
  let l := (s.core c).finc
  (l.take 4).foldl (fun s i => applySignal s c i) (s.modCore c (fun x => { x with finc := l.drop 4 }))

/-- A flag-space write: it loads the counter and clears the poison bit (R137); one from outside to a local-only flag is
discarded, unless it comes from the host (R140). -/
def flagWrite (s : State) (origin : FlagFrom) (c f : Nat) (v : Word) : State :=
  if origin == .outside && localOnly s c f then errOcc s (pgGrv c) 6 0 else loadFlag s c f v true

def doFlagSpaceWrite (origin : FlagFrom) (c : CoreId) (f : FlagId) (v : Word) (s : State) : State :=
  flagWrite s origin c f v

/-- A write to FPOISON[k] clears the poison bits written with 1 (R148, R157). -/
def doFpoisonClear (c : CoreId) (k : Fin 128) (mask : Word) (s : State) : State :=
  (List.range 32).foldl (fun s b => if bitAt mask b then s.setFlagPois c (32 * k + b) false else s) s

/-! ### Stall tracer and timeouts -/

/-- Is every unmet wait of the entry on a local-only flag, and is there one (R150). -/
def stalled (s : State) (c : Nat) (e : WinEntry) : Bool :=
  !waitsMet e && ((descWaits e.desc).mapIdx (fun i w => e.met.getD i false || localOnly s c (w % 4096))).all id

/-- The stall condition (R150). -/
def stallCond (s : State) (c : Nat) : Bool :=
  s.running && s.flag (pgGrv c) GRV_GCTRL_STALL_EN
    && (List.range 8).all (fun q => !s.flag (pgGrv c) (qField GRV_QSTAT_HALT_BRK q))
    && (s.core c).window.any (fun e => s.flag (pgGrv c) (qField GRV_QCTRL_EN e.ring))
    && (s.core c).window.all (stalled s c)
    && s.cmds.all (fun x => x.2.core != c || smHas s.coll.voids x.1) && (s.core c).tracker.isEmpty && (s.core c).finc.isEmpty

/-- The oldest window entry of a ring. -/
def oldestOf (s : State) (c q : Nat) : Option WinEntry := (s.core c).window.find? (fun e => e.ring == q)

/-- STALL_REC[q][w] (R157). -/
def stallRec (q w : Nat) : Fld := GRV_STALL_REC.at (0x10 * q + 4 * w)

/-- One entry completes with STALLED, its waits as they were when the tracer fired (R151). -/
def stallEntry (c : Nat) (s : State) (e : WinEntry) : State :=
  let pg := pgGrv c
  let q := e.ring
  let s := s.setFlds pg ((List.range 4).map (fun w => (stallRec q w, descWait e.desc w)))
  let s := s.setReg pg 0x118 (s.reg pg 0x118 ||| BitVec.ofNat 32 (2 ^ q))
  finishEntry s c e 0xC (unmetMask e) none 0

/-- The stall condition has held for STALL_DLY: the oldest entry of each enabled ring that has one (R151). -/
def doStallTracerExpiry (c : CoreId) (s : State) : State :=
  if stallCond s c then
    (((List.range 8).filter (fun q => s.flag (pgGrv c) (qField GRV_QCTRL_EN q))).filterMap (oldestOf s c)).foldl (stallEntry c) s
  else s

/-- An entry of ring `q` has had an unmet wait for TMO (R152); the ring's oldest such entry completes. -/
def doWaitTimeout (c : CoreId) (q : RingId) (s : State) : State :=
  if s.running && s.fld (pgGrv c) (qField GRV_QCTRL_TMO q) ≠ 0 && !s.flag (pgGrv c) (qField GRV_QSTAT_HALT_BRK q) then
    match (s.core c).window.find? (fun e => e.ring == q.val && !waitsMet e) with
    | none => s
    | some e => finishEntry s c e 7 (unmetMask e) none 0
  else s

/-! ### Breakpoints -/

/-- Writing BRK_STAT.HIT = 1: the halted rings go on, for one issue when `step` (R154). A step that other rings still owe stays. -/
def brkResume (s : State) (c : Nat) (step : Bool) : State :=
  if !s.flag (pgGrv c) GRV_BRK_STAT_HIT then s
  else
    let halted := (List.range 8).filter (fun q => s.flag (pgGrv c) (qField GRV_QSTAT_HALT_BRK q))
    let s := halted.foldl (fun s q => s.setFld (pgGrv c) (qField GRV_QSTAT_HALT_BRK q) 0) s
    let s := s.setFld (pgGrv c) GRV_BRK_STAT_HIT 0
    s.modCore c (fun x => { x with
      stepping := step || x.stepping
      stepRings := if step then halted ++ (if x.stepping then x.stepRings else []) else x.stepRings })

def doBreakpointResume (c : CoreId) (s : State) : State := brkResume s c false
def doBreakpointStep (c : CoreId) (s : State) : State := brkResume s c true

/-! ### Meanings -/

/-- DESCRIPTOR_FETCH. -/
def execDescriptorFetch (c : CoreId) (s : State) : Res := .next (powered (doDescriptorFetch c) s)

/-- HALT_ERR_RESUME. -/
def execHaltErrResume (c : CoreId) (q : RingId) (s : State) : Res := .next (powered (doHaltErrResume c q) s)

/-- QTAIL_WRITE. -/
def execQtailWrite (c : CoreId) (q : RingId) (tail : BitVec 16) (s : State) : Res := .next (powered (doQtailWrite c q tail) s)

/-- QUEUE_FLUSH. -/
def execQueueFlush (c : CoreId) (q : RingId) (s : State) : Res := .next (powered (doQueueFlush c q) s)

/-- FLUSH_COMPLETE. -/
def execFlushComplete (c : CoreId) (q : RingId) (s : State) : Res := .next (powered (doFlushComplete c q) s)

/-- NOP. -/
def execNop (c : CoreId) (s : State) : Res := .next (powered (doNop c) s)

/-- FLAG_SET. -/
def execFlagSet (c : CoreId) (s : State) : Res := .next (powered (doFlagSet c) s)

/-- EVENT. -/
def execEvent (c : CoreId) (s : State) : Res := .next (powered (doEvent c) s)

/-- FLAG_INCREMENT_APPLY. -/
def execFlagIncrementApply (c : CoreId) (s : State) : Res := .next (powered (doFlagIncrementApply c) s)

/-- FLAG_SPACE_WRITE. -/
def execFlagSpaceWrite (origin : FlagFrom) (c : CoreId) (f : FlagId) (v : Word) (s : State) : Res := .next (powered (doFlagSpaceWrite origin c f v) s)

/-- FPOISON_CLEAR. -/
def execFpoisonClear (c : CoreId) (k : Fin 128) (mask : Word) (s : State) : Res := .next (powered (doFpoisonClear c k mask) s)

/-- STALL_TRACER_EXPIRY. -/
def execStallTracerExpiry (c : CoreId) (s : State) : Res := .next (powered (doStallTracerExpiry c) s)

/-- WAIT_TIMEOUT. -/
def execWaitTimeout (c : CoreId) (q : RingId) (s : State) : Res := .next (powered (doWaitTimeout c q) s)

/-- BREAKPOINT_RESUME. -/
def execBreakpointResume (c : CoreId) (s : State) : Res := .next (powered (doBreakpointResume c) s)

/-- BREAKPOINT_STEP. -/
def execBreakpointStep (c : CoreId) (s : State) : Res := .next (powered (doBreakpointStep c) s)

end Sys2Proof.Machine
end

