-- ==== Sys2Proof/Machine/Transport.lean ====
section
/-!
DEFINITION. Fabric transport: links with their credits and retries (R273 to R279, R286), routing (R284, R285, R289 to R291), and
sequenced sending with acknowledgement (R293 to R299).
-/

namespace Sys2Proof.Machine

/-! ### Lane pairs and links -/

/-- Key of the lane pair of a plane with transmit line `k` (R242). -/
def pairKey (p k : Nat) : Nat := 32 * p + k

def State.lane (s : State) (key : Nat) : LaneSt := smGet LaneSt.init s.lanes key
def State.setLane (s : State) (key : Nat) (x : LaneSt) : State := { s with lanes := smSet LaneSt.init s.lanes key x }
def State.modLane (s : State) (key : Nat) (f : LaneSt → LaneSt) : State := s.setLane key (f (s.lane key))

/-- A lane pair is ACTIVE when both ends are (R254). -/
def LaneSt.up (x : LaneSt) : Bool := x.st == 6 && x.peerSt == 6

/-- Sheet index of this device, from SLOT_ID (R370). -/
def State.ownIdx (s : State) : Nat := s.fld pgMbr MBR_MSTAT_INDEX

/-- The link a lane pair belongs to: the sheet link to index (own + line) mod 32, or the circuit link of its outer
plane (R273). -/
def linkOf (s : State) (key : Nat) : Nat :=
  if key / 32 < 48 then (s.ownIdx + key % 32) % 32 else 32 + (key / 32 - 48)

/-- Has the link an ACTIVE lane pair. -/
def linkUp (s : State) (l : Nat) : Bool := s.lanes.any (fun e => e.2.up && linkOf s e.1 == l)

/-- LSTAT (R305): the sheet links with an ACTIVE lane pair. -/
def sheetUp (s : State) (i : Nat) : Bool := i != s.ownIdx && linkUp s i

/-- The Strelist instance of outer plane p(48 + k) and its OPEER number (R20, R255). -/
def outerStl (k : Nat) : Nat := k / 2
def opeer (f : Fld) (k : Nat) : Fld := f.at (4 * (k % 2))

/-- Is the outer plane fitted (R7, R20). -/
def outerFitted (f : Fuses) (k : Nat) : Bool := decide (k < f.part.outerPlanes)

/-- The latched peer of an outer plane (R255). -/
def outerPeer (s : State) (k : Nat) : Option Nat :=
  let pg := pgStl (outerStl k)
  if outerFitted s.fuses k && s.flag pg (opeer STL_OPEER_VALID k) then some (s.fld pg (opeer STL_OPEER_DEV k)) else none

/-- Outer planes with a latched peer in sheet `j` and an ACTIVE lane pair, ascending. -/
def outerTo (s : State) (j : Nat) : List Nat :=
  (List.range 16).filter (fun k => (match outerPeer s k with | some d => d / 32 == j | none => false) && linkUp s (32 + k))

/-- The device at the far end of a link. -/
def linkPeer (s : State) (l : Nat) : Option Nat :=
  if l < 32 then (if s.flag pgMbr MBR_DEVNUM_VALID then some (s.ownDev / 32 * 32 + l) else none) else outerPeer s (l - 32)

def State.link (s : State) (l : Nat) : LinkSt := smGet LinkSt.init s.net.links l
def State.setLink (s : State) (l : Nat) (x : LinkSt) : State :=
  { s with net := { s.net with links := smSet LinkSt.init s.net.links l x } }
def State.modLink (s : State) (l : Nat) (f : LinkSt → LinkSt) : State := s.setLink l (f (s.link l))

/-! ### Packet kinds and units (R274, R280, R282) -/

inductive PktClass where
  | req | rsp | forwarded | coll | mgmt | reserved
deriving DecidableEq, Repr

def kindClass (k : Nat) : PktClass :=
  if 0x01 ≤ k ∧ k ≤ 0x05 then .req else if 0x10 ≤ k ∧ k ≤ 0x12 then .rsp
  else if 0x20 ≤ k ∧ k ≤ 0x27 then .forwarded else if k = 0x30 then .coll else if k = 0x40 then .mgmt else .reserved

/-- Is the kind sequenced per destination. -/
def kindSequenced (k : Nat) : Bool := decide (0x01 ≤ k ∧ k ≤ 0x05) || decide (0x20 ≤ k ∧ k ≤ 0x23)

/-- Virtual channel of a hop into the destination (R284, R285). -/
def lastVc (k : Nat) : Nat :=
  match kindClass k with
  | .req => 0 | .rsp => 1 | .coll => 4 | .mgmt => 5 | _ => 3

/-- Bytes of a packet: header, payload and CRC (R280). -/
def pktLen (p : Packet) : Nat := 36 + p.payload.length

/-- Credits of 64 bytes a unit occupies (R286). -/
def creditsOf (units : Nat) : Nat := (8 * units + 63) / 64

/-- Credits a reserve holds for each link and VC (R286). -/
def reserve : Nat := 130

/-- Credits of the shared pool: 24 MiB on full-grade devices, 12 MiB on four-die devices (R286). -/
def poolSize (s : State) : Nat := 49152 * s.fuses.part.dies

/-- Credits that received units of a VC hold in a link's buffers. -/
def LinkSt.held (x : LinkSt) (vc : Nat) : Nat := (x.taken.getD vc 0 + 2 ^ 32 - x.freed.getD vc 0) % 2 ^ 32

/-- Credits that a link's units hold in the shared pool: what lies beyond each reserve. -/
def LinkSt.borrowed (x : LinkSt) : Nat := ((List.range 6).map (fun vc => x.held vc - reserve)).sum

/-- Is there room for `n` more credits on a VC of a link: in its reserve, and beyond that in the pool, which is lent while
space remains (R286, log entry 29). -/
def rxRoom (s : State) (l vc n : Nat) : Bool :=
  let h := (s.link l).held vc
  decide (h + n ≤ reserve)
    || decide ((s.net.links.map (fun e => e.2.borrowed)).sum + (h + n - reserve) ≤ poolSize s + (h - reserve))

def addAt (l : List Nat) (i n : Nat) : List Nat := setAt l i ((l.getD i 0 + n) % 2 ^ 32)

/-- Credits a sender may still use on a VC. -/
def LinkSt.room (x : LinkSt) (vc : Nat) : Nat := (reserve + x.credit.getD vc 0 + 2 ^ 32 - x.used.getD vc 0) % 2 ^ 32

/-- Credit for one more unit behind those queued on the VC. -/
def LinkSt.takes (x : LinkSt) (vc units : Nat) : Bool :=
  decide (((x.queue.filter (·.1 == vc)).map (fun e => creditsOf (unitsNeeded e.2))).sum + creditsOf units ≤ x.room vc)

/-- A packet handed to a link. -/
def toLink (s : State) (l vc : Nat) (p : Packet) : State := s.modLink l (fun x => { x with queue := x.queue ++ [(vc, p)] })

/-- Credits of a received unit's buffer freed. -/
def freeUnits (s : State) (l vc units : Nat) : State := s.modLink l (fun x => { x with freed := addAt x.freed vc (creditsOf units) })
def freeRx (s : State) (r : RxPkt) : State := freeUnits s r.link r.vc r.units

/-- A link starts anew (R273, R279). What its buffers still hold takes none of the new count's credits. -/
def restartLink (s : State) (l : Nat) : State :=
  let old (r : RxPkt) : RxPkt := if r.link = l then { r with units := 0 } else r
  ({ s with net := { s.net with rxq := s.net.rxq.map old, fwd := s.net.fwd.map old } }).setLink l LinkSt.init

/-! ### Routing at the source (R289, R290) -/

/-- The element of a list that the hash of destination and ESEQ selects, moved on by one for each retransmission. -/
def pick (l : List Nat) (dst seq tries : Nat) : Option Nat :=
  if l.isEmpty then none else l[(Config.routeHash dst seq + tries) % l.length]?

/-- Sheet members with an ACTIVE lane pair that a mask marks, ascending. -/
def upMembers (s : State) (mask : Nat → Bool) : List Nat := (List.range 32).filter (fun i => mask i && sheetUp s i)

/-- Link and virtual channel of a packet at its source; none when it must wait. -/
def route (s : State) (kind dst seq tries : Nat) : Option (Nat × Nat) :=
  let own := s.ownDev / 32
  if !s.flag pgMbr MBR_DEVNUM_VALID then none
  else if dst / 32 = own then
    if sheetUp s (dst % 32) then some (dst % 32, lastVc kind)
    else if kindClass kind = .forwarded then (pick (upMembers s (· != dst % 32)) dst seq tries).map (fun m => (m, 2))
    else none
  else if kindClass kind = .forwarded then
    let srt := s.reg pgFab (0x800 + 4 * (dst / 32))
    if bitAt srt s.ownIdx then (pick (outerTo s (dst / 32)) dst seq tries).map (fun k => (32 + k, 3))
    else (pick (upMembers s (bitAt srt)) dst seq tries).map (fun m => (m, 2))
  else none

/-- A packet sent from this device as its source; with no route it stays unsent (R289, R290). -/
def sendPkt (s : State) (p : Packet) (tries : Nat) : State :=
  match route s p.kind p.dst p.seq tries with
  | none => s
  | some (l, vc) => toLink (s.bump pgFab 0) l vc p

/-- A MGMT or COLL packet over a given link (R284). -/
def sendOver (s : State) (l : Nat) (p : Packet) : State := toLink (s.bump pgFab 0) l (lastVc p.kind) p

/-! ### Payload at the source (R298, R322, R327) -/

/-- What a descriptor's packet carries: the local bytes, zeros from the first failing word of the command on (R146). -/
def loadCmd (s : State) (t : TxPkt) (id pos slot : Nat) (src : Option (Nat × Nat)) : TxPkt × State :=
  let x := s.cmd id
  let (r, s) := readRuns (ctlPoisonPass x.desc) t.runs s
  let x := x.failAll ((r.fails slot).map (fun f => if f.1 = 4 then (f.1, f.2.1, src.or f.2.2) else f))
  let x := match minOf (r.bad.map (·.pos)) with
    | some p => { x with cut := some (min (x.cut.getD (pos + p)) (pos + p)) }
    | none => x
  let s := s.modCmd id (fun _ => x)
  let bs := match x.cut with
    | some z => r.bytes.take (z - pos) ++ List.replicate (r.bytes.length - (z - pos)) 0
    | none => r.bytes
  ({ t with pkt := { t.pkt with payload := bs, poison := x.status != 0 } }, s)

/-- Uncorrectable words found by a read that no descriptor of this device makes: their page records them (log entry 31). -/
def recordFails (s : State) (r : Rd) : State :=
  r.bad.foldl (fun s f => match f.src with
    | some (p, x) => errOcc s p x 0
    | none => s) s

/-- What a returned PUT carries (R327). -/
def loadServe (s : State) (t : TxPkt) : TxPkt × State :=
  let n := runsLen t.runs
  let zeros (st : Nat) : TxPkt :=
    { t with pkt := { t.pkt with payload := List.replicate n 0, poison := true, aux := t.pkt.aux % 2 ^ 24 + 2 ^ 24 * st } }
  if !(runRanges t.runs).all (fun r => rangeExists s.fuses r.1 r.2) then (zeros 3, s)
  else
    let (r, s) := readRuns true t.runs s
    let s := recordFails s r
    if r.bad.isEmpty then
      ({ t with pkt := { t.pkt with payload := r.bytes, poison := !r.soft.isEmpty, aux := t.pkt.aux % 2 ^ 24 } }, s)
    else (zeros 4, s)

/-- What an ATOMIC carries: its operand record, whose words that cannot be read keep the value first read (R298, R319). -/
def loadAtomic (s : State) (t : TxPkt) (id : Nat) : TxPkt × State :=
  let (r, s) := readRuns (ctlPoisonPass (s.cmd id).desc) t.runs s
  let s := s.modCmd id (fun x => x.failAll (r.fails 1))
  ({ t with pkt := { t.pkt with payload := if r.bad.isEmpty then r.bytes else t.pkt.payload, poison := (s.cmd id).status != 0 } }, s)

/-- The packet with its payload read from the source; what has been read before the first sending stands for that. XDMA engines record
source 0 of their page for an uncorrectable source (R338). -/
def loadPayload (s : State) (t : TxPkt) (first : Bool) : TxPkt × State :=
  if t.runs.isEmpty || (first && !t.pkt.payload.isEmpty) then (t, s)
  else match t.org with
    | .cmd id pos => loadCmd s t id pos 0 (some (pgXdm (s.cmd id).inst, 0))
    | .rls _ _ id pos _ => if t.pkt.kind = 3 then loadAtomic s t id else loadCmd s t id pos 0 none
    | .serve => loadServe s t
    | _ => (t, s)

/-! ### What an acknowledgement or a failure does at its origin -/

/-- One packet of a command is settled. -/
def settle (s : State) (id : Nat) : State := s.modCmd id (fun x => { x with left := x.left - 1 })

/-- Request kinds that a response answers (R321). -/
def hasResponse (k : Nat) : Bool := k == 2 || k == 3 || k == 4

def freeSlot (s : State) (c slot : Nat) : State := s.modCore c (fun x => { x with tracker := smErase x.tracker slot })

/-- Has a PULL packet its PULL_ID. -/
def pullOpened (p : Packet) : Bool := leAt p.payload 14 2 == 0

/-- The pull that a PULL packet asked for. -/
def pullOf (s : State) (p : Packet) : Option PullOut :=
  if pullOpened p then s.net.pulls.find? (fun x => x.pullId == leAt p.payload 12 2 && x.dst == p.dst) else none

def modPull (s : State) (pullId : Nat) (f : PullOut → PullOut) : State :=
  { s with net := { s.net with pulls := s.net.pulls.map (fun x => if x.pullId == pullId then f x else x) } }

/-- A pull leaves the table, its slot at the responder is free, and a resend of it that still waits goes with it (R327, R328). -/
def dropPull (s : State) (x : PullOut) : State :=
  let s := { s with net := { s.net with pulls := s.net.pulls.filter (fun y => y.pullId != x.pullId) } }
  let t := s.txDst x.dst
  let resend (u : TxPkt) : Bool := u.pkt.kind == 0x21 && pullOpened u.pkt && leAt u.pkt.payload 12 2 == x.pullId
  s.setTxDst x.dst { t with pullSlots := t.pullSlots.filter (· != x.slot), wait := t.wait.filter (fun u => !resend u) }

/-- A sequenced packet has been acknowledged (R294, R298). A request with a response stays open until it comes. -/
def ackOrigin (s : State) (t : TxPkt) : State :=
  match t.org with
  | .cmd id _ => settle s id
  | .rls c slot id _ _ => if hasResponse t.pkt.kind then s else settle (freeSlot s c slot) id
  | .pull _ _ => modPull s (leAt t.pkt.payload 12 2) (fun x => { x with acked := true })
  | _ => s

/-- A packet fails: its descriptor or request takes the status; a packet nobody waits for records the source itself. A request
that has been sent again under a new tag, or a pull that is complete, is settled by that and not here. -/
def failOrigin (s : State) (t : TxPkt) (status detail : Nat) (src : Option (Nat × Nat)) : State :=
  let note (s : State) (id : Nat) : State := s.modCmd id (fun x => x.failWith status detail src)
  match t.org with
  | .cmd id _ => settle (note s id) id
  | .rls c slot id _ _ =>
    if 256 ≤ slot then settle (note s id) id
    else match smFind (s.core c).tracker slot with
      | some q => if q.pkt.rtag = t.pkt.rtag then settle (note (freeSlot s c slot) id) id else note s id
      | none => note s id
  | .pull id _ =>
    if !pullOpened t.pkt then settle (note s id) id
    else match pullOf s t.pkt with
      | some x => settle (note (dropPull s x) id) id
      | none => note s id
  | _ => match src with
    | some (p, x) => errOcc s p x 0
    | none => s

/-- Own packets to a device that no lane has taken yet are dropped (R299). -/
def dropQueued (s : State) (d : Nat) : State :=
  let tree (p : Packet) : Bool := p.kind == 0x25 || p.kind == 0x26
  let mine (e : Nat × Packet) : Bool := e.2.dst == d && !tree e.2 && s.isOwn e.2.src
  (s.net.links.map (·.1)).foldl (fun s l => s.modLink l (fun x => { x with queue := x.queue.filter (fun e => !mine e) })) s

/-- A device is fenced: nothing more is sent to it, and what waits for it fails (R299, R385). -/
def fencePeer (s : State) (d detail : Nat) : State :=
  let x := s.txDst d
  let all := x.wait ++ (x.held ++ x.out).map (·.tx)
  let s := dropQueued (s.setTxDst d { x with wait := [], held := [], out := [], failed := [] }) d
  let s := all.foldl (fun s t => if t.org = .nobody then s else failOrigin s t 6 detail none) s
  (s.net.pulls.filter (fun p => p.dst == d)).foldl (fun s p =>
    settle ((dropPull s p).modCmd p.cmd (fun x => x.failWith 6 detail none)) p.cmd) s

/-! ### Sequenced sending (R293, R296, R304, R331) -/

def State.tree (s : State) (t : Nat) : TreeSt := smGet TreeSt.init s.net.trees t
def State.setTree (s : State) (t : Nat) (x : TreeSt) : State :=
  { s with net := { s.net with trees := smSet TreeSt.init s.net.trees t x } }
def State.modTree (s : State) (t : Nat) (f : TreeSt → TreeSt) : State := s.setTree t (f (s.tree t))

/-- Does this device originate the tree. -/
def originates (s : State) (x : TreeSt) : Bool := x.valid && s.isOwn x.src

/-- The command of an origin. -/
def Origin.owner : Origin → Option Nat
  | .cmd id _ => some id
  | .rls _ _ id _ _ => some id
  | .pull id _ => some id
  | _ => none

/-- Packets of a command that are sent and not acknowledged, to devices and on trees, and its pulls (R331). -/
def outstanding (s : State) (id : Nat) : Nat :=
  let mine (l : List SeqPkt) : Nat := countIf (fun q => q.tx.org.owner == some id && q.tx.pkt.kind != 0x21) l
  (s.net.tx.map (fun e => mine (e.2.out ++ e.2.held))).sum + (s.net.trees.map (fun e => mine (e.2.out ++ e.2.held))).sum
    + countIf (fun p => p.cmd == id) s.net.pulls

/-- ATOMICs that await their response from a destination (R323, R331). -/
def atomicsOpen (s : State) (d : Nat) : Nat :=
  (s.cores.map (fun e => countIf (fun q => q.2.pkt.kind == 3 && q.2.pkt.dst == d) e.2.tracker)).sum

/-- Does the packet fit the limits of R331; an open request or pull that is sent again already counts. -/
def limitOk (s : State) (x : TxDst) (t : TxPkt) : Bool :=
  match t.org with
  | .rls c slot _ _ _ =>
    decide (slot < 256) || (decide ((s.core c).tracker.length < 256) && (t.pkt.kind != 3 || decide (atomicsOpen s t.pkt.dst < 64)))
  | .cmd id _ => decide (outstanding s id < 512)
  | .pull id _ => (pullOf s t.pkt).isSome || (decide (outstanding s id < 512) && decide (x.pullSlots.length < 4))
  | _ => true

/-- The waiting packet that leaves next: the first that fits and is not behind another of its own descriptor. -/
def nextWait (s : State) (x : TxDst) : List TxPkt → List TxPkt → Option (TxPkt × List TxPkt)
  | _, [] => none
  | pre, t :: rest =>
    if limitOk s x t && !pre.any (fun u => u.org.owner.isSome && u.org.owner == t.org.owner) then some (t, pre ++ rest)
    else nextWait s x (pre ++ [t]) rest

/-- The lowest free number below `n`. -/
def freeNumber (n : Nat) (used : Nat → Bool) : Nat := ((List.range n).find? (fun i => !used i)).getD 0

/-- Core field of a requester tag (R318). -/
def rtagCore (c : Nat) : Nat := 512 * (c / 288) + c % 288

/-- Tracker slot and requester tag of a request of the remote load/store unit; a new sending advances the slot's
generation (R318, R321, R323). -/
def openSlot (s : State) (t : TxPkt) : TxPkt × State :=
  match t.org with
  | .rls c slot id pos len =>
    let x := s.core c
    let k := if slot < 256 then slot else freeNumber 256 (smHas x.tracker)
    let gen := (smGet 0 x.slotGen k + 1) % 16
    let p := { t.pkt with rtag := rtagCore c + 2 ^ 12 * k + 2 ^ 20 * gen }
    let new : RReq := ⟨id, pos, len, 0, s.fld pgFab FAB_TCFG_RETRY_MAX, 0, p, t.runs⟩
    let q := if slot < 256 then { smGet new x.tracker slot with pkt := p } else new
    ({ t with pkt := p, org := .rls c k id pos len },
      s.modCore c (fun x => { x with slotGen := smSet 0 x.slotGen k gen, tracker := smInsert x.tracker k q }))
  | _ => (t, s)

/-- Slot and PULL_ID of a new PULL (R327). -/
def openPull (s : State) (t : TxPkt) : TxPkt × State :=
  match t.org with
  | .pull id pos =>
    match pullOf s t.pkt with
    | some _ => (t, s)
    | none =>
      let x := s.txDst t.pkt.dst
      let slot := freeNumber 4 x.pullSlots.contains
      let pid := s.net.nextPull
      let p := { t.pkt with aux := slot, payload := t.pkt.payload.take 12 ++ leBytes 2 pid ++ [0, 0] }
      let s := s.setTxDst t.pkt.dst { x with pullSlots := slot :: x.pullSlots }
      let o : PullOut :=
        { cmd := id, dst := p.dst, slot := slot, pullId := pid, addr := p.addr, dest := leAt p.payload 0 8,
          len := leAt p.payload 8 4, pos := pos, got := [], acked := false, tries := 0, limit := s.fld pgFab FAB_TCFG_RETRY_MAX }
      ({ t with pkt := p },
        { s with net := { s.net with nextPull := (pid + 1) % 65536, pulls := s.net.pulls ++ [o] } })
  | _ => (t, s)

/-- Counters of a packet's first sending and of every sending (R334, R337). -/
def countSend (s : State) (t : TxPkt) (first : Bool) : State :=
  let s := if kindClass t.pkt.kind = .req then s.bump pgMem 0 else s
  match t.org, first with
  | .cmd id _, true =>
    if t.pkt.kind = 0x20 ∨ t.pkt.kind = 0x25 then
      (s.bumpBy (pgXdm (s.cmd id).inst) 0 t.pkt.payload.length).bump (pgXdm (s.cmd id).inst) 2
    else s
  | .pull id _, true => s.bump (pgXdm (s.cmd id).inst) 3
  | _, _ => s

/-- Is the sequence number `a` before `b`, modulo 2^32. -/
def seqBefore (a b : Nat) : Bool := decide ((b + 2 ^ 32 - a) % 2 ^ 32 < 2 ^ 31) && a != b

def seqInsert (q : SeqPkt) (l : List SeqPkt) : List SeqPkt := insertBy (fun a b => seqBefore a.seq b.seq) q l

/-- A request or pull sent again after REQ_TMO is counted and recorded as it leaves (R334, R335). -/
def noteAgain (s : State) (t : TxPkt) : State :=
  if t.again then errOcc (if kindClass t.pkt.kind = .req then s.bump pgMem 1 else s) pgMem 1 0 else s

/-- A sequenced packet at its source takes its route and is counted; with no route it stays unsent (R289, R290). -/
def sendTx (s : State) (t : TxPkt) : TxPkt × State :=
  match route s t.pkt.kind t.pkt.dst t.pkt.seq t.tries with
  | none => (t, s)
  | some (l, vc) =>
    ({ t with sent := true, again := false }, toLink ((countSend (noteAgain s t) t !t.sent).bump pgFab 0) l vc t.pkt)

/-- A sequenced packet leaves: payload read, route taken, and kept until acknowledged. -/
def launch (s : State) (d : Nat) (q : SeqPkt) : State :=
  let (t, s) := loadPayload s { q.tx with limit := s.fld pgFab FAB_TCFG_RETRY_MAX } true
  let (t, s) := sendTx s t
  let x := s.txDst d
  s.setTxDst d { x with out := seqInsert { q with tx := t } x.out }

/-- Every tree this device originates, with the MSEQ that its next packet of all takes. -/
def treeMarks (s : State) : List (Nat × Nat) :=
  (s.net.trees.filter (fun e => originates s e.2)).map (fun e => (e.1, e.2.next + e.2.wait.length))

/-- Every destination, with the ESEQ that its next packet of all takes. -/
def dstMarks (s : State) : List (Nat × Nat) := s.net.tx.map (fun e => (e.1, e.2.next + e.2.wait.length))

/-- Has the tree packets outstanding below an MSEQ. -/
def treePending (s : State) (m : Nat × Nat) : Bool :=
  let x := s.tree m.1
  originates s x && ((x.held ++ x.out).any (fun q => seqBefore q.seq (m.2 % 2 ^ 32)) || x.failed.any (fun n => seqBefore n (m.2 % 2 ^ 32))
    || (!x.wait.isEmpty && seqBefore x.next (m.2 % 2 ^ 32)))

/-- Has the destination packets outstanding below an ESEQ. -/
def dstPending (s : State) (m : Nat × Nat) : Bool :=
  let x := s.txDst m.1
  (x.held ++ x.out).any (fun q => seqBefore q.seq (m.2 % 2 ^ 32)) || x.failed.any (fun n => seqBefore n (m.2 % 2 ^ 32))
    || (!x.wait.isEmpty && seqBefore x.next (m.2 % 2 ^ 32))

/-- May the flagged packet leave: everything before it to its destination is acknowledged, what has failed included, and so are the trees'
earlier packets (R296, R304). -/
def flaggedFree (s : State) (x : TxDst) (q : SeqPkt) : Bool :=
  !(x.held ++ x.out).any (fun r => seqBefore r.seq q.seq) && !x.failed.any (fun n => seqBefore n q.seq) && !q.after.any (treePending s)

/-- SEQUENCED_PACKET_SEND and the flagged rule for one destination. In the fault state no packet leaves (R433). -/
def sendNext (s : State) (d : Nat) : State :=
  let x := s.txDst d
  if s.inFault then s
  else match nextWait s x [] x.wait with
  | none => s
  | some (t, rest) =>
    let fits := match (x.held ++ x.out).map (·.seq) ++ x.failed with
      | [] => true
      | a :: l => decide ((x.next + 2 ^ 32 - l.foldl (fun m y => if seqBefore y m then y else m) a) % 2 ^ 32 < 256)
    if !fits then s
    else
      let s := s.setTxDst d { x with wait := rest, next := (x.next + 1) % 2 ^ 32 }
      let t := { t with pkt := { t.pkt with seq := x.next, src := s.ownDev } }
      let (t, s) := openSlot s t
      let (t, s) := openPull s t
      let q : SeqPkt := ⟨x.next, t, if t.pkt.flagged then treeMarks s else []⟩
      let x := s.txDst d
      if t.pkt.flagged && !flaggedFree s x q then s.setTxDst d { x with held := seqInsert q x.held }
      else launch s d q

def doSequencedPacketSend (dst : DevNum) (s : State) : State := sendNext s dst

/-- The first held flagged packet to a destination leaves when it may. -/
def releaseHeld (s : State) (d : Nat) : State :=
  let x := s.txDst d
  match x.held with
  | [] => s
  | q :: rest =>
    if !s.inFault && flaggedFree s { x with held := rest } q then launch (s.setTxDst d { x with held := rest }) d q else s

/-! ### Link units -/

/-- The first queued unit of each VC that credit covers, the earliest of them (R286). -/
def nextUnit (x : LinkSt) : List (Nat × Packet) → List (Nat × Packet) → Option ((Nat × Packet) × List (Nat × Packet))
  | _, [] => none
  | pre, e :: rest =>
    if !pre.any (fun f => f.1 == e.1) && decide (creditsOf (unitsNeeded e.2) ≤ x.room e.1) then some (e, pre ++ rest)
    else nextUnit x (pre ++ [e]) rest

/-- May a new unit go on a lane of its link: the lane is ACTIVE and stays, and no such lane of the link has a shorter transmit queue
(R252, R278). -/
def laneTakes (s : State) (l key : Nat) : Bool :=
  let ok (x : LaneSt) : Bool := x.up && !x.leaving
  ok (s.lane key) && linkOf s key == l
    && !s.lanes.any (fun e => ok e.2 && linkOf s e.1 == l && decide (e.2.txq.length < (s.lane key).txq.length))

/-- A unit's bytes join the transmit queue of a lane. -/
def putUnit (s : State) (key : Nat) (bs : List Byte) : State := s.modLane key (fun x => { x with txq := x.txq ++ bs })

/-- A unit goes onto the ACTIVE lane of its link with the shortest transmit queue; no more than 4,096 LSEQs are unacknowledged (R277,
R278). -/
def doLinkUnitSend (l : LinkId) (p : PlaneId) (k : LineId) (s : State) : State :=
  let key := pairKey p k
  let x := s.link l
  if !laneTakes s l key then s
  else match nextUnit x [] x.queue with
  | none => s
  | some ((vc, pkt), rest) =>
    let oldest := (x.unacked.map (·.lseq)).head?.getD x.lseq
    if 4096 ≤ (x.lseq + 2 ^ 16 - oldest) % 2 ^ 16 then s
    else
      let u : TxUnit := { lseq := x.lseq, vc := vc, units := unitsNeeded pkt, packet := pkt, lane := key, retx := false }
      let s := s.setLink l { x with
        queue := rest, lseq := (x.lseq + 1) % 2 ^ 16, unacked := x.unacked ++ [u],
        used := addAt x.used vc (creditsOf u.units) }
      let s := if l.val < 32 then
          { s with alloc := { s.alloc with sentBytes := smMod 0 s.alloc.sentBytes l (· + pktLen pkt) } }
        else s
      putUnit s key (unitBytes u.lseq vc false pkt)

/-- An ACTIVE lane pair of a link. -/
def activePair (s : State) (l : Nat) : Option Nat := (s.lanes.find? (fun e => e.2.up && linkOf s e.1 == l)).map (·.1)

/-- A unit is sent again with RETX on an ACTIVE lane (R277). -/
def doLinkRetransmit (l : LinkId) (lseq : Nat) (s : State) : State :=
  match (s.link l).unacked.find? (fun u => u.lseq == lseq), activePair s l with
  | some u, some key =>
    let s := s.modLink l (fun x => { x with
      unacked := x.unacked.map (fun v => if v.lseq == lseq then { v with lane := key, retx := true } else v) })
    putUnit (s.bump pgFab 2) key (unitBytes lseq u.vc true u.packet)
  | _, _ => s

/-- An LCTL of the link is applied when its CSEQ is newer (R275, R277). -/
def applyLctl (s : State) (l : Nat) (c : LCtl) : State :=
  let x := s.link l
  let newer := match x.cseqRx with
    | none => true
    | some old => c.cseq != old && decide ((c.cseq + 2 ^ 32 - old) % 2 ^ 32 < 2 ^ 31)
  if !newer then s
  else
    let acked (u : TxUnit) : Bool := decide ((u.lseq + 2 ^ 16 - c.ackNext) % 2 ^ 16 ≥ 2 ^ 15) || c.ackMap.contains u.lseq
    s.setLink l { x with cseqRx := some c.cseq, unacked := x.unacked.filter (fun u => !acked u), credit := c.credit }

/-- LSEQ ACK_NEXT moves over what has been received. -/
def advanceAck : Nat → Nat → List Nat → Nat × List Nat
  | 0, a, m => (a, m)
  | n + 1, a, m => if m.contains a then advanceAck n ((a + 1) % 2 ^ 16) (m.filter (· != a)) else (a, m)

/-- The receiver notes an LSEQ; false when it has it already or it lies outside the window (R276). -/
def noteLseq (s : State) (l lseq : Nat) : Bool × State :=
  let x := s.link l
  if (lseq + 2 ^ 16 - x.ackNext) % 2 ^ 16 > 4095 ∨ x.ackMap.contains lseq then (false, s)
  else
    let (a, m) := advanceAck (x.ackMap.length + 2) x.ackNext (lseq :: x.ackMap)
    (true, s.setLink l { x with ackNext := a, ackMap := m })

/-- A received packet that fails its CRC (R281). -/
def dropCrc (s : State) : State := errOcc (s.bump pgFab 5) pgFab 0 0

/-- Is a tree's packet one that this device passes on, as relay or replication point (R289, R301). -/
def passedOn (r : RxPkt) : Bool := (r.pkt.kind == 0x25 || r.pkt.kind == 0x26) && (r.pkt.stage != 3 || r.vc == 2)

/-- A packet whose unit has been accepted and whose CRC is correct: reserved kinds (R282), fenced sources (R299), and the class rules
of R284, R287 and R433. -/
def acceptPacket (s : State) (r : RxPkt) : State :=
  let p := r.pkt
  let (inj0, s) := takeCrcInjection s pgFab 0
  let (inj7, s) := takeCrcInjection s pgFab 7
  let drop (s : State) : State := freeRx s r
  let own := s.isOwn p.dst || p.kind == 0x25 || p.kind == 0x26 || kindClass p.kind != .forwarded
  if inj0 then drop (dropCrc s)
  else if inj7 then drop (errOcc s pgFab 7 0)
  else if kindClass p.kind = .reserved then drop (errOcc s pgFab 6 0)
  else if !own then
    if s.inFault then drop (errOcc s pgFab 3 0)
    else if s.fenced p.dst then drop (s.bump pgFab 6)
    else { s with net := { s.net with fwd := s.net.fwd ++ [r] } }
  else if s.fenced p.src then drop (errOcc s pgFab 4 0)
  else if kindClass p.kind = .mgmt then
    let s := drop s
    if 512 ≤ s.net.mgmt.length then s.bump pgFab 7
    else { s.bump pgFab 1 with net := { s.net with mgmt := s.net.mgmt ++ [p] } }
  else if s.inFault then drop (if passedOn r then errOcc s pgFab 3 0 else s)
  else { s with net := { s.net with rxq := s.net.rxq ++ [r] } }

/-- A receiver takes the oldest delivered unit (R276, R286). -/
def doLinkUnitReceive (s : State) : State :=
  match s.net.unitq with
  | [] => s
  | (l, u) :: rest =>
    let s := { s with net := { s.net with unitq := rest } }
    if u.vc = 7 then s
    else
      let n := creditsOf u.units
      let room := rxRoom s l u.vc n
      let (fresh, s) := noteLseq s l u.lseq
      let x := s.link l
      if !fresh then s
      else if 6 ≤ u.vc ∨ !room then errOcc s pgFab 6 0
      else
        let s := s.setLink l { x with taken := addAt x.taken u.vc n }
        match parsePacket u.body with
        | some p => acceptPacket s { link := l, vc := u.vc, units := u.units, pkt := p }
        | none => freeUnits (dropCrc s) l u.vc u.units

/-! ### Relays and landing devices (R285, R291, R299) -/

def State.rxSrc (s : State) (d : Nat) : RxSrc := smGet RxSrc.init s.net.rx d
def State.setRxSrc (s : State) (d : Nat) (x : RxSrc) : State :=
  { s with net := { s.net with rx := smSet RxSrc.init s.net.rx d x } }

/-- What becomes of a held forwarded packet. -/
inductive Fwd where
  | go (l vc : Nat)
  | wait
  | noLane
  | fenced
deriving DecidableEq, Repr

/-- The onward hop: into a member of this sheet, or as gateway over a circuit, which a packet never does twice. -/
def forwardHop (s : State) (r : RxPkt) : Fwd :=
  let d := r.pkt.dst
  if s.fenced d then .fenced
  else
    let l := if d / 32 = s.ownDev / 32 then (if sheetUp s (d % 32) then some (d % 32) else none)
      else if r.link < 32 ∧ r.vc = 2 then (pick (outerTo s (d / 32)) d r.pkt.seq 0).map (32 + ·) else none
    match l with
    | none => .noLane
    | some l => if (s.link l).takes 3 (unitsNeeded r.pkt) then .go l 3 else .wait

/-- The first held packet that credit lets go on, or that is discarded. -/
def forwardFirst (s : State) : List RxPkt → List RxPkt → State
  | _, [] => s
  | pre, r :: rest =>
    let gone := freeRx { s with net := { s.net with fwd := pre ++ rest } } r
    match forwardHop s r with
    | .wait => forwardFirst s (pre ++ [r]) rest
    | .go l vc => toLink gone l vc r.pkt
    | .noLane => errOcc gone pgFab 3 0
    | .fenced => gone.bump pgFab 6

/-- FORWARD_PACKET; in the fault state none is forwarded (R433). -/
def doForwardPacket (s : State) : State := if s.inFault then s else forwardFirst s [] s.net.fwd

/-- A packet held for TRANSIT_MAX is discarded (R291). -/
def doTransitMaxExpiry (s : State) : State :=
  match s.net.fwd with
  | [] => s
  | r :: rest => errOcc (freeRx { s with net := { s.net with fwd := rest } } r) pgFab 5 0

/-- A packet of a tree that a reset link hands back: SRC's copy for a LOCAL member goes on by a relay, and no other copy has another
way (R289, R301). -/
def rerouteTree (s : State) (l : Nat) (p : Packet) : State :=
  if l < 32 ∧ s.fenced (s.ownDev / 32 * 32 + l) then s
  else match if s.isOwn p.src && p.stage == 3 && decide (l < 32) then pick (upMembers s (· != l)) (s.ownDev / 32 * 32 + l) p.seq 0 else none with
  | some m => toLink s m 2 p
  | none => if s.isOwn p.src then s else errOcc s pgFab 3 0

/-- A packet of a forwarded kind that a reset link hands back to routing. This device's own without a route waits as R289 and R290 say,
an acknowledgement as one that is due, and one to a fenced device goes no further (R299); one in transit is held again, or discarded in the
fault state (R433). -/
def reroute (s : State) (l : Nat) (p : Packet) : State :=
  if p.kind = 0x25 ∨ p.kind = 0x26 then rerouteTree s l p
  else if s.isOwn p.src then
    if s.fenced p.dst then s
    else match route s p.kind p.dst p.seq 0 with
    | some (l, vc) => toLink s l vc p
    | none =>
      if p.kind = 0x24 then s.setRxSrc p.dst { s.rxSrc p.dst with ackDue := true }
      else if p.kind = 0x27 then s.modTree (p.aux % 256) (fun x => { x with mackDue := true })
      else s
  else if s.inFault then errOcc s pgFab 3 0
  else { s with net := { s.net with fwd := s.net.fwd ++ [⟨0, 2, 0, p⟩] } }

/-- A link without an ACTIVE lane pair resets: forwarded kinds go back to routing, other units are dropped (R279). -/
def doLinkReset (l : LinkId) (s : State) : State :=
  let x := s.link l
  if linkUp s l ∨ x = LinkSt.init then s
  else
    let pkts := x.unacked.map (·.packet) ++ x.queue.map (·.2)
    let s := errOcc (restartLink s l) pgFab 8 0
    pkts.foldl (fun s p => if kindClass p.kind = .forwarded then reroute s l p else s) s

/-! ### Acknowledgement (R294, R295) -/

/-- Has the sequenced packet been performed before: committed (R295), or its writes still in flight. -/
def isDup (s : State) (p : Packet) : Bool :=
  let x := s.rxSrc p.src
  !(p.seq == x.cum || seqBefore x.cum p.seq) || x.map.contains p.seq || x.pend.contains p.seq

/-- CUM moves over committed ESEQs. -/
def advanceCum : Nat → Nat → List Nat → Nat × List Nat
  | 0, a, m => (a, m)
  | n + 1, a, m => if m.contains a then advanceCum n ((a + 1) % 2 ^ 32) (m.filter (· != a)) else (a, m)

/-- A source's ESEQ is committed and an ACK is due. -/
def commitSeq (s : State) (src eseq : Nat) : State :=
  let x := s.rxSrc src
  let (a, m) := advanceCum (x.map.length + 2) x.cum (eseq :: x.map)
  s.setRxSrc src { x with cum := a, map := m, pend := x.pend.filter (· != eseq), ackDue := true }

/-- A duplicate is discarded, counted and acknowledged again. -/
def dropDup (s : State) (p : Packet) : State :=
  (s.bump pgFab 4).setRxSrc p.src { s.rxSrc p.src with ackDue := true }

/-- The ACK of a source's packets, built from the present state (R294). -/
def ackPacket (s : State) (src : Nat) : Packet :=
  let x := s.rxSrc src
  let map := (x.map.map (fun e => 2 ^ ((e + 2 ^ 32 - x.cum - 1) % 2 ^ 32 % 256))).foldl (· ||| ·) 0
  mkPkt 0x24 src s.ownDev 0 0 (leBytes 4 x.cum ++ leBytes 32 map ++ leBytes 4 0)

/-- ACK_SEND; with no route the acknowledgement stays due (R289, R294). -/
def doAckSend (src : DevNum) (s : State) : State :=
  if (s.rxSrc src).ackDue && !s.inFault && !s.fenced src && (route s 0x24 src 0 0).isSome then
    sendPkt (s.setRxSrc src { s.rxSrc src with ackDue := false }) (ackPacket s src) 0
  else s

/-- Does an ACK cover an ESEQ. -/
def ackCovers (p : Packet) (seq : Nat) : Bool :=
  let cum := leAt p.payload 0 4
  seqBefore seq cum || (let i := (seq + 2 ^ 32 - cum - 1) % 2 ^ 32
                        decide (i < 256) && (leAt p.payload 4 32).testBit i)

/-- The packets to a destination that an ACK covers are settled. -/
def takeAck (s : State) (p : Packet) : State :=
  let x := s.txDst p.src
  let done := x.out.filter (fun q => ackCovers p q.seq)
  let s := s.setTxDst p.src { x with
    out := x.out.filter (fun q => !ackCovers p q.seq), failed := x.failed.filter (fun n => !ackCovers p n) }
  done.foldl (fun s q => ackOrigin s q.tx) s

/-- The oldest received packet that `want` accepts, taken from the buffers; its credits return. -/
def pickRx (s : State) (want : RxPkt → Bool) : Option (RxPkt × State) :=
  match s.net.rxq.find? want with
  | none => none
  | some r => some (r, freeRx { s with net := { s.net with rxq := dropFirst want s.net.rxq } } r)

/-- The oldest received packet that `want` accepts, consumed by this device as its destination (R306). -/
def takeRx (s : State) (want : RxPkt → Bool) : Option (RxPkt × State) :=
  (pickRx s want).map (fun x => (x.1, x.2.bump pgFab 1))

/-- An unacknowledged packet is sent again, or fails after RETRY_MAX (R297). -/
def e2eUnicast (s : State) (d seq : Nat) : State :=
  let x := s.txDst d
  match x.out.find? (fun q => q.seq == seq) with
  | none => s
  | some q =>
    if q.tx.limit ≤ q.tx.tries then
      failOrigin (s.setTxDst d { x with out := x.out.filter (fun r => r.seq != seq), failed := x.failed ++ [seq] }) q.tx 7 0 (some (pgFab, 2))
    else
      let (t, s) := loadPayload s { q.tx with tries := q.tx.tries + 1, pkt := { q.tx.pkt with e2eRetx := true } } false
      let again := (route s t.pkt.kind t.pkt.dst t.pkt.seq t.tries).isSome
      let (t, s) := sendTx (if again then errOcc (s.bump pgFab 3) pgFab 1 0 else s) t
      let x := s.txDst d
      s.setTxDst d { x with out := x.out.map (fun r => if r.seq == seq then { r with tx := t } else r) }

/-! ### Meanings -/

/-- SEQUENCED_PACKET_SEND. -/
def execSequencedPacketSend (dst : DevNum) (s : State) : Res := .next (powered (doSequencedPacketSend dst) s)

/-- LINK_UNIT_SEND. -/
def execLinkUnitSend (l : LinkId) (p : PlaneId) (k : LineId) (s : State) : Res := .next (powered (doLinkUnitSend l p k) s)

/-- LINK_RETRANSMIT. -/
def execLinkRetransmit (l : LinkId) (lseq : Nat) (s : State) : Res := .next (powered (doLinkRetransmit l lseq) s)

/-- LINK_UNIT_RECEIVE. -/
def execLinkUnitReceive (s : State) : Res := .next (powered doLinkUnitReceive s)

/-- FORWARD_PACKET. -/
def execForwardPacket (s : State) : Res := .next (powered doForwardPacket s)

/-- TRANSIT_MAX_EXPIRY. -/
def execTransitMaxExpiry (s : State) : Res := .next (powered doTransitMaxExpiry s)

/-- LINK_RESET. -/
def execLinkReset (l : LinkId) (s : State) : Res := .next (powered (doLinkReset l) s)

/-- ACK_SEND. -/
def execAckSend (src : DevNum) (s : State) : Res := .next (powered (doAckSend src) s)

end Sys2Proof.Machine
end

