-- ==== Sys2Proof/Machine/Remote.lean ====
section
/-!
DEFINITION. Remote access: the remote load/store unit (R316 to R324), the XDMA engines (R325 to R328), the queue heads of the local
DMA engines, and the packets as their destination sees them (R294, R315, R318 to R323, R327, R329).
-/

namespace Sys2Proof.Machine

/-! ### Remote runs -/

/-- Runs of a stream cut at each aligned boundary of `unit` bytes: local offset, length and position; bytes without an
address are left out. -/
def cutRuns (unit : Nat) : List Run → Nat → List (Nat × Nat × Nat)
  | [], _ => []
  | (none, n) :: t, pos => cutRuns unit t (pos + n)
  | (some a, n) :: t, pos => (cutRange unit (n + 1) a n).map (fun p => (p.1, p.2, pos + (p.1 - a))) ++ cutRuns unit t (pos + n)

/-- Positions of a stream's bytes that read no memory. -/
def blankRuns : List Run → Nat → List (Nat × Nat)
  | [], _ => []
  | (none, n) :: t, pos => (pos, n) :: blankRuns t (pos + n)
  | (some _, n) :: t, pos => blankRuns t (pos + n)

/-- Packets of a command, all of them counted, join those that wait for their destination. -/
def sendAll (s : State) (id : Nat) (l : List TxPkt) : State :=
  l.foldl sendSeq (s.modCmd id (fun x => { x with left := x.left + l.length }))

/-- The last packet of a list flagged. -/
def flagLast (flagged : Bool) (l : List TxPkt) : List TxPkt :=
  if flagged then l.mapIdx (fun i t => if i + 1 = l.length then { t with pkt := { t.pkt with flagged := true } } else t) else l

/-- An expansion that fails is the command's failure. -/
def failStream (s : State) (id slot : Nat) (st : Stream) : State :=
  match st.fail with
  | some f => s.modCmd id (fun x => x.failWith f.status slot f.src)
  | none => s

/-- A stream filled up to `n` bytes with bytes that have no address. -/
def fillRuns (st : Stream) (n : Nat) : List Run :=
  if runsLen st.runs < n then st.runs ++ [(none, n - runsLen st.runs)] else st.runs

/-- Bytes `pos` to `pos + n − 1` of a command's local destination written as zeros. -/
def zeroOut (s : State) (id pos n : Nat) : State :=
  let x := s.cmd id
  emit s id (sliceRuns x.oruns pos n) (List.replicate n 0)

/-- The ranges of a destination that no packet will fill. -/
def zeroBlanks (s : State) (id : Nat) (rs : List Run) : State := (blankRuns rs 0).foldl (fun s p => zeroOut s id p.1 p.2) s

/-- The destination is fenced, or this device is. -/
def fencedAtRun (s : State) (id dev : Nat) : Option State :=
  (s.fencedDetail dev).map (fun d => s.modCmd id (fun x => x.failWith 6 d none))

/-! ### Remote loads, stores and atomics (R316 to R319) -/

/-- RGET at its queue head. -/
def runRget (s : State) (id : Nat) : State :=
  let x := s.cmd id
  let n := moveLen x.desc x.pats [0, 1]
  let dev := slotDev x.desc x.pats 0
  let sp := slotSpace x.desc x.pats 0
  match fencedAtRun s id dev with
  | some s => s
  | none =>
    let (rs, s) := slotStream s x 0 n
    let s := failStream s id 0 rs
    let (ls, s) := slotStream s x 1 n
    let s := failStream s id 1 ls
    let runs := fillRuns rs n
    let s := s.modCmd id (fun x => { x with oruns := ls.runs, cut := rs.fail.map (·.pos) })
    let s := zeroBlanks s id runs
    sendAll s id ((cutRuns (if sp = 1 then 4 else 256) runs 0).map (fun p =>
      let a := mkFa sp dev p.1
      mkTx (if sp = 1 then mkPkt 4 dev s.ownDev a 0 [] else mkPkt 2 dev s.ownDev a p.2.1 []) (.rls x.core 256 id p.2.2 p.2.1) []))

/-- RPUT at its queue head. -/
def runRput (s : State) (id : Nat) : State :=
  let x := s.cmd id
  let n := moveLen x.desc x.pats [0, 1]
  let dev := slotDev x.desc x.pats 1
  let sp := slotSpace x.desc x.pats 1
  match fencedAtRun s id dev with
  | some s => s
  | none =>
    let (ls, s) := slotStream s x 0 n
    let s := failStream s id 0 ls
    let (rs, s) := slotStream s x 1 n
    let s := failStream s id 1 rs
    let s := s.modCmd id (fun x => { x with cut := ls.fail.map (·.pos) })
    let src := fillRuns ls n
    sendAll s id (flagLast ((descOp x.desc 2).testBit 32)
      ((cutRuns (if sp = 1 then 4 else 256) rs.runs 0).map (fun p =>
        mkTx (mkPkt (if sp = 1 then 5 else 1) dev s.ownDev (mkFa sp dev p.1) 0 []) (.rls x.core 256 id p.2.2 p.2.1)
          (sliceRuns src p.2.2 p.2.1))))

/-- RATOMIC at its queue head. An operand record with a failing word sends nothing (log entry 30). -/
def runRatomic (s : State) (id : Nat) : State :=
  let x := s.cmd id
  let rec_ := faOff (descOp x.desc 1)
  let dev := faDev (descOp x.desc 0)
  match fencedAtRun s id dev with
  | some s => s
  | none =>
    let (r, s) := readRuns (ctlPoisonPass x.desc) [(some rec_, 16)] s
    let s := s.modCmd id (fun x => { x.failAll (r.fails 1) with oruns := [(some (rec_ + 16), 8)] })
    if !r.bad.isEmpty then zeroOut s id 0 8
    else
      let p := { mkPkt 3 dev s.ownDev (mkFa 0 dev (faOff (descOp x.desc 0))) (descOp x.desc 2 % 32) r.bytes with
        flagged := (descOp x.desc 2).testBit 5, poison := (s.cmd id).status != 0 }
      sendAll s id [mkTx p (.rls x.core 256 id 0 8) [(some rec_, 16)]]

/-! ### Local DMA queue heads -/

/-- A local DMA engine runs its queue head once it is awake. -/
def startDma (s : State) (c inst : Nat) : State :=
  match ((s.core c).eng 2 inst).queue with
  | [] => s
  | id :: _ =>
    let x := s.cmd id
    if x.ran || ((s.core c).eng 2 inst).power ≠ 0 then s
    else
      let s := coreChecker s 9 c inst
      let s := match descOpcode x.desc with
        | 0x30 => runCopy s id
        | 0x31 => runFill s id
        | 0x32 => runRget s id
        | 0x33 => runRput s id
        | 0x34 => runRatomic s id
        | _ => s
      s.modCmd id (fun x => { x with ran := true })

/-- A DMA descriptor issues; an idle engine starts it at once. -/
def issueDma (s : State) (c op : Nat) (check : State → WinEntry → Option Verdict) : State :=
  issueOp s c op check (fun s e => startDma (push c s e) c (descInst e.desc))

def doCopy (c : CoreId) (s : State) : State := issueDma s c 0x30 checkCopy
def doFill (c : CoreId) (s : State) : State := issueDma s c 0x31 checkFill
def doRget (c : CoreId) (s : State) : State := issueDma s c 0x32 (fun s e => checkRemote s c e 0 .r)
def doRput (c : CoreId) (s : State) : State := issueDma s c 0x33 (fun s e => checkRemote s c e 1 .w)
def doRatomic (c : CoreId) (s : State) : State := issueDma s c 0x34 (fun s e => checkRatomic s c e)

/-! ### Triggers (R117, R329) -/

/-- TRIGGER: a local doorbell, or a TRIG packet whose acknowledgement completes the descriptor. -/
def triggerAct (s : State) (e : WinEntry) (id : Nat) : State :=
  let a := descOp e.desc 0
  let tail := descOp e.desc 1 % 65536
  if s.isOwn (faDev a) then
    match qtailOf (faOff a) with
    | some (c, q) => ringDoorbell s c q tail
    | none => s
  else match fencedAtRun s id (faDev a) with
    | some s => s
    | none =>
      sendAll s id [mkTx { mkPkt 0x23 (faDev a) s.ownDev (mkFa 1 (faDev a) (faOff a)) tail [] with flagged := ctlFenceOut e.desc }
        (.cmd id 0) []]

def doTrigger (c : CoreId) (s : State) : State :=
  issueOp s c 0x02 (fun s e => checkTrigger s c e) (fun s e => pushCtl c (fun t e => triggerAct t e s.nextCmd) s e)

/-! ### Trees (R300 to R304) -/

/-- Device number of a member of this sheet. -/
def sheetDev (s : State) (i : Nat) : Nat := s.ownDev / 32 * 32 + i

/-- LOCAL and RELAY members other than this device, and OUTER planes, to which copies go from a STAGE, 0 being SRC (R301). -/
def treeLocals (s : State) (x : TreeSt) (stage : Nat) : List Nat :=
  if stage = 0 ∨ stage = 2 then (List.range 32).filter (fun i => bitAt x.localMask i && i != s.ownIdx) else []
def treeRelays (s : State) (x : TreeSt) (stage : Nat) : List Nat :=
  if stage = 0 then (List.range 32).filter (fun i => bitAt x.relay i && i != s.ownIdx) else []
def treeOuters (x : TreeSt) (stage : Nat) : List Nat :=
  if stage = 0 ∨ stage = 1 then (List.range 16).filter (fun k => bitAt x.outer k) else []

/-- Does this device deliver to itself a packet of a STAGE. -/
def treeDelivers (s : State) (x : TreeSt) (stage : Nat) : Bool :=
  stage == 3 || ((stage == 0 || stage == 2) && bitAt x.localMask s.ownIdx)

/-- The devices whose MACKs a packet of a STAGE awaits here. -/
def treeKids (s : State) (x : TreeSt) (stage : Nat) : List Nat :=
  ((treeLocals s x stage ++ treeRelays s x stage).map (sheetDev s) ++ (treeOuters x stage).filterMap (outerPeer s)).eraseDups

/-- One copy to a link, with its STAGE. -/
def copyTo (p : Packet) (stage : Nat) (s : State) (l vc : Nat) : State := toLink (s.bump pgFab 0) l vc { p with stage := stage }

/-- A copy that has no ACTIVE lane: at a replication point it is dropped and recorded (R301); SRC sends it again later. -/
def copyLost (stage : Nat) (s : State) : State := if stage = 0 then s else errOcc s pgFab 3 0

/-- Is a child passed over: it is fenced, or was dropped earlier in the descriptor (R301, R303). -/
def kidGone (s : State) (x : TreeSt) (d : Nat) : Bool := s.fenced d || x.lost.contains d

/-- The copies of one packet from a STAGE (R301). SRC reaches a LOCAL member to which it has no lane by a relay (R289). -/
def treeCopies (s : State) (x : TreeSt) (p : Packet) (stage tries : Nat) : State :=
  let live (i : Nat) : Bool := !kidGone s x (sheetDev s i)
  let s := ((treeLocals s x stage).filter live).foldl (fun s i =>
    if sheetUp s i then copyTo p 3 s i 3
    else match if stage = 0 then pick (upMembers s (· != i)) (sheetDev s i) p.seq tries else none with
      | some m => copyTo p 3 s m 2
      | none => copyLost stage s) s
  let s := ((treeRelays s x stage).filter live).foldl (fun s i => if sheetUp s i then copyTo p 1 s i 2 else s) s
  ((treeOuters x stage).filter (fun k => match outerPeer s k with | some d => !kidGone s x d | none => false)).foldl (fun s k =>
    if linkUp s (32 + k) then copyTo p 2 s (32 + k) 3 else copyLost stage s) s

/-- The onward hop of a STAGE 3 copy that SRC sent by this relay: to the LOCAL members of this device's own entry, which discard what
they have by its MSEQ (R289, R301, log entry 33). -/
def relayCopies (s : State) (x : TreeSt) (p : Packet) : State :=
  ((treeLocals s x 0).filter (fun i => !s.fenced (sheetDev s i))).foldl (fun s i =>
    if sheetUp s i then copyTo p 3 s i 3 else errOcc s pgFab 3 0) s

/-- A write to an absent address is discarded, counted and recorded (R315). -/
def absentWrite (s : State) : State := errOcc (s.bump pgMem 4) pgMem 0 0

/-- A write that arrives in memory (R283, R315), and the packet whose commit waits for it. -/
def arriveWrite (s : State) (addr : Nat) (bs : List Byte) (pois : Bool) (ack : Option Ack) : State :=
  if faSpace addr = 0 ∧ rangeExists s.fuses (faOff addr) bs.length then
    sendParts s none (fun _ => none) ack (runParts [(some (faOff addr), bs.length)] bs) pois
  else absentWrite s

/-- A signal that arrives (R282, R315). -/
def arriveSignal (s : State) (p : Packet) : State :=
  match if faSpace p.addr = 2 then flagOfOffset (faOff p.addr) else none with
  | some (c, f) => outsideSignal s c ⟨f, natBits p.aux 17 16 == 1, p.aux % 65536, p.poison⟩
  | none => absentWrite s

def TreeSt.stage (x : TreeSt) (stage : Nat) : StageSt := smGet StageSt.init x.stages stage
def TreeSt.setStage (x : TreeSt) (stage : Nat) (y : StageSt) : TreeSt := { x with stages := smInsert x.stages stage y }

/-- The devices that the report of an MSEQ awaits, changed. -/
def TreeSt.modSeen (x : TreeSt) (stage m : Nat) (f : List Nat → List Nat) : TreeSt :=
  let y := x.stage stage
  x.setStage stage { y with seen := y.seen.map (fun e => if e.1 = m then (e.1, f e.2) else e) }

/-- The number that stands for this device's own delivery among those awaited. -/
def ownKid : Nat := 0x3FFF

/-- The delivery of an MPUT or MSIG to this device; its MSEQ awaits the commit of its write (R302). -/
def treeDeliver (s : State) (t stage : Nat) (p : Packet) : State :=
  if p.kind = 0x26 then arriveSignal s p
  else
    let a : Ack := .tree t stage p.seq
    let s := arriveWrite s p.addr p.payload p.poison (some a)
    if ackWaits s a then s.modTree t (fun x => x.modSeen stage p.seq (· ++ [ownKid])) else s

/-- DROPPED: fenced children, and what the children report (R302). -/
def treeDropped (x : TreeSt) : Nat := (x.drops + (x.kidDrops.map (·.2)).sum) % 65536

/-- Has a child reported an MSEQ complete. -/
def kidDone (x : TreeSt) (m d : Nat) : Bool := d != ownKid && seqBefore m (smGet 0 x.kids d)

/-- The reports awaited, as far as `keep` says of the MSEQ and the device. -/
def TreeSt.filterKids (x : TreeSt) (keep : Nat → Nat → Bool) : TreeSt :=
  { x with stages := x.stages.map (fun (e : Nat × StageSt) =>
      (e.1, { e.2 with seen := e.2.seen.map (fun (r : Nat × List Nat) => (r.1, r.2.filter (keep r.1))) })) }

/-- Children that have reported are awaited no longer, nor are those passed over, each counted once for each MSEQ (R302, log entry
34). -/
def settleKids (s : State) (x : TreeSt) : TreeSt :=
  let gone (d : Nat) : Bool := d != ownKid && kidGone s x d
  let x := x.filterKids (fun m d => !kidDone x m d)
  let left := x.stages.flatMap (fun e => e.2.seen.flatMap (·.2))
  { x.filterKids (fun _ d => !gone d) with
    drops := x.drops + countIf gone left,
    lost := x.lost ++ (left.filter (fun d => gone d && !x.lost.contains d)).eraseDups }

/-- CUM of a STAGE moves over complete MSEQs. -/
def StageSt.advance : Nat → StageSt → StageSt
  | 0, y => y
  | n + 1, y =>
    match y.seen.find? (fun e => e.1 == y.cum) with
    | some (_, []) => StageSt.advance n { cum := (y.cum + 1) % 2 ^ 32, seen := y.seen.filter (fun e => e.1 != y.cum) }
    | _ => y

/-- CUM of the tree: the lowest of the STAGEs at which packets come here; a relay with its own LOCAL bit gets them at STAGE 3 too (log
entry 34). -/
def treeCum (s : State) (x : TreeSt) : Nat :=
  let l := x.stages.map (·.2.cum)
  let l := if smHas x.stages 1 && !smHas x.stages 3 && bitAt x.localMask s.ownIdx then 0 :: l else l
  l.foldl (fun m c => if seqBefore c m then c else m) (l.headD x.cum)

/-- A packet of a multicast command is complete; after the last, DROPPED decides the status (R303). -/
def settleTree (s : State) (x : TreeSt) (q : SeqPkt) : State :=
  match q.tx.org with
  | .cmd id _ =>
    let s := settle s id
    let rise := (x.dropped + 65536 - (s.cmd id).base) % 65536
    if (s.cmd id).left = 0 ∧ rise ≠ 0 then s.modCmd id (fun y => y.failWith 6 rise none) else s
  | _ => s

/-- CUM and DROPPED follow what is known; at SRC the packets CUM has passed are settled (R302, R303). Away from SRC, where no packet shows
the end of a descriptor, a child stays dropped until the entry is written anew (log entry 34). -/
def advanceTree (s : State) (t : Nat) : State :=
  let x := settleKids s (s.tree t)
  let x := { x with stages := x.stages.map (fun e => (e.1, e.2.advance (e.2.seen.length + 1))) }
  let cum := treeCum s x
  let x := if seqBefore x.cum cum then { x with cum := cum, mackDue := true } else x
  let x := { x with dropped := treeDropped x }
  let done := x.out.filter (fun q => seqBefore q.seq x.cum)
  let s := s.setTree t { x with
    out := x.out.filter (fun q => !seqBefore q.seq x.cum), failed := x.failed.filter (fun n => !seqBefore n x.cum) }
  done.foldl (fun s q => settleTree s x q) s

/-- A packet of a tree new at a STAGE: noted with the reports it awaits, delivered here, and copied on. -/
def stageTake (s : State) (t stage : Nat) (p : Packet) : State :=
  let x := s.tree t
  let y := x.stage stage
  let x := x.setStage stage { y with seen := y.seen ++ [(p.seq, treeKids s x stage)] }
  let s := s.setTree t x
  let s := if treeDelivers s x stage then treeDeliver s t stage p else s
  advanceTree (treeCopies s x p stage 0) t

/-- A packet of a tree leaves SRC: local delivery and copies. The first packet of another descriptor brings the dropped children back
(R303). -/
def launchTree (s : State) (t : Nat) (q : SeqPkt) : State :=
  let (u, s) := loadPayload s { q.tx with limit := s.fld pgFab FAB_TCFG_RETRY_MAX } true
  let s := countSend s u true
  let x := s.tree t
  let x := if x.owner = u.org.owner then x else { x with owner := u.org.owner, lost := [] }
  stageTake (s.setTree t { x with out := seqInsert { q with tx := { u with sent := true } } x.out }) t 0 u.pkt

/-- May a flagged packet of the tree leave (R304). -/
def treeFree (s : State) (x : TreeSt) (q : SeqPkt) : Bool :=
  !(x.held ++ x.out).any (fun r => seqBefore r.seq q.seq) && !x.failed.any (fun n => seqBefore n q.seq) && !q.after.any (dstPending s)

/-- The next waiting packet of a tree takes its MSEQ while fewer than 64 are outstanding (R302). -/
def treeNext (s : State) (t : Nat) : State :=
  let x := s.tree t
  match x.wait with
  | [] => s
  | u :: rest =>
    if s.inFault || 64 ≤ (x.held ++ x.out).length + x.failed.length then s
    else
      let q : SeqPkt := ⟨x.next, { u with pkt := { u.pkt with seq := x.next, dst := t, src := s.ownDev } },
        if u.pkt.flagged then dstMarks s else []⟩
      let x := { x with wait := rest, next := (x.next + 1) % 2 ^ 32 }
      if u.pkt.flagged && !treeFree s x q then s.setTree t { x with held := x.held ++ [q] } else launchTree (s.setTree t x) t q

/-- As many waiting packets of a tree leave as fit. -/
def pumpTree (s : State) (t : Nat) : State := (List.range (s.tree t).wait.length).foldl (fun s _ => treeNext s t) s

def releaseTree (s : State) (t : Nat) : State :=
  let x := s.tree t
  match x.held with
  | [] => s
  | q :: rest =>
    if !s.inFault && treeFree s { x with held := rest } q then launchTree (s.setTree t { x with held := rest }) t q else s

/-- FLAGGED_PACKET_RELEASE, for a destination or a tree. -/
def doFlaggedPacketRelease (tree : Bool) (dst : DevNum) (s : State) : State :=
  if tree then releaseTree s dst else releaseHeld s dst

/-- An unacknowledged packet of a tree is sent again, or fails (R297, R302). -/
def e2eTree (s : State) (t seq : Nat) : State :=
  let x := s.tree t
  match x.out.find? (fun q => q.seq == seq) with
  | none => s
  | some q =>
    if q.tx.limit ≤ q.tx.tries then
      failOrigin (s.setTree t { x with out := x.out.filter (fun r => r.seq != seq), failed := x.failed ++ [seq] }) q.tx 7 0 (some (pgFab, 2))
    else
      let (u, s) := loadPayload s { q.tx with tries := q.tx.tries + 1, pkt := { q.tx.pkt with e2eRetx := true } } false
      let s := errOcc (s.bump pgFab 3) pgFab 1 0
      let s := s.modTree t (fun x => { x with out := x.out.map (fun r => if r.seq == seq then { r with tx := u } else r) })
      treeCopies s x u.pkt 0 u.tries

/-- E2E_RETRANSMIT of a unicast packet, or of a tree's. In the fault state nothing is sent (R433). -/
def doE2eRetransmit (tree : Bool) (dst : DevNum) (eseq : Nat) (s : State) : State :=
  if s.inFault then s else if tree then e2eTree s dst eseq else e2eUnicast s dst eseq

/-- An MPUT or MSIG arrives: one new at its STAGE is delivered and copied, a duplicate is copied again (R301, R302). A STAGE 3 copy on
FWD0 has come by way of this relay. -/
def takeTree (s : State) (kind : Nat) : State :=
  match pickRx s (fun r => r.pkt.kind == kind) with
  | none => s
  | some (r, s) =>
    let p := r.pkt
    let t := p.dst % 256
    let x := s.tree t
    if r.vc = 2 ∧ p.stage = 3 then (if x.valid then relayCopies s x p else errOcc s pgFab 3 0)
    else if !x.valid ∨ originates s x ∨ p.stage = 0 then s
    else
      let y := x.stage p.stage
      let s := if treeDelivers s x p.stage then s.bump pgFab 1 else s
      if seqBefore p.seq y.cum || y.seen.any (fun e => e.1 == p.seq) then
        treeCopies ((s.bump pgFab 4).setTree t { x with mackDue := true }) x p p.stage 0
      else stageTake s t p.stage p

def doMputReceive (s : State) : State := takeTree s 0x25
def doMsigReceive (s : State) : State := takeTree s 0x26

/-- A MACK from a child (R302). CUM and DROPPED only rise: what a late MACK brings is passed over. -/
def doMackReceive (s : State) : State :=
  match takeRx s (fun r => r.pkt.kind == 0x27) with
  | none => s
  | some (r, s) =>
    let p := r.pkt
    let t := p.aux % 256
    let x := s.tree t
    if !x.valid then s
    else
      let cum := leAt p.payload 0 4
      let drops := leAt p.payload 4 2
      let x := if seqBefore (smGet 0 x.kids p.src) cum then { x with kids := smSet 0 x.kids p.src cum } else x
      let x := if !seqBefore cum (smGet 0 x.kids p.src) && decide ((drops + 65536 - smGet 0 x.kidDrops p.src) % 65536 < 32768) then
          { x with kidDrops := smSet 0 x.kidDrops p.src drops }
        else x
      pumpTree (advanceTree (s.setTree t x) t) t

/-- The MACK of a tree, sent to UP (R302); with no route it stays due. -/
def doMackSend (tree : GroupId) (s : State) : State :=
  let x := s.tree tree
  if x.mackDue && x.valid && !originates s x && !s.inFault && !s.fenced x.up && (route s 0x27 x.up 0 0).isSome then
    sendPkt (s.setTree tree { x with mackDue := false })
      (mkPkt 0x27 x.up s.ownDev 0 tree (leBytes 4 x.cum ++ leBytes 2 x.dropped ++ [0, 0])) 0
  else s

/-- MT_SRC written with VALID = 1: the entry's MSEQ state starts again (R302, R305). -/
def treeValid (s : State) (t src up : Nat) : State :=
  let x := s.tree t
  s.setTree t { TreeSt.init with
    valid := true, src := src, up := up, localMask := x.localMask, relay := x.relay, outer := x.outer }

def doMtValidWrite (tree : GroupId) (src up : DevNum) (s : State) : State := treeValid s tree src up

/-! ### XDMA engines (R325 to R328) -/

/-- A command that the engine refuses or loses before it does anything. -/
def failRun (s : State) (id status detail : Nat) (src : Option (Nat × Nat)) : State :=
  s.modCmd id (fun x => x.failWith status detail src)

/-- XDM source 0 in place of the memory's own for an uncorrectable local source (R338). -/
def xdmFails (e : Nat) (l : List (Nat × Nat × Option (Nat × Nat))) : List (Nat × Nat × Option (Nat × Nat)) :=
  l.map (fun f => if f.1 = 4 then (f.1, f.2.1, some (pgXdm e, 0)) else f)

/-- XCOPY within this device. -/
def runLocal (s : State) (id n : Nat) : State :=
  let x := s.cmd id
  let (r, s) := readSlot s x 0 n
  let s := s.modCmd id (fun x => x.failAll (xdmFails x.inst (r.fails 0)))
  emitSlot s id 1 (keepBefore r.bad r.bytes)

/-- XCOPY to another device: PUTs, cut at each aligned 4 KiB of the target (R326). -/
def runPush (s : State) (id n dev : Nat) : State :=
  let x := s.cmd id
  let (ls, s) := slotStream s x 0 n
  let s := failStream s id 0 ls
  let (rs, s) := slotStream s x 1 n
  let s := failStream s id 1 rs
  let s := s.modCmd id (fun x => { x with cut := ls.fail.map (·.pos) })
  sendAll s id (flagLast ((descOp x.desc 2).testBit 32)
    ((cutRuns 4096 rs.runs 0).map (fun p =>
      mkTx (mkPkt 0x20 dev s.ownDev (mkFa 0 dev p.1) 0 []) (.cmd id p.2.2) (sliceRuns (fillRuns ls n) p.2.2 p.2.1))))

/-- XCOPY from another device: PULLs of at most 1 MiB, or one for each run (R326). -/
def runPull (s : State) (id n dev : Nat) : State :=
  let x := s.cmd id
  let (rs, s) := slotStream s x 0 n
  let s := failStream s id 0 rs
  let (ls, s) := slotStream s x 1 n
  let s := failStream s id 1 ls
  let s := s.modCmd id (fun x => { x with oruns := ls.runs, cut := rs.fail.map (·.pos) })
  let s := zeroBlanks s id (fillRuns rs n)
  let parts : List (Nat × Nat × Nat) :=
    if hasPat x.pats 0 then cutRuns (2 ^ 48) rs.runs 0
    else (cutRange 0x100000 (n + 1) 0 n).map (fun p => (faOff (descOp x.desc 0) + p.1, p.2, p.1))
  sendAll s id (parts.filterMap (fun p =>
    match sliceRuns ls.runs p.2.2 p.2.1 with
    | (some a, _) :: _ => some (mkTx (mkPkt 0x21 dev s.ownDev (mkFa 0 dev p.1) 0
        (leBytes 8 (mkFa 0 s.ownDev a) ++ leBytes 4 p.2.1 ++ [0xFF, 0xFF, 0xFF, 0xFF])) (.pull id p.2.2) [])
    | _ => none))

/-- XCOPY at the queue head (R326). -/
def runXcopy (s : State) (id : Nat) : State :=
  let x := s.cmd id
  let n := moveLen x.desc x.pats [0, 1]
  let r0 := slotRemote s x.desc x.pats 0
  let r1 := slotRemote s x.desc x.pats 1
  if !r0 && !r1 then runLocal s id n
  else
    let dev := slotDev x.desc x.pats (if r0 then 0 else 1)
    match fencedAtRun s id dev with
    | some s => s
    | none => if r0 then runPull s id n dev else runPush s id n dev

/-- A multicast command's packets wait for their MSEQ; DROPPED is noted (R303). -/
def sendTree (s : State) (id t : Nat) (l : List TxPkt) : State :=
  let s := s.modCmd id (fun x => { x with left := l.length, base := (s.tree t).dropped })
  pumpTree (s.modTree t (fun x => { x with wait := x.wait ++ l })) t

/-- XMCAST at the queue head: a tree that is not this device's own is FORMAT_ERR at the byte of TREE (R325). -/
def runXmcast (s : State) (id : Nat) : State :=
  let x := s.cmd id
  let n := moveLen x.desc x.pats [0]
  let t := natBits (descOp x.desc 2) 39 32
  if !originates s (s.tree t) then failRun s id 8 60 none
  else if s.selfFenced then failRun s id 6 3 none
  else
    let (ls, s) := slotStream s x 0 n
    let s := failStream s id 0 ls
    let s := s.modCmd id (fun x => { x with cut := ls.fail.map (·.pos) })
    sendTree s id t (flagLast ((descOp x.desc 2).testBit 40)
      ((cutRuns 4096 [(some (faOff (descOp x.desc 1)), n)] 0).map (fun p =>
        mkTx (mkPkt 0x25 t s.ownDev (mkFa 0 0x3FFF p.1) 0 []) (.cmd id p.2.2) (sliceRuns (fillRuns ls n) p.2.2 p.2.1))))

/-- XMSIG at the queue head; a command with a poisoned wait sends its MSIG with poison (R147). -/
def runXmsig (s : State) (id : Nat) : State :=
  let x := s.cmd id
  let t := natBits (descOp x.desc 2) 7 0
  if !originates s (s.tree t) then failRun s id 8 56 none
  else if s.selfFenced then failRun s id 6 3 none
  else
    sendTree s id t [mkTx { mkPkt 0x26 t s.ownDev (mkFa 2 0x3FFF (faOff (descOp x.desc 0))) (descOp x.desc 1 % 2 ^ 18) [] with
      flagged := (descOp x.desc 2).testBit 8, poison := x.status != 0 } (.cmd id 0) []]

/-- An XDMA engine runs its queue head of one opcode; a command queue parity error completes it with ECC_UNCORR
(XDM source 2). -/
def runXdma (s : State) (e op : Nat) (go : State → Nat → State) : State :=
  match smGet [] s.net.xdma e with
  | [] => s
  | id :: _ =>
    let x := s.cmd id
    if x.ran || descOpcode x.desc != op || s.inFault then s
    else
      let (inj, s) := takeCrcInjection s (pgXdm e) 2
      let s := if inj then failRun s id 4 0 (some (pgXdm e, 2)) else go s id
      s.modCmd id (fun x => { x with ran := true })

/-- The two steps of a shared engine's command. -/
def engStep (at_ : EngStep) (issue : Nat → State) (run : Nat → State) : State :=
  match at_ with
  | .issue c => issue c
  | .run e => run e

def doXcopy (at_ : EngStep) (s : State) : State :=
  engStep at_ (fun c => issueOp s c 0x40 (fun s e => checkXcopy s c e) (push c)) (fun e => runXdma s e 0x40 runXcopy)
def doXmcast (at_ : EngStep) (s : State) : State :=
  engStep at_ (fun c => issueOp s c 0x41 (fun s e => checkXmcast s c e) (push c)) (fun e => runXdma s e 0x41 runXmcast)
def doXmsig (at_ : EngStep) (s : State) : State :=
  engStep at_ (fun c => issueOp s c 0x42 (fun s e => checkXmsig s c e) (push c)) (fun e => runXdma s e 0x42 runXmsig)

/-! ### Packets at their destination -/

/-- Disjoint ranges with the bytes from `lo` to before `hi` added, and their total. -/
def addRange (l : List (Nat × Nat)) (lo hi : Nat) : List (Nat × Nat) :=
  let near := l.filter (fun r => decide (r.1 ≤ hi) && decide (lo ≤ r.2))
  ((near.map (·.1)).foldl min lo, (near.map (·.2)).foldl max hi) :: l.filter (fun r => !(decide (r.1 ≤ hi) && decide (lo ≤ r.2)))
def rangeLen (l : List (Nat × Nat)) : Nat := (l.map (fun r => r.2 - r.1)).sum

/-- The pull that returned data belongs to. -/
def pullFrom (s : State) (pullId src : Nat) : Option PullOut := s.net.pulls.find? (fun x => x.pullId == pullId && x.dst == src)

/-- The range of a pull that a returned PUT fills: PULL_ID, offset and length. -/
def pulledRange (s : State) (p : Packet) : Option (Nat × Nat × Nat) :=
  if p.kind = 0x20 ∧ p.aux.testBit 16 then
    (pullFrom s (p.aux % 65536) p.src).map (fun x => (x.pullId, faOff p.addr - faOff x.dest, p.payload.length))
  else none

/-- Bytes of a pull are committed; with the last of them the pull is complete (R328). -/
def countPull (s : State) (src : Nat) (r : Nat × Nat × Nat) : State :=
  match pullFrom s r.1 src with
  | none => s
  | some x =>
    let s := s.bumpBy (pgXdm (s.cmd x.cmd).inst) 1 r.2.2
    let got := addRange x.got r.2.1 (r.2.1 + r.2.2)
    if x.len ≤ rangeLen got then settle (dropPull s x) x.cmd else modPull s x.pullId (fun y => { y with got := got })

/-- The answer of an ATOMIC leaves, and is kept for its duplicates (R318, R323). -/
def answerAtomic (s : State) (src eseq : Nat) (a : Packet) : State :=
  let x := s.rxSrc src
  sendPkt (s.setRxSrc src { x with ares := ((eseq, a) :: x.ares).take 64 }) a 0

/-- A write's bytes are committed, and with them the packet or the request that waits for it (R294, R302, R484). -/
def commitAck (s : State) : Ack → State
  | .seq src eseq pull answer =>
    let s := commitSeq (match pull with
      | some r => countPull s src r
      | none => s) src eseq
    match answer with
    | some a => answerAtomic s src eseq a
    | none => s
  | .host k incarn seq => answerWrite s k incarn seq
  | .tree t stage m => advanceTree (s.modTree t (fun x => x.modSeen stage m (·.filter (· != ownKid)))) t

/-- A packet that has been performed is committed once its writes are (R48, R294). -/
def awaitCommit (s : State) (p : Packet) (a : Ack) : State :=
  if ackWaits s a then s.setRxSrc p.src { s.rxSrc p.src with pend := (s.rxSrc p.src).pend ++ [p.seq] } else commitAck s a

/-- A sequenced packet of a kind is taken: a duplicate is discarded, another performed, and committed once its writes are (R294,
R295). -/
def takeSeq (s : State) (kind : Nat) (perform : State → Packet → Ack → State) : State :=
  match takeRx s (fun r => r.pkt.kind == kind) with
  | none => s
  | some (r, s) =>
    let p := r.pkt
    if isDup s p then dropDup s p
    else
      let a : Ack := .seq p.src p.seq (pulledRange s p) none
      awaitCommit (perform s p a) p a

/-- A STORE to the flag space: each word loads a counter; where a word names no flag the write is absent (R315, R317). -/
def storeFlags (s : State) (off : Nat) (bs : List Byte) : State :=
  let words := (pieces (bs.length + 1) 4 bs).mapIdx (fun i w => (flagOfOffset (off + 4 * i), w))
  if words.any (fun e => e.1.isNone) then absentWrite s
  else words.foldl (fun s e =>
    match e.1 with
    | some (c, f) => flagWrite s .outside c f (BitVec.ofNat 32 (leNat e.2))
    | none => s) s

def storePerform (s : State) (p : Packet) (a : Ack) : State :=
  if faSpace p.addr = 2 then storeFlags s (faOff p.addr) p.payload else arriveWrite s p.addr p.payload p.poison (some a)

def doStoreReceive (s : State) : State := takeSeq s 1 storePerform
def doSigReceive (s : State) : State := takeSeq s 0x22 (fun s p _ => arriveSignal s p)

/-- TRIG: the doorbell of R130 (R329). -/
def trigPerform (s : State) (p : Packet) : State :=
  match if faSpace p.addr = 1 then qtailOf (faOff p.addr) else none with
  | some (c, q) => ringDoorbell s c q (p.aux % 65536)
  | none => absentWrite s

def doTrigReceive (s : State) : State := takeSeq s 0x23 (fun s p _ => trigPerform s p)

/-- Is an RSP credit available for an answer of `n` payload bytes (R287). -/
def rspRoom (s : State) (dst n : Nat) : Bool :=
  sheetUp s (dst % 32) && (s.link (dst % 32)).takes 1 ((8 + 32 + n + 4 + 7) / 8)

/-- An answer to a request (R318). -/
def rspPacket (s : State) (q : Packet) (kind status : Nat) (poison : Bool) (bs : List Byte) : Packet :=
  { mkPkt kind q.src s.ownDev 0 status bs with rtag := q.rtag, poison := poison }

/-- A read that needs an answer: `perform` gives it. A duplicate is only acknowledged again (R323). -/
def takeReq (s : State) (kind : Nat) (len : Packet → Nat) (perform : State → Packet → Packet × State) : State :=
  match takeRx s (fun r => r.pkt.kind == kind && rspRoom s r.pkt.src (len r.pkt)) with
  | none => s
  | some (r, s) =>
    let p := r.pkt
    if isDup s p then dropDup s p
    else
      let (a, s) := perform s p
      sendPkt (commitSeq s p.src p.seq) a 0

/-- LOAD (R315, R317, R318); a flag read comes after the increments that reached the store before it (R61). -/
def loadPerform (s : State) (p : Packet) : Packet × State :=
  let n := p.aux % 512
  let off := faOff p.addr
  let absent := rspPacket s p 0x10 3 true (List.replicate n 0)
  if faSpace p.addr = 2 then
    let words := (List.range (n / 4)).map (fun i => flagOfOffset (off + 4 * i))
    if words.any (·.isNone) then (absent, s)
    else
      let l := words.filterMap id
      let s := l.foldl (fun s x => drainIncs s x.1) s
      (rspPacket s p 0x10 0 (l.any (fun x => s.flagPois x.1 x.2)) (l.flatMap (fun x => leBytes 4 (s.flagVal x.1 x.2).toNat)), s)
  else if faSpace p.addr ≠ 0 ∨ !rangeExists s.fuses off n then (absent, s)
  else
    let (r, s) := readRuns true [(some off, n)] s
    let s := recordFails s r
    if r.bad.isEmpty then (rspPacket s p 0x10 0 (!r.soft.isEmpty) r.bytes, s)
    else (rspPacket s p 0x10 4 true (List.replicate n 0), s)

/-- The new value of an ATOMIC (R319): `w` bits, old value, OPERAND and COMPARE. -/
def atomicNew (aop w old x cmp : Nat) : Nat :=
  let m := 2 ^ w
  match aop with
  | 0x0 => (old + x) % m
  | 0x1 => toF32 ((f32 old).add (f32 x))
  | 0x2 => old &&& x
  | 0x3 => old ||| x
  | 0x4 => old ^^^ x
  | 0x5 => if sext w old ≤ sext w x then old else x
  | 0x6 => if sext w x ≤ sext w old then old else x
  | 0x7 => min old x
  | 0x8 => max old x
  | 0x9 => x
  | 0xA => if old = cmp then x else old
  | _ => old

/-- ATOMIC: its answer, and the new value, which it writes where it performs (R319, R320). -/
def atomicPerform (s : State) (p : Packet) : Packet × Option (List Byte) × State :=
  let w := atomicWidth p.aux
  let off := faOff p.addr
  if faSpace p.addr ≠ 0 ∨ !rangeExists s.fuses off w then (rspPacket s p 0x11 3 true (List.replicate 8 0), none, s)
  else
    let (r, s) := readRuns true [(some off, w)] s
    let s := recordFails s r
    let old := leNat r.bytes
    if !r.bad.isEmpty then (rspPacket s p 0x11 4 true (List.replicate 8 0), none, s)
    else if !r.soft.isEmpty then (rspPacket s p 0x11 0 true (leBytes 8 old), none, s)
    else
      let v := atomicNew (p.aux % 16) (8 * w) old (leAt p.payload 0 w) (leAt p.payload 8 w)
      (rspPacket s p 0x11 0 false (leBytes 8 old), some (leBytes w v), s)

/-- Has the inbound tracker of the core that an ATOMIC addresses room for its write: with none the packet waits (R49). -/
def atomicRoom (s : State) (p : Packet) : Bool :=
  let off := faOff p.addr
  !(faSpace p.addr == 0 && isSram off && rangeExists s.fuses off (atomicWidth p.aux)
    && decide (trackerCap ≤ (s.core (sramCore off)).inbound.length))

def doLoadReceive (s : State) : State := takeReq s 2 (fun p => p.aux % 512) loadPerform

/-- ATOMIC: performed, its write tracked like any other, and answered as it commits; a duplicate is answered from the cache (R48, R294,
R319, R323). -/
def doAtomicReceive (s : State) : State :=
  match takeRx s (fun r => r.pkt.kind == 3 && rspRoom s r.pkt.src 8 && atomicRoom s r.pkt) with
  | none => s
  | some (r, s) =>
    let p := r.pkt
    if isDup s p then
      let s := dropDup s p
      match (s.rxSrc p.src).ares.find? (fun e => e.1 == p.seq) with
      | some (_, a) => sendPkt s a 0
      | none => s
    else
      let (answer, new, s) := atomicPerform s p
      let a : Ack := .seq p.src p.seq none (some answer)
      let off := faOff p.addr
      awaitCommit (match new with
        | some bs => sendParts s none (fun _ => none) (some a) (runParts [(some off, bs.length)] bs) p.poison
        | none => s) p a

/-! ### Responses (R321, R322) -/

/-- The core and tracker slot of a requester tag. -/
def rtagSlot (r : Nat) : Nat × Nat := (288 * (natBits r 11 9) + natBits r 8 0, natBits r 19 12)

/-- A word of a moved stream fails at `pos`: every byte of the command's output from there is zero, those already written too (R146,
R322). -/
def cutStream (s : State) (id pos : Nat) : State :=
  let x := s.cmd id
  let n := runsLen x.oruns
  let hi := min n (x.cut.getD n)
  let s := s.modCmd id (fun x => { x with cut := some (min pos (x.cut.getD pos)) })
  if pos < hi then zeroOut s id pos (hi - pos) else s

/-- Bytes at `pos` of a moved stream, zeros from where it is cut. -/
def cutBytes (x : Cmd) (pos : Nat) (bs : List Byte) : List Byte :=
  match x.cut with
  | some z => bs.take (z - pos) ++ List.replicate (bs.length - (z - pos)) 0
  | none => bs

/-- The failure that returned data brings to its command: a STATUS, or poison, and from where on the stream is zero (R146, R147). -/
def dataFails (s : State) (id pos status : Nat) (poison : Bool) (src : Option (Nat × Nat)) : State :=
  let pp := ctlPoisonPass (s.cmd id).desc
  let s := if status ≠ 0 then s.modCmd id (fun x => x.failWith status 0 src)
    else if poison then s.modCmd id (fun x => x.failWith 1 0 none) else s
  if status ≠ 0 ∨ (poison ∧ !pp) then cutStream s id pos else s

/-- What a response brings to its command: its bytes, zeros after a failure (R146, R322), and a request less. -/
def takeData (s : State) (q : RReq) (p : Packet) : State :=
  let s := dataFails s q.cmd q.pos (p.aux % 256) p.poison none
  let x := s.cmd q.cmd
  settle (emit s q.cmd (sliceRuns x.oruns q.pos q.len) (cutBytes x q.pos p.payload)) q.cmd

/-- A response of a kind: it answers the open request of its tag, acknowledges the request's ESEQ, and a repeat that still waits goes
(R321, R323). One without open request is discarded (MEM source 3). -/
def takeRsp (s : State) (kind reqKind : Nat) : State :=
  match takeRx s (fun r => r.pkt.kind == kind) with
  | none => s
  | some (r, s) =>
    let p := r.pkt
    let (c, k) := rtagSlot p.rtag
    match smFind (s.core c).tracker k with
    | none => errOcc s pgMem 3 0
    | some q =>
      if q.pkt.rtag ≠ p.rtag ∨ q.pkt.kind ≠ reqKind ∨ q.pkt.dst ≠ p.src then errOcc s pgMem 3 0
      else
        let x := s.txDst p.src
        let mine (t : TxPkt) : Bool := t.pkt.rtag == p.rtag && t.pkt.kind == reqKind
        let s := s.setTxDst p.src { x with out := x.out.filter (fun y => !mine y.tx), wait := x.wait.filter (fun t => !mine t) }
        takeData (freeSlot s c k) q p

def doLdataReceive (s : State) : State := takeRsp s 0x10 2
def doAresReceive (s : State) : State := takeRsp s 0x11 3
def doCsrDataReceive (s : State) : State := takeRsp s 0x12 4

/-- ACK (R294). -/
def doAckReceive (s : State) : State :=
  match takeRx s (fun r => r.pkt.kind == 0x24) with
  | none => s
  | some (r, s) => takeAck s r.pkt

/-- Is a request, or its repeat, still to leave this device: REQ_TMO counts from its last sending (R323). -/
def requestWaits (s : State) (c slot : Nat) (q : RReq) : Bool :=
  let x := s.txDst q.pkt.dst
  let mine (t : TxPkt) : Bool := match t.org with
    | .rls b k _ _ _ => b == c && k == slot && t.pkt.rtag == q.pkt.rtag
    | _ => false
  x.wait.any mine || x.held.any (fun y => mine y.tx) || x.out.any (fun y => mine y.tx && !y.tx.sent)

/-- An open request ends without an answer: its descriptor times out, and records the source. -/
def timesOut (s : State) (c slot : Nat) (q : RReq) (src : Nat × Nat) : State :=
  settle ((freeSlot s c slot).modCmd q.cmd (fun x => x.failWith 7 0 (some src))) q.cmd

/-- A request without answer after REQ_TMO is sent again, and after RETRY_MAX sendings its descriptor times out (R323). An ATOMIC without a
route waits, and fails after as many timeouts in a row (R289, R297). -/
def doRequestTimeout (c : CoreId) (slot : Fin 256) (s : State) : State :=
  match smFind (s.core c).tracker slot with
  | none => s
  | some q =>
    if !hasResponse q.pkt.kind || s.inFault || requestWaits s c slot q then s
    else if q.limit ≤ q.tries then timesOut s c slot q (pgMem, 2)
    else if q.pkt.kind = 3 ∧ (route s 3 q.pkt.dst q.pkt.seq (q.tries + 1)).isNone then
      if q.limit ≤ q.stuck then timesOut s c slot q (pgFab, 2)
      else s.modCore c (fun x => { x with tracker := smInsert x.tracker slot { q with stuck := q.stuck + 1 } })
    else
      let q := { q with tries := q.tries + 1, stuck := 0, pkt := { q.pkt with e2eRetx := q.pkt.kind == 3 } }
      let s := s.modCore c (fun x => { x with tracker := smInsert x.tracker slot q })
      let t := { mkTx q.pkt (.rls c slot q.cmd q.pos q.len) q.runs with again := true }
      if q.pkt.kind = 3 then
        let (t, s) := loadPayload s { t with tries := q.tries, sent := true } false
        (sendTx s t).2
      else sendSeq s t

/-! ### Pulls (R327, R328) -/

/-- A PULL enters the responder's queue, in the entry of its source and SLOT. -/
def pullPerform (s : State) (p : Packet) : State :=
  let q : PullReq := { src := p.src, slot := p.aux % 4, pullId := leAt p.payload 12 2, addr := p.addr,
                       dest := leAt p.payload 0 8, len := leAt p.payload 8 4 }
  { s with net := { s.net with pullq := s.net.pullq.filter (fun y => y.src != q.src || y.slot != q.slot) ++ [q] } }

def doPullReceive (s : State) : State := takeSeq s 0x21 (fun s p _ => pullPerform s p)

/-- The PULLs being worked on: those with returned PUTs that are not acknowledged, by requester and PULL_ID. -/
def pullsWorked (s : State) : List (Nat × Nat) :=
  (s.net.tx.flatMap (fun e => ((e.2.wait ++ (e.2.held ++ e.2.out).map (·.tx)).filter (fun t => t.org == .serve)).map
    (fun t => (e.1, t.pkt.aux % 65536)))).eraseDups

/-- The responder serves the oldest PULL while it works on fewer than 16: its bytes return as PUTs (R327). Nothing is sent to a fenced
device (R299). -/
def doPullServe (s : State) : State :=
  match s.net.pullq with
  | [] => s
  | q :: rest =>
    if s.inFault || decide (16 ≤ (pullsWorked s).length) then s
    else if s.fenced q.src then { s with net := { s.net with pullq := rest } }
    else
      let off := if faSpace q.addr = 0 then faOff q.addr else 2 ^ 48
      let s := { (s.bump pgMem 3) with net := { s.net with pullq := rest } }
      (cutRange 4096 (q.len + 1) (faOff q.dest) q.len).foldl (fun s p =>
        sendSeq s (mkTx (mkPkt 0x20 q.src s.ownDev (mkFa 0 q.src p.1) (q.pullId + 2 ^ 16) []) .serve
          [(some (off + (p.1 - faOff q.dest)), p.2)])) s

/-- Pulled data; a STATUS other than OK is a failure of the XCOPY (R328, R338). -/
def pulledPut (s : State) (p : Packet) (a : Ack) : State :=
  match pullFrom s (p.aux % 65536) p.src with
  | none => s
  | some x =>
    let pos := x.pos + (faOff p.addr - faOff x.dest)
    let s := dataFails s x.cmd pos (natBits p.aux 31 24) p.poison (some (pgXdm (s.cmd x.cmd).inst, 1))
    emit s x.cmd [(some (faOff p.addr), p.payload.length)] (cutBytes (s.cmd x.cmd) pos p.payload) (some a)

/-- PUT (R283, R327). -/
def putPerform (s : State) (p : Packet) (a : Ack) : State :=
  if p.aux.testBit 16 then pulledPut s p a else arriveWrite s p.addr p.payload p.poison (some a)

def doPutReceive (s : State) : State := takeSeq s 0x20 putPerform

/-- A pull incomplete REQ_TMO after its acknowledgement is sent again with its SLOT and PULL_ID, or times out (R328). -/
def doPullTimeout (pullId : BitVec 16) (s : State) : State :=
  match s.net.pulls.find? (fun x => x.pullId == pullId.toNat) with
  | none => s
  | some x =>
    if !x.acked || s.inFault then s
    else if x.limit ≤ x.tries then
      settle ((dropPull s x).modCmd x.cmd (fun y => y.failWith 7 0 (some (pgMem, 2)))) x.cmd
    else
      let s := modPull s x.pullId (fun y => { y with tries := y.tries + 1, acked := false })
      let p := mkPkt 0x21 x.dst s.ownDev x.addr x.slot (leBytes 8 x.dest ++ leBytes 4 x.len ++ leBytes 2 x.pullId ++ [0, 0])
      sendSeq s { mkTx p (.pull x.cmd x.pos) [] with again := true }

/-! ### The window table (R312 to R314, R333) -/

/-- An entry of the MEM page's table as the checkers would hold it. -/
def windowEntry (s : State) (w : Nat) : Window :=
  let f (x : Fld) : Nat := s.fld pgMem (x.at (0x20 * w))
  let b (x : Fld) : Bool := s.flag pgMem (x.at (0x20 * w))
  { space := f MEM_WATTR_SPACE, devLo := f MEM_WDEV_DEV_LO, devHi := f MEM_WDEV_DEV_HI,
    base := 2 ^ 32 * f MEM_WBASE_HI_BASE_HI + 2 ^ 12 * f MEM_WBASE_LO_BASE_LO, size := f MEM_WSIZE,
    r := b MEM_WATTR_R, w := b MEM_WATTR_W, a := b MEM_WATTR_A, s := b MEM_WATTR_S, t := b MEM_WATTR_T }

def windowValid (s : State) (w : Nat) : Bool := s.flag pgMem (MEM_WATTR_VALID.at (0x20 * w))

/-- The valid entries of the table. -/
def windowTable (s : State) : List Window := ((List.range 64).filter (windowValid s)).map (windowEntry s)

/-- Is a valid entry reserved (R333). -/
def Window.reserved (x : Window) : Bool :=
  x.space == 3 || x.size == 0 || decide (x.devHi < x.devLo) || decide (2 ^ 48 < x.base + 4096 * x.size)

/-- WCTRL.COMMIT = 1: refused while a valid entry is reserved, ignored while a copy is in progress. -/
def doWindowCommit (s : State) : State :=
  if s.flag pgMem MEM_WCTRL_COMMIT_PEND then s
  else if (windowTable s).any Window.reserved then s.noteReject pgMem 0x100 false
  else { s.setFld pgMem MEM_WCTRL_COMMIT_PEND 1 with net := { s.net with commit := some (windowTable s) } }

/-- Every checker holds the new table. -/
def doWindowCommitDone (s : State) : State :=
  match s.net.commit with
  | none => s
  | some t =>
    { s.setFld pgMem MEM_WCTRL_COMMIT_PEND 0 with net := { s.net with commit := none, windows := t, denied := [] } }

/-! ### Meanings -/

/-- COPY. -/
def execCopy (c : CoreId) (s : State) : Res := .next (powered (doCopy c) s)

/-- FILL. -/
def execFill (c : CoreId) (s : State) : Res := .next (powered (doFill c) s)

/-- RGET. -/
def execRget (c : CoreId) (s : State) : Res := .next (powered (doRget c) s)

/-- RPUT. -/
def execRput (c : CoreId) (s : State) : Res := .next (powered (doRput c) s)

/-- RATOMIC. -/
def execRatomic (c : CoreId) (s : State) : Res := .next (powered (doRatomic c) s)

/-- TRIGGER. -/
def execTrigger (c : CoreId) (s : State) : Res := .next (powered (doTrigger c) s)

/-- FLAGGED_PACKET_RELEASE. -/
def execFlaggedPacketRelease (tree : Bool) (dst : DevNum) (s : State) : Res := .next (powered (doFlaggedPacketRelease tree dst) s)

/-- E2E_RETRANSMIT. -/
def execE2eRetransmit (tree : Bool) (dst : DevNum) (eseq : Nat) (s : State) : Res := .next (powered (doE2eRetransmit tree dst eseq) s)

/-- MPUT_RECEIVE. -/
def execMputReceive (s : State) : Res := .next (powered doMputReceive s)

/-- MSIG_RECEIVE. -/
def execMsigReceive (s : State) : Res := .next (powered doMsigReceive s)

/-- MACK_RECEIVE. -/
def execMackReceive (s : State) : Res := .next (powered doMackReceive s)

/-- MACK_SEND. -/
def execMackSend (tree : GroupId) (s : State) : Res := .next (powered (doMackSend tree) s)

/-- MT_VALID_WRITE. -/
def execMtValidWrite (tree : GroupId) (src up : DevNum) (s : State) : Res := .next (powered (doMtValidWrite tree src up) s)

/-- XCOPY. -/
def execXcopy (at_ : EngStep) (s : State) : Res := .next (powered (doXcopy at_) s)

/-- XMCAST. -/
def execXmcast (at_ : EngStep) (s : State) : Res := .next (powered (doXmcast at_) s)

/-- XMSIG. -/
def execXmsig (at_ : EngStep) (s : State) : Res := .next (powered (doXmsig at_) s)

/-- STORE_RECEIVE. -/
def execStoreReceive (s : State) : Res := .next (powered doStoreReceive s)

/-- SIG_RECEIVE. -/
def execSigReceive (s : State) : Res := .next (powered doSigReceive s)

/-- TRIG_RECEIVE. -/
def execTrigReceive (s : State) : Res := .next (powered doTrigReceive s)

/-- LOAD_RECEIVE. -/
def execLoadReceive (s : State) : Res := .next (powered doLoadReceive s)

/-- ATOMIC_RECEIVE. -/
def execAtomicReceive (s : State) : Res := .next (powered doAtomicReceive s)

/-- LDATA_RECEIVE. -/
def execLdataReceive (s : State) : Res := .next (powered doLdataReceive s)

/-- ARES_RECEIVE. -/
def execAresReceive (s : State) : Res := .next (powered doAresReceive s)

/-- CSR_DATA_RECEIVE. -/
def execCsrDataReceive (s : State) : Res := .next (powered doCsrDataReceive s)

/-- ACK_RECEIVE. -/
def execAckReceive (s : State) : Res := .next (powered doAckReceive s)

/-- REQUEST_TIMEOUT. -/
def execRequestTimeout (c : CoreId) (slot : Fin 256) (s : State) : Res := .next (powered (doRequestTimeout c slot) s)

/-- PULL_RECEIVE. -/
def execPullReceive (s : State) : Res := .next (powered doPullReceive s)

/-- PULL_SERVE. -/
def execPullServe (s : State) : Res := .next (powered doPullServe s)

/-- PUT_RECEIVE. -/
def execPutReceive (s : State) : Res := .next (powered doPutReceive s)

/-- PULL_TIMEOUT. -/
def execPullTimeout (pullId : BitVec 16) (s : State) : Res := .next (powered (doPullTimeout pullId) s)

/-- WINDOW_COMMIT. -/
def execWindowCommit (s : State) : Res := .next (powered doWindowCommit s)

/-- WINDOW_COMMIT_DONE. -/
def execWindowCommitDone (s : State) : Res := .next (powered doWindowCommitDone s)

end Sys2Proof.Machine
end

