-- ==== Sys2Proof/Machine/Aquatint.lean ====
section
/-!
DEFINITION. The aquatint engines (R160 to R191): loading and calibration, drift, light, service state, and the commands. What
the optics compute is y = M x with an error left free within the bound of R181 (R4, R160, R179).
-/

namespace Sys2Proof.Machine

/-- The Strelist instance of an engine (R20) and the sensor of its die (R448). -/
def aqtDie (e : Nat) : Nat := e / 2
def aqtSensor (f : Fuses) (e : Nat) : Nat := 88 + 2 * f.part.stlPos (e / 2) + 1

/-- A sensor's temperature in units of 0.125 °C (R449). -/
def sensorTemp (s : State) (n : Nat) : Int := sext 12 (s.fld pgThm (THM_SENS_TEMP.at (4 * n)))

def aqtTemp (s : State) (e : Nat) : Int := sensorTemp s (aqtSensor s.fuses e)

/-- STAT.HELD follows the two holds (R170, R172). -/
def showHeld (s : State) (e : Nat) : State :=
  s.setFld (pgAqt e) AQT_STAT_HELD (if (s.aqt e).heldHold || (s.aqt e).heldLight then 1 else 0)

/-- The commands of the queue that have not run: neither complete nor waiting for their light to be confirmed. -/
def aqtWaiting (s : State) (e : Nat) : List Nat :=
  (s.aqt e).queue.filter (fun id => !(s.cmd id).ran && !(s.aqt e).confirm.contains id)

def aqtInService (s : State) (e : Nat) : Bool := decide (e < s.fuses.part.aqts) && !s.flag (pgAqt e) AQT_STAT_OOS

/-- May the engine start a command or a recalibration: in service, calibrating nothing, not held, awake (R168, R170, R172). -/
def aqtFree (s : State) (e : Nat) : Bool :=
  let x := s.aqt e
  s.running && aqtInService s e && x.phase == .idle && !x.heldHold && !x.heldLight && x.power == 0

/-- A command has run to its end. -/
def ranNow (s : State) (id : Nat) : State := s.modCmd id (fun x => { x with ran := true })
def endCmd (s : State) (id status detail : Nat) (src : Option (Nat × Nat)) : State :=
  ranNow (s.modCmd id (fun x => x.failWith status detail src)) id

/-- The command whose ALOAD or ACAL a calibration serves. -/
def calOwner (x : AqtSt) : Option Nat :=
  match x.phase with
  | .settle (.load id) _ | .check (.load id) _ => some id
  | _ => x.acal

/-- The engine goes out of service (R173): its own command takes `src`, and those in its queue complete with
ENGINE_ABSENT. -/
def goOos (s : State) (e cause : Nat) (src : Option (Nat × Nat)) : State :=
  let owner := calOwner (s.aqt e)
  let s := s.setFlds (pgAqt e) [(AQT_STAT_OOS, 1), (AQT_STAT_READY, 0), (AQT_STAT_LOADING, 0), (AQT_STAT_RECAL, 0),
    (AQT_MATRIX_ID, 0), (AQT_MSCALE, 0), (AQT_SVC_CAUSE, cause)]
  let s := match owner, src with
    | some id, _ => endCmd s id 2 0 src
    | none, some (p, x) => errOcc s p x 0
    | none, none => s
  let s := (aqtWaiting s e).foldl (fun s id => endCmd s id 2 0 none) s
  showHeld (s.modAqt e (fun x => { x with
    resident := false, phase := .idle, due := false, acal := none, heldLight := false, recalFirst := false })) e

/-! ### Calibration (R164 to R169) -/

/-- A full recalibration of the resident image begins; the line of CFG takes effect (R169, R171, R172, R176). -/
def startFull (s : State) (e : Nat) : State :=
  let s := (s.setFlds (pgAqt e) [(AQT_STAT_LOADING, 1), (AQT_STAT_RECAL, 0)]).bump (pgAqt e) 2
  s.modAqt e (fun x => { x with phase := .settle .full 0, due := false })

/-- A drift recalibration begins with a check (R168). -/
def startDrift (s : State) (e : Nat) : State :=
  let s := (s.setFld (pgAqt e) AQT_STAT_RECAL 1).bump (pgAqt e) 2
  s.modAqt e (fun x => { x with phase := .check .drift 0, due := false })

/-- AQT_HEATER_SETTLE_DONE: a check follows. A full calibration takes the line of CFG as it begins, and verifies the identity of a new
one: `identOk`; a line written later waits for the next (R171). -/
def doAqtHeaterSettleDone (e : AqtId) (identOk : Bool) (s : State) : State :=
  if s.inFault then s
  else match (s.aqt e).phase with
  | .settle why n =>
    let line := if n = 0 ∧ why ≠ .drift then s.fld (pgAqt e) AQT_CFG_LINE else (s.aqt e).line
    if line ≠ (s.aqt e).line ∧ !identOk then goOos s e 4 none
    else s.modAqt e (fun x => { x with phase := .check why n, line := line })
  | _ => s

/-- A passed check ends the calibration. -/
def calPassed (s : State) (e : Nat) (why : AqtWhy) : State :=
  let x := s.aqt e
  let t := aqtTemp s e
  let s := s.setFlds (pgAqt e) [(AQT_STAT_LOADING, 0), (AQT_STAT_RECAL, 0)]
  let s := s.modAqt e (fun x => { x with phase := .idle, due := false, tempRef := t, acal := none })
  match why with
  | .load id =>
    let s := s.setFlds (pgAqt e) [(AQT_MATRIX_ID, leAt x.image 4 4), (AQT_MSCALE, leAt x.image 8 4), (AQT_STAT_READY, 1)]
    ranNow (s.modAqt e (fun x => { x with resident := true, recalFirst := false })) id
  | .full =>
    let s := if x.heldLight then errOcc s (pgAqt e) 5 0 else s
    let s := showHeld (s.modAqt e (fun x => { x with heldLight := false, recalFirst := false })) e
    match x.acal with
    | some id => ranNow s id
    | none => s
  | .drift =>
    match x.acal with
    | some id => ranNow s id
    | none => s

/-- AQT_CAL_CHECK_DONE (R164, R165, R168, R169). -/
def doAqtCalCheckDone (e : AqtId) (calErr : BitVec 16) (s : State) : State :=
  if s.inFault then s
  else match (s.aqt e).phase with
  | .check why n =>
    let s := s.setFld (pgAqt e) AQT_CAL_CAL_ERR calErr.toNat
    let again (s : State) : State := s.modAqt e (fun x => { x with phase := .settle why (n + 1) })
    if calErr.toNat ≤ s.fld (pgAqt e) AQT_CAL_CAL_TOL then calPassed s e why
    else match why with
    | .drift => if n = 0 then again s else startFull (errOcc s (pgAqt e) 2 0) e
    | .load _ => if n < 3 then again s else goOos s e 2 (some (pgAqt e, 1))
    | .full => if n < 3 then again s else goOos s e 3 (some (pgAqt e, 3))
  | _ => s

/-- DRIFT_RECAL_DUE: the period has run out, or the die's temperature has moved by RECAL_DT (R168). -/
def doDriftRecalDue (e : AqtId) (byPeriod : Bool) (s : State) : State :=
  let x := s.aqt e
  let moved := decide (4 * (bits x.cfg 27 24) ≤ (aqtTemp s e - x.tempRef).natAbs)
  if x.resident && aqtInService s e && x.phase == .idle && decide (x.power < 3) && (byPeriod || moved) then s.modAqt e (fun x => { x with due := true })
  else s

/-- DRIFT_RECAL_START: at a command boundary the recalibration that is due runs; after a wake, the full one (R168, R176). -/
def doDriftRecalStart (e : AqtId) (s : State) : State :=
  let x := s.aqt e
  if !(aqtFree s e && x.resident) then s
  else if x.recalFirst then startFull s e
  else if x.due then startDrift s e
  else s

/-! ### Light (R172) -/

/-- AQT_LIGHT_LOSS: the running command, and those whose confirmation window the loss falls in, fail. -/
def doAqtLightLoss (e : AqtId) (inWindow : Bool) (s : State) : State :=
  if !aqtInService s e then s
  else
    let x := s.aqt e
    let hit := (if inWindow then x.confirm else []) ++ (match calOwner x with | some id => [id] | none => [])
    let s := hit.foldl (fun s id => endCmd s id 4 1 (some (pgAqt e, 4))) s
    let s := s.setFlds (pgAqt e) [(AQT_STAT_LOADING, 0), (AQT_STAT_RECAL, 0)]
    showHeld (s.modAqt e (fun x => { x with
      phase := .idle, acal := none, heldLight := true, lossSwitch := (smGet DieSt.init s.dies (aqtDie e)).switches, confirm := if inWindow then [] else x.confirm })) e

/-- AQT_LIGHT_CONFIRM: light 120 ns past the last vector of the oldest command that waits for it. -/
def doAqtLightConfirm (e : AqtId) (s : State) : State :=
  match (s.aqt e).confirm with
  | [] => s
  | id :: rest => ranNow (s.modAqt e (fun x => { x with confirm := rest })) id

/-- Has the die a selected input with light and no switch in progress. -/
def dieLit (s : State) (d : Nat) : Bool :=
  let x := smGet DieSt.init s.dies d
  x.selected && !x.switching && !s.flag (pgStl d) STL_LSTAT_DARK
    && (if s.flag (pgStl d) STL_LSTAT_INPUT then s.flag (pgStl d) STL_LSTAT_B_LIGHT else s.flag (pgStl d) STL_LSTAT_A_LIGHT)

/-- AQT_SWITCHOVER_RECAL: the selector has switched; the resident image is recalibrated in full, source 5 is recorded when that has
passed, and the engine resumes; with no image resident nothing is to be recalibrated, and source 5 is recorded as it resumes (log entry
123). An engine that sleeps is recalibrated once it is awake (R465). -/
def doAqtSwitchoverRecal (e : AqtId) (s : State) : State :=
  let x := s.aqt e
  let switched := (smGet DieSt.init s.dies (aqtDie e)).switches != x.lossSwitch
  if x.heldLight && x.phase == .idle && x.power == 0 && aqtInService s e && dieLit s (aqtDie e) && switched
      && !s.inFault then
    if x.resident then startFull s e
    else errOcc (showHeld (s.modAqt e (fun x => { x with heldLight := false })) e) (pgAqt e) 5 0
  else s

/-! ### Service (R173, R174) -/

/-- The engine enters service with no matrix resident. -/
def aqtEnter (s : State) (e : Nat) : State :=
  let s := s.setFlds (pgAqt e) [(AQT_STAT_OOS, 0), (AQT_SVC_CAUSE, 0), (AQT_SVC_READMIT_PEND, 0)]
  s.modAqt e (fun x => { x with line := s.fld (pgAqt e) AQT_CFG_LINE, resident := false })

/-- The readmission test's outcome. -/
def aqtTest (s : State) (e : Nat) (identOk : Bool) (calErr : Nat) : State :=
  let s := s.setFld (pgAqt e) AQT_CAL_CAL_ERR calErr
  if identOk && decide (calErr ≤ s.fld (pgAqt e) AQT_CAL_CAL_TOL) then aqtEnter s e
  else s.setFlds (pgAqt e) [(AQT_SVC_CAUSE, 5), (AQT_SVC_READMIT_PEND, 0)]

def doAqtReadmitWrite (e : AqtId) (s : State) : State :=
  if s.flag (pgAqt e) AQT_STAT_OOS then s.setFld (pgAqt e) AQT_SVC_READMIT_PEND 1 else s

/-- AQT_READMIT_TEST: without comb light the line has no identity, and the test fails (R174). -/
def doAqtReadmitTest (e : AqtId) (identOk : Bool) (calErr : BitVec 16) (s : State) : State :=
  if s.flag (pgAqt e) AQT_STAT_OOS && s.flag (pgAqt e) AQT_SVC_READMIT_PEND && !s.inFault then
    aqtTest s e (identOk && dieLit s (aqtDie e)) calErr.toNat
  else s

/-- AQT_CONFIG_APPLY: CFG and SMASK as written take effect at a command boundary, so while no ALOAD or ACAL runs (R191). -/
def doAqtConfigApply (e : AqtId) (s : State) : State :=
  let masks := (List.range 4).flatMap (fun i => [s.reg (pgAqt e) (0x120 + 8 * i), s.reg (pgAqt e) (0x124 + 8 * i)])
  if (calOwner (s.aqt e)).isSome then s else s.modAqt e (fun x => { x with cfg := s.reg (pgAqt e) 0x100, smask := masks })

/-! ### Images (R163) -/

def imageLen : Nat := 24640

/-- Is the BF16 code finite with a magnitude of at most 1. -/
def targetOk (c : Nat) : Bool := decide (c % 0x8000 ≤ 0x3F80)

/-- The checks of R163 on an image of 24,640 bytes. -/
def imageOk (b : List Byte) : Bool :=
  let kind := leAt b 2 1
  let scale := leAt b 8 4
  leAt b 0 1 == 0xA9 && leAt b 1 1 == 1 && decide (kind ≤ 1) && leAt b 3 1 == 0 && leAt b 4 4 != 0
    && decide (0 < scale) && decide (scale < 0x7F800000) && (kind == 1 || scale == 0x3F800000)
    && (crc32c (b.drop 64)).toNat == leAt b 12 4 && leAt b 16 48 == 0
    && (List.range 4096).all (fun i => targetOk (leAt b (64 + 2 * i) 2))
    && (kind == 1 || (List.range 64).all (fun i => leAt b (24384 + 2 * i) 2 == 0xFFFF))

/-! ### Input and output vectors (R177 to R180) -/

/-- Bytes of a vector in each form. -/
def aqtBytes : Nat → Nat
  | 0x2 => 64 | 0xB => 48 | _ => 80

/-- The elements of an input vector (R177, R178). -/
def vecElems (f : Nat) (b : List Byte) : List Num :=
  if f = 0xD then (b.drop 16).map (fun x => (f32 (leAt b 0 4)).mul (Num.ofInt x.toInt 0)) else decodeRow f 64 b

/-- A finite number as a multiple of 2^q, for a q no greater than its exponent. -/
def Num.units (q : Int) : Num → Int
  | .fin neg m e => (if neg then -1 else 1) * (m * 2 ^ (e - q).toNat : Nat)
  | _ => 0

/-- A finite number's exponent, none for another. -/
def Num.expOf : Num → Option Int
  | .fin _ _ e => some e
  | _ => none

/-- The integer square root of a number below 4^n, bit by bit. -/
def isqrt : Nat → Nat → Nat → Nat
  | 0, _, r => r
  | n + 1, x, r => isqrt n x (if (r + 2 ^ n) ^ 2 ≤ x then r + 2 ^ n else r)

/-- The FP32 code of the greatest number not above m × 2^e. -/
def floorF32 (m : Nat) (e : Int) : Nat :=
  if m = 0 then 0
  else
    let q := max (ilog m e - 23) (-149)
    toF32 (.fin false (m * 2 ^ (e - q).toNat / 2 ^ (q - e).toNat) q)

/-- A quotient rounded to nearest, ties to even. -/
def rneDiv (a : Int) (b : Nat) : Int :=
  let q := a / b
  let r := a % b
  if (b : Int) < 2 * r || (2 * r == b && q % 2 != 0) then q + 1 else q

/-- What reaches the receivers for one vector. -/
inductive Shot where
  /-- a vector of zeros: s and every element are 0 (R179) -/
  | zero
  /-- the FP32 code of s, and each y_j / s as a numerator over one denominator -/
  | stated (sc : Nat) (num : List Int) (den : Nat)
  /-- an input that is not finite, or a scale too small for FP32 or beyond it: nothing is stated of the elements -/
  | unstated (sc : Nat)
deriving DecidableEq, Repr

/-- TARGET of an image as multiples of 2^−133, row by row (R163). -/
def targetRows (image : List Byte) : List (List Int) :=
  pieces 65 64 ((List.range 4096).map (fun i => (decodeFp bf16F (leAt image (64 + 2 * i) 2)).units (-133)))

/-- The magnitude of a drive code: 127 |x| / m for the largest magnitude m, whose rounding to one of the two integers beside it is left
free (R177, log entry 109). -/
def driveCode (x : Int) (m up : Nat) : Nat := 127 * x.natAbs / m + (if 127 * x.natAbs % m = 0 then 0 else up % 2)

/-- Is a finite number the root of `n` / `d`² × 4^e. -/
def isRoot (x : Num) (n d : Nat) (e : Int) : Bool :=
  match x with
  | .fin _ m k => m ^ 2 * d ^ 2 * 4 ^ (k - e).toNat == n * 4 ^ (e - k).toNat
  | _ => false

/-- The scale code of a vector (R179): FS / 127 with FS = FS_SIGMA × ‖x‖₂ × MSCALE / 8, ‖x‖₂ being (m / 127) times the root of the drive
codes' squares; where no FP32 number is equal to it, which of the two beside it is left free (log entry 109). -/
def scaleCode (sigma mscale : Nat) (m : Nat) (q : Int) (codes : List Nat) (up : Nat) : Nat :=
  match f32 mscale with
  | .fin _ sm se =>
    let n := (sigma * sm * m) ^ 2 * (codes.map (· ^ 2)).sum
    let sc := floorF32 (isqrt 400 (n * 4 ^ 64 / 129032 ^ 2) 0) (se + q - 64)
    if isRoot (f32 sc) n 129032 (se + q) then sc else sc + up % 2
  | _ => 0

/-- One vector through the optics: `mask` negates elements before modulation (R160, R162, R177, R179, R184). -/
def shoot (image : List Byte) (sigma : Nat) (mask : Nat) (xs : List Num) (s : State) : Shot × State :=
  let fin := xs.filterMap Num.expOf
  let q := fin.foldl min 0
  let v := (xs.map (Num.units q)).mapIdx (fun i x => if mask.testBit i then -x else x)
  let m := (v.map Int.natAbs).foldl max 0
  if fin.length ≠ xs.length then
    let (sc, s) := s.freeNat 0x7F800000
    (.unstated sc, s)
  else if m = 0 then (.zero, s)
  else
    let codes := v.mapIdx (fun i x => driveCode x m (Config.freeNat (s.draw + i)))
    let (up, s) := { s with draw := s.draw + 64 }.freeNat 2
    let mscale := leAt image 8 4
    let sc := scaleCode sigma mscale m q codes up
    match f32 sc, f32 mscale with
    | .fin _ (dm + 1) de, .fin _ sm se =>
      let k := q - 133 + se - de
      (.stated sc ((targetRows image).map (fun row => ((row.zip v).map (fun p => p.1 * p.2)).sum * (sm * 2 ^ k.toNat : Nat)))
        ((dm + 1) * 2 ^ (-k).toNat), s)
    | .fin _ _ _, _ => (.unstated sc, s)
    | _, _ =>
      let (sc, s) := s.freeNat 0x7F800000
      (.unstated sc, s)

/-- The elements of a vector with a deviation of each from its rounded value, and which of them saturated (R179). -/
def shotElems (y : Shot) (dev : List Int) : List (Int × Bool) :=
  match y with
  | .zero => List.replicate 64 (0, false)
  | .stated _ num den => (num.zip dev).map (fun p =>
      let w := rneDiv p.1 den + p.2
      (max (-127) (min 127 w), decide (127 < w.natAbs)))
  | .unstated _ => dev.map (fun d => (max (-127) (min 127 d), decide (127 < d.natAbs)))

/-- The elements that R181 counts, and the sum of their squared errors in units of 2^−40 of a squared output step, each error rounded up
to a multiple of 2^−20 step, so that what passes the bound keeps it. -/
def shotError (y : Shot) (dev : List Int) : Nat × Nat :=
  match y with
  | .stated _ num den =>
    let l := (num.zip (shotElems y dev)).filter (fun p => !p.2.2)
    (l.length, (l.map (fun (p : Int × Int × Bool) => (((p.2.1 * (den : Int) - p.1).natAbs * 2 ^ 20 + den - 1) / den) ^ 2)).sum)
  | _ => (0, 0)

/-- Is the RMS error over elements and vectors at most 0.58 output steps (R181). -/
def withinBound (ys : List (Shot × List Int)) : Bool :=
  let l := ys.map (fun y => shotError y.1 y.2)
  decide (10000 * (l.map (·.2)).sum ≤ 3364 * (l.map (·.1)).sum * 2 ^ 40)

/-- The scale code of a vector. -/
def Shot.code : Shot → Nat
  | .zero => 0
  | .stated sc _ _ => sc
  | .unstated sc => sc

/-- What the back end forms of a command's vectors: for each its scale code, its elements, and how many saturated. The deviations of the
elements are free within the bound of R181 while the last check passed at the default CAL_TOL, and free without it (R4, log entry
109). -/
def backEnd (s : State) (e : Nat) (shots : List Shot) : List (Nat × List Int × Nat) × State :=
  let devs := shots.mapIdx (fun i y => (y, (List.range 64).map (fun j => ((Config.freeNat (s.draw + 64 * i + j) % 511 : Nat) : Int) - 255)))
  let exact := shots.map (fun y => (y, List.replicate 64 (0 : Int)))
  let ok := decide (19 < s.fld (pgAqt e) AQT_CAL_CAL_ERR) || withinBound devs
  let pick (p : (Shot × List Int) × (Shot × List Int)) : Shot × List Int :=
    match p.1.1 with
    | .unstated _ => p.1
    | _ => if ok then p.1 else p.2
  ((devs.zip exact).map (fun p =>
    let es := shotElems (pick p).1 (pick p).2
    (p.1.1.code, es.map (·.1), countIf (·.2) es)), { s with draw := s.draw + 64 * shots.length })

/-- The value s × e of an element. -/
def elemValue (sc : Nat) (e : Int) : Num := (f32 sc).mul (Num.ofInt e 0)

/-- An output vector in the form of R180. -/
def outForm (f sc : Nat) (es : List Int) : List Byte :=
  if f = 0xD then leBytes 4 sc ++ List.replicate 12 0 ++ es.map (fun e => BitVec.ofInt 8 e)
  else rowRecord f 64 ((pieces 3 32 (es.map (elemValue sc))).map (fun b =>
    let (x, cs, _, _) := quantBlock f 0 0 b []
    (x, cs)))

/-- Each vector of a list through the optics, vector i with the mask of piece i mod `g`. -/
def shootAll (image : List Byte) (sigma : Nat) (f g : Nat) (masks : List Nat) : Nat → List (List Byte) → State → List Shot × State
  | _, [], s => ([], s)
  | i, v :: vs, s =>
    let (y, s) := shoot image sigma (masks.getD (i % g) 0) (vecElems f v) s
    let (ys, s) := shootAll image sigma f g masks (i + 1) vs s
    (y :: ys, s)

/-- A command's vectors through the engine, with FS_SIGMA in effect (R191). -/
def opticsAll (s : State) (e f g : Nat) (masks : List Nat) (vs : List (List Byte)) : List (Nat × List Int × Nat) × State :=
  let (shots, s) := shootAll (s.aqt e).image (bits (s.aqt e).cfg 11 8) f g masks 0 vs s
  backEnd s e shots

/-- SMASK[i] in effect. -/
def pieceMasks (x : AqtSt) : List Nat :=
  (List.range 4).map (fun i => (x.smask.getD (2 * i) 0).toNat + 2 ^ 32 * (x.smask.getD (2 * i + 1) 0).toNat)

/-- A sketch from its pieces (R184). -/
def sketchOf (ys : List (Nat × List Int × Nat)) : List Byte :=
  let bit (j : Nat) : Bool :=
    (ys.foldl (fun z y => fAdd z (round32 (elemValue y.1 (y.2.1.getD j 0)))) Num.zero).gt Num.zero
  leBytes 8 ((List.range 64).map (fun j => if bit j then 2 ^ j else 0)).sum

/-! ### The commands at the queue head -/

/-- ALOAD: the image is read and checked; from then on the previous matrix is gone (R164). -/
def runAload (s : State) (e id : Nat) : State :=
  let x := s.cmd id
  let (r, s) := readSlot s x 0 imageLen
  let (inj0, s) := takeCrcInjection s (pgAqt e) 0
  let (inj7, s) := takeCrcInjection s (pgAqt e) 7
  let s := s.modCmd id (fun x => x.failAll (r.fails 0))
  if !r.bad.isEmpty then ranNow s id
  else if inj7 then goOos (endCmd s id 2 0 (some (pgAqt e, 7))) e 3 none
  else if inj0 || !imageOk r.bytes then endCmd s id 8 40 (some (pgAqt e, 0))
  else
    let s := s.setFlds (pgAqt e) [(AQT_STAT_LOADING, 1), (AQT_STAT_READY, 0), (AQT_MATRIX_ID, 0), (AQT_MSCALE, 0)]
    s.modAqt e (fun x => { x with image := r.bytes, resident := false, phase := .settle (.load id) 0 })

/-- The vectors of a command: those before the first failing word, and how many there are in all (R146). -/
def readVectors (s : State) (id : Nat) : List (List Byte) × Nat × State :=
  let x := s.cmd id
  let n := aqtBytes (patFmt (patAt x.pats 0))
  let (r, s) := readSlot s x 0 0
  let s := s.modCmd id (fun x => x.failAll (r.fails 0))
  let all := pieces (r.bytes.length + 1) n r.bytes
  let real := match minOf (r.bad.map (·.pos)) with
    | some p => p / n
    | none => all.length
  (all.take real, all.length, s)

/-- The output of a command, and its wait for the light to be confirmed. -/
def aqtOut (s : State) (e id : Nat) (bs : List Byte) (vectors clipped : Nat) : State :=
  let s := emitSlot s id 1 bs
  let s := (s.bumpBy (pgAqt e) 0 vectors).bumpBy (pgAqt e) 1 clipped
  s.modAqt e (fun x => { x with confirm := x.confirm ++ [id] })

/-- AMUL (R177 to R180). -/
def runAmul (s : State) (e id : Nat) : State :=
  let fi := patFmt (patAt (s.cmd id).pats 0)
  let fo := patFmt (patAt (s.cmd id).pats 1)
  let (vs, total, s) := readVectors s id
  let (ys, s) := opticsAll s e fi 1 [] vs
  let bs := ys.flatMap (fun y => outForm fo y.1 y.2.1) ++ List.replicate ((total - vs.length) * aqtBytes fo) 0
  aqtOut s e id bs total ((ys.map (·.2.2)).sum)

/-- ASKETCH (R184); a sketch with a failing piece and every later one are zeros. -/
def runAsketch (s : State) (e id : Nat) : State :=
  let fi := patFmt (patAt (s.cmd id).pats 0)
  let g := 2 ^ (opParam (s.cmd id).desc 1 % 4)
  let (vs, total, s) := readVectors s id
  let (ys, s) := opticsAll s e fi g (pieceMasks (s.aqt e)) (vs.take (vs.length / g * g))
  let bs := (pieces (ys.length + 1) g ys).flatMap sketchOf
  aqtOut s e id (bs ++ List.replicate (total / g * 8 - bs.length) 0) total ((ys.map (·.2.2)).sum)

/-- A command that needs a matrix: none resident, or another than IDCHK names (R175, R183). -/
def withMatrix (s : State) (e id : Nat) (go : State) : State :=
  let x2 := descOp (s.cmd id).desc 2
  let op := descOpcode (s.cmd id).desc
  if !(s.aqt e).resident then endCmd s id 8 0 none
  else if op ≠ 0x63 ∧ x2.testBit 32 ∧ x2 % 2 ^ 32 ≠ s.fld (pgAqt e) AQT_MATRIX_ID then
    endCmd s id 8 56 (some (pgAqt e, 6))
  else go

/-- The engine runs the next command of its queue when it has opcode `op` (R167). -/
def runAqt (s : State) (e op : Nat) (go : State → Nat → State) : State :=
  match aqtWaiting s e with
  | [] => s
  | id :: _ =>
    if aqtFree s e && !(s.aqt e).due && !(s.aqt e).recalFirst && descOpcode (s.cmd id).desc == op then go s id else s

/-! ### Checks at issue (R182, R183) -/

def checkAqt (s : State) (e : WinEntry) (slots : List Nat) (own : List (Option Verdict)) : Option Verdict :=
  firstV (own ++ slots.map (fun i => checkDev s e.desc e.pats imageLen i))

def checkAload (s : State) (e : WinEntry) : Option Verdict :=
  checkAqt s e [0] [whenV (hasPat e.pats 0 && patLen (patAt e.pats 0) != imageLen) (fmtErr 0x300)]

/-- Formats and lengths of AMUL and ASKETCH. -/
def checkStream (s : State) (e : WinEntry) : Option Verdict :=
  let fi := patFmt (patAt e.pats 0)
  let fo := patFmt (patAt e.pats 1)
  let n := patLen (patAt e.pats 0)
  let amul := descOpcode e.desc = 0x61
  let per := if amul then 1 else 2 ^ (opParam e.desc 1 % 4)
  let v := n / aqtBytes fi
  checkAqt s e [0, 1]
    [ whenV (! [0x2, 0xD, 0x7, 0xC].contains fi) (fmtErr (0x200 + 8)),
      whenV (n % aqtBytes fi != 0 || v == 0 || decide (65535 < v) || v % per != 0) (fmtErr 0x300),
      whenV (!(if amul then [0xD, 0xB, 0xC] else [0xE]).contains fo) (fmtErr (0x200 + 64 + 8)),
      whenV (patLen (patAt e.pats 1) != (if amul then v * aqtBytes fo else v / per * 8)) (fmtErr 0x301) ]

def doAload (at_ : EngStep) (s : State) : State :=
  engStep at_ (fun c => issueOp s c 0x60 checkAload (push c)) (fun e => runAqt s e 0x60 (fun s id => runAload s e id))

def doAmul (at_ : EngStep) (s : State) : State :=
  engStep at_ (fun c => issueOp s c 0x61 checkStream (push c))
    (fun e => runAqt s e 0x61 (fun s id => withMatrix s e id (runAmul s e id)))

def doAsketch (at_ : EngStep) (s : State) : State :=
  engStep at_ (fun c => issueOp s c 0x62 checkStream (push c))
    (fun e => runAqt s e 0x62 (fun s id => withMatrix s e id (runAsketch s e id)))

def doAcal (at_ : EngStep) (s : State) : State :=
  engStep at_ (fun c => issueOp s c 0x63 (fun _ _ => none) (push c))
    (fun e => runAqt s e 0x63 (fun s id =>
      withMatrix s e id ((startDrift s e).modAqt e (fun x => { x with acal := some id }))))

/-! ### Meanings -/

/-- AQT_HEATER_SETTLE_DONE. -/
def execAqtHeaterSettleDone (e : AqtId) (identOk : Bool) (s : State) : Res := .next (powered (doAqtHeaterSettleDone e identOk) s)

/-- AQT_CAL_CHECK_DONE. -/
def execAqtCalCheckDone (e : AqtId) (calErr : BitVec 16) (s : State) : Res := .next (powered (doAqtCalCheckDone e calErr) s)

/-- DRIFT_RECAL_DUE. -/
def execDriftRecalDue (e : AqtId) (byPeriod : Bool) (s : State) : Res := .next (powered (doDriftRecalDue e byPeriod) s)

/-- DRIFT_RECAL_START. -/
def execDriftRecalStart (e : AqtId) (s : State) : Res := .next (powered (doDriftRecalStart e) s)

/-- AQT_LIGHT_LOSS. -/
def execAqtLightLoss (e : AqtId) (inWindow : Bool) (s : State) : Res := .next (powered (doAqtLightLoss e inWindow) s)

/-- AQT_LIGHT_CONFIRM. -/
def execAqtLightConfirm (e : AqtId) (s : State) : Res := .next (powered (doAqtLightConfirm e) s)

/-- AQT_SWITCHOVER_RECAL. -/
def execAqtSwitchoverRecal (e : AqtId) (s : State) : Res := .next (powered (doAqtSwitchoverRecal e) s)

/-- AQT_READMIT_WRITE. -/
def execAqtReadmitWrite (e : AqtId) (s : State) : Res := .next (powered (doAqtReadmitWrite e) s)

/-- AQT_READMIT_TEST. -/
def execAqtReadmitTest (e : AqtId) (identOk : Bool) (calErr : BitVec 16) (s : State) : Res := .next (powered (doAqtReadmitTest e identOk calErr) s)

/-- AQT_CONFIG_APPLY. -/
def execAqtConfigApply (e : AqtId) (s : State) : Res := .next (powered (doAqtConfigApply e) s)

/-- ALOAD. -/
def execAload (at_ : EngStep) (s : State) : Res := .next (powered (doAload at_) s)

/-- AMUL. -/
def execAmul (at_ : EngStep) (s : State) : Res := .next (powered (doAmul at_) s)

/-- ASKETCH. -/
def execAsketch (at_ : EngStep) (s : State) : Res := .next (powered (doAsketch at_) s)

/-- ACAL. -/
def execAcal (at_ : EngStep) (s : State) : Res := .next (powered (doAcal at_) s)

end Sys2Proof.Machine
end

