-- ==== Sys2Proof/Machine/Optics.lean ====
section
/-!
DEFINITION. The Strelist dies: laser inputs (R230 to R235), rings and identity (R236 to R240, R260 to R264), lane pairs (R241 to
R245, R254 to R256), frames (R255 to R259), transmit hold (R265) and monitors (R266, R268).
-/

namespace Sys2Proof.Machine

/-! ### Planes, fibres and lines -/

/-- The Strelist instance and fibre of a plane (R20, R236). -/
def planeDie (p : Nat) : Nat := if p < 48 then p / 6 else (p - 48) / 2
def planeFibre (p : Nat) : Nat := if p < 48 then p % 6 else 6 + (p - 48) % 2
/-- The plane of a fibre. -/
def planeOf (d f : Nat) : Nat := if f < 6 then 6 * d + f else 48 + 2 * d + (f - 6)

def dieFitted (s : State) (d : Nat) : Bool := decide (d < s.fuses.part.dies)
def planeFitted (s : State) (p : Nat) : Bool := dieFitted s (planeDie p)

/-- The receive line of the pair with transmit line `k`, and the reverse (R242, R245). -/
def mirror (p k : Nat) : Nat := if p < 48 then (32 - k) % 32 else k

def State.die (s : State) (d : Nat) : DieSt := smGet DieSt.init s.dies d
def State.setDie (s : State) (d : Nat) (x : DieSt) : State := { s with dies := smSet DieSt.init s.dies d x }
def State.modDie (s : State) (d : Nat) (f : DieSt → DieSt) : State := s.setDie d (f (s.die d))

/-- PLANE_STAT and the like of fibre `f`. -/
def fib (x : Fld) (f : Nat) : Fld := x.at (0x20 * f)
def planeFld (s : State) (p : Nat) (x : Fld) : Nat := s.fld (pgStl (planeDie p)) (fib x (planeFibre p))
def setPlaneFld (s : State) (p : Nat) (x : Fld) (v : Nat) : State := s.setFld (pgStl (planeDie p)) (fib x (planeFibre p)) v
def planeUp (s : State) (p : Nat) : Bool := planeFld s p STL_PLANE_STAT_UP != 0

/-! ### Rings (R236 to R240) -/

def ringKey (d f r : Nat) : Nat := 288 * d + 36 * f + r
def State.ring (s : State) (d f r : Nat) : RingSt := smGet RingSt.init s.rings (ringKey d f r)
def State.setRing (s : State) (d f r : Nat) (x : RingSt) : State :=
  { s with rings := smSet RingSt.init s.rings (ringKey d f r) x }
def State.modRing (s : State) (d f r : Nat) (g : RingSt → RingSt) : State := s.setRing d f r (g (s.ring d f r))

/-- A field of RING[f][r]. -/
def rg (x : Fld) (f r : Nat) : Fld := x.at (4 * (36 * f + r))
def ringFlag (s : State) (d f r : Nat) (x : Fld) : Bool := s.flag (pgKey d) (rg x f r)
def ringLine (s : State) (d f r : Nat) : Nat := s.fld (pgKey d) (rg KEY_RING_LINE f r)
def setRingFlds (s : State) (d f r : Nat) (l : List (Fld × Nat)) : State :=
  s.setFlds (pgKey d) (l.map (fun e => (rg e.1 f r, e.2)))

/-- The ring numbers of a direction: transmit 0 to 17, drop 18 to 35. -/
def ringsOf (drop : Bool) : List Nat := (List.range 18).map (fun r => if drop then r + 18 else r)

/-- The ring of a direction in use on a line. -/
def ringOn (s : State) (d f : Nat) (drop : Bool) (line : Nat) : Option Nat :=
  (ringsOf drop).find? (fun r => ringFlag s d f r KEY_RING_INUSE && ringLine s d f r == line)

/-- A ring that may take a line: neither failed, spare nor in use. -/
def freeRing (s : State) (d f : Nat) (drop : Bool) : Option Nat :=
  (ringsOf drop).find? (fun r =>
    !(ringFlag s d f r KEY_RING_INUSE || ringFlag s d f r KEY_RING_FAILED || ringFlag s d f r KEY_RING_SPARE))

/-- Has a verification proved the ring since it last tuned or locked: VERIFIED shows the last one, however old (R239, R270). -/
def ringProven (s : State) (d f r : Nat) : Bool := (s.ring d f r).proven

/-- What was verified of the ring holds no more. -/
def State.unprove (s : State) (d f r : Nat) : State := s.modRing d f r (fun x => { x with proven := false })

/-- The ring begins TUNE on a line. -/
def tuneRing (s : State) (d f r line : Nat) : State :=
  (setRingFlds (s.unprove d f r) d f r [(KEY_RING_LINE, line), (KEY_RING_INUSE, 1), (KEY_RING_LOCKED, 0)]).bump (pgKey d) 3

/-- A line gets a ring of a direction, if one is free. -/
def takeRing (s : State) (d f : Nat) (drop : Bool) (line : Nat) : Option State :=
  match ringOn s d f drop line with
  | some r => some (tuneRing s d f r line)
  | none => (freeRing s d f drop).map (fun r => tuneRing s d f r line)

/-- Verifications in progress and failed rings of a die. -/
def verifyCount (s : State) (d : Nat) : Nat := countIf (fun e => e.1 / 288 == d && e.2.verifying) s.rings
def failedOf (s : State) (d f : Nat) (drop : Bool) : Nat := countIf (fun r => ringFlag s d f r KEY_RING_FAILED) (ringsOf drop)

/-- KSTAT shows them, at most 255. -/
def showVerifying (s : State) (d : Nat) : State := s.setFld (pgKey d) KEY_KSTAT_VERIFYING (min 255 (verifyCount s d))
def showFailed (s : State) (d : Nat) : State :=
  s.setFld (pgKey d) KEY_KSTAT_FAILED (min 255 (((List.range 8).map (fun f => failedOf s d f false + failedOf s d f true)).sum))

/-- A running verification ends without result. -/
def stopVerify (s : State) (d f r : Nat) : State :=
  if (s.ring d f r).verifying then showVerifying (s.modRing d f r (fun x => { x with verifying := false })) d else s

/-- A verification starts (R239). -/
def startVerify (s : State) (d f r : Nat) : State :=
  if (s.ring d f r).verifying then s else showVerifying (s.modRing d f r (fun x => { x with verifying := true })) d

/-- A ring carries no lane and no test any more. -/
def releaseRing (s : State) (d f r : Nat) : State :=
  setRingFlds ((stopVerify s d f r).unprove d f r) d f r [(KEY_RING_INUSE, 0), (KEY_RING_LOCKED, 0)]

/-- The ring of a direction on a line is released. -/
def releaseLine (s : State) (d f : Nat) (drop : Bool) (line : Nat) : State :=
  match ringOn s d f drop line with
  | some r => releaseRing s d f r
  | none => s

/-! ### Lane pairs (R242 to R245, R254) -/

/-- SRT[j] shows whether this device has a circuit link to sheet `j` (R390). -/
def ownSrt (s : State) (j : Nat) : State :=
  let off := 0x800 + 4 * j
  s.setReg pgFab off (putBit (s.reg pgFab off) s.ownIdx !(outerTo s j).isEmpty)

/-- SRT bits of this device follow its circuit links, and its sheet peers are to hear of the change (R389, R390). -/
def circuitsChanged (s : State) : State :=
  let s := { s with mbr := { s.mbr with circDue := true } }
  ((List.range 16).filterMap (outerPeer s)).foldl (fun s dev => ownSrt s (dev / 32)) s

/-- A lane pair's new state: its transmit queue lasts while this end is ACTIVE, and its received stream while it receives packets (R276,
R278). -/
def LaneSt.settled (x : LaneSt) : LaneSt :=
  let x := if x.st = 6 then x else { x with txq := [], txNext := 0 }
  if x.st = 6 ∨ x.st = 7 then x else { x with part := none }

/-- A pair that reaches ACTIVE, or leaves it other than into HOLD at either end, is counted (R254, R268). -/
def countPair (s : State) (p : Nat) (x y : LaneSt) : State :=
  if !x.up && y.up then s.bump (pgStl (planeDie p)) 6
  else if x.up && !y.up && !(y.st == 7 || (y.st == 6 && y.peerSt == 7)) then s.bump (pgStl (planeDie p)) 7
  else s

/-- A lane pair takes a new state; an outer plane's change is a change of circuits. -/
def setLaneSt (s : State) (p k : Nat) (f : LaneSt → LaneSt) : State :=
  let x := s.lane (pairKey p k)
  let y := (f x).settled
  let s := countPair (s.setLane (pairKey p k) y) p x y
  if 48 ≤ p ∧ x.up ≠ y.up then circuitsChanged s else s

/-- The pair goes DOWN and releases its rings. -/
def laneDown (s : State) (p k : Nat) (held : Bool) : State :=
  let d := planeDie p
  let f := planeFibre p
  let s := releaseLine (releaseLine s d f false k) d f true (mirror p k)
  setLaneSt s p k (fun _ => { LaneSt.init with held := held })

/-- The pair enters QUAR (R240, R256, R259). -/
def laneQuar (s : State) (p k : Nat) : State :=
  let s := { s with mbr := { s.mbr with lost := s.mbr.lost + 1 } }
  setLaneSt s p k (fun x => { LaneSt.init with st := 8, held := x.held, quarFails := x.quarFails })

/-- Lane pairs of a plane. -/
def planeLanes (s : State) (p : Nat) : List Nat := (s.lanes.filter (fun e => e.1 / 32 == p)).map (fun e => e.1 % 32)

/-- Planes of a die. -/
def diePlanes (d : Nat) : List Nat := (List.range 8).map (planeOf d)

/-- The plane goes down: its pairs go DOWN, CAP becomes 0 and UP clears (R263). -/
def planeDown (s : State) (p : Nat) : State :=
  if !planeUp s p then s
  else
    let s := (planeLanes s p).foldl (fun s k => laneDown s p k false) s
    errOcc (setPlaneFld (setPlaneFld s p STL_PLANE_STAT_UP 0) p STL_PLANE_STAT_CAP 0) (pgStl (planeDie p)) 6 0

/-- A plane whose pairs have all gone DOWN or QUAR through faults goes down (R263). -/
def planeCheck (s : State) (p : Nat) : State :=
  let l := planeLanes s p
  if !l.isEmpty && l.all (fun k => (s.lane (pairKey p k)).st == 8 || (s.lane (pairKey p k)).st == 0) then planeDown s p else s

/-- Is the latched peer of an outer plane fenced (R384). -/
def outerFenced (s : State) (k : Nat) : Bool := match outerPeer s k with | some d => s.fenced d | none => false

/-- May the pair be used: λ0 carries none, the plane is up, its die may bring lanes up and is not dark, and its peer is not
fenced; a sheet pair needs a valid index (R243, R245, R370, R372, R384, R385). -/
def laneAllowed (s : State) (p k : Nat) : Bool :=
  planeFitted s p && planeUp s p && s.flag (pgStl (planeDie p)) STL_SCTRL_EN && !s.flag (pgStl (planeDie p)) STL_LSTAT_DARK
    && !s.selfFenced
    && (if p < 48 then
          k != 0 && !s.flag pgMbr MBR_MSTAT_SLOT_ERR
            && !(s.flag pgMbr MBR_DEVNUM_VALID && s.fenced (s.ownDev / 32 * 32 + (s.ownIdx + k) % 32))
        else decide (8 ≤ k ∧ k ≤ 23) && !outerFenced s (p - 48))

/-- Does the line of a pair wait for a spare in place of a failed ring (R261, R262). -/
def lineOwed (s : State) (d f : Nat) (drop : Bool) (line : Nat) : Bool :=
  (ringsOf drop).any (fun r => (s.ring d f r).owes == some line)

/-- The pair begins its bring-up with TUNE, when rings of both directions are free (R252, R254). A pair that no grant adds
waits for the spares it is owed (R261, R262). -/
def bringUp (s : State) (p k : Nat) (added : Bool) : State :=
  let d := planeDie p
  let f := planeFibre p
  if !laneAllowed s p k || (s.lane (pairKey p k)).st != 0
      || (!added && (lineOwed s d f false k || lineOwed s d f true (mirror p k))) then s
  else
    match takeRing s d f false k with
    | none => s
    | some t =>
      match takeRing t d f true (mirror p k) with
      | none => s
      | some t => setLaneSt t p k (fun _ => { LaneSt.init with st := 1, held := true, added := added })

/-- The lines of the initial plan on a plane (R244, R245). -/
def planLines (p : Nat) : List Nat :=
  if 48 ≤ p then (List.range 16).map (· + 8)
  else if p % 2 = 0 then (List.range 8).map (· + 1) ++ (List.range 8).map (· + 24)
  else (List.range 15).map (· + 9)

/-- Planes of the part. -/
def allPlanes (s : State) : List Nat :=
  List.range s.fuses.part.sheetPlanes ++ (List.range s.fuses.part.outerPlanes).map (· + 48)

/-- Every pair of the initial plan that is DOWN begins its bring-up; outer planes always follow it (R244, R245). -/
def bringUpPlan (s : State) (planes : List Nat) (added : Bool) : State :=
  planes.foldl (fun s p => (planLines p).foldl (fun s k => bringUp s p k added) s) s

/-! ### CAP and spares (R243, R261, R262) -/

/-- Spares of a direction, and failed rings that no spare has replaced, those that leave a line first. -/
def sparesOf (s : State) (d f : Nat) (drop : Bool) : List Nat :=
  (ringsOf drop).filter (fun r => ringFlag s d f r KEY_RING_SPARE && !ringFlag s d f r KEY_RING_FAILED)
def waitingOf (s : State) (d f : Nat) (drop : Bool) : List Nat :=
  let l := (ringsOf drop).filter (fun r => (s.ring d f r).waits)
  l.filter (fun r => (s.ring d f r).owes.isSome) ++ l.filter (fun r => (s.ring d f r).owes.isNone)

/-- Failed rings of a fibre beyond the two spares of each direction (R236, R243). -/
def unspared (s : State) (d f : Nat) : Nat := (failedOf s d f false - 2) + (failedOf s d f true - 2)

/-- PLANE_STAT shows CAP and the spares left. -/
def showCap (s : State) (d f : Nat) : State :=
  let s := s.setFlds (pgStl d) [(fib STL_PLANE_STAT_SPARE_TX f, min 3 (sparesOf s d f false).length),
    (fib STL_PLANE_STAT_SPARE_RX f, min 3 (sparesOf s d f true).length)]
  if planeUp s (planeOf d f) then s.setFld (pgStl d) (fib STL_PLANE_STAT_CAP f) (16 - unspared s d f) else s

/-- The transmit line of the pair whose ring of fibre `f` is `r`. -/
def lineOfRing (s : State) (d f r : Nat) : Nat :=
  let p := planeOf d f
  if r < 18 then ringLine s d f r else mirror p (ringLine s d f r)

/-- Does the ring carry a lane: a ring under test carries none. -/
def ringCarries (s : State) (d f r : Nat) : Bool := ringFlag s d f r KEY_RING_INUSE && !(s.ring d f r).testing

/-- The line a test runs on: λ0 on a sheet plane; on an outer plane the first of λ1 to λ7 and λ24 to λ31 that no ring of the direction
uses (R245, R261, log entry 110). -/
def testLine (s : State) (d f r : Nat) : Nat :=
  if f < 6 then 0
  else (((List.range 7).map (· + 1) ++ (List.range 8).map (· + 24)).find? (fun k => (ringOn s d f (decide (18 ≤ r)) k).isNone)).getD 1

/-- A ring of a direction that neither a lane nor a test uses. -/
def idleRing (s : State) (d f : Nat) (drop : Bool) : Option Nat :=
  (ringsOf drop).find? (fun r => !(ringFlag s d f r KEY_RING_INUSE || ringFlag s d f r KEY_RING_FAILED))

/-- The test that runs on a fibre. -/
def State.loop (s : State) (d f : Nat) : Option LoopSt := smFind (s.die d).loops f
def State.setLoop (s : State) (d f : Nat) (x : LoopSt) : State := s.modDie d (fun y => { y with loops := smInsert y.loops f x })

/-- A ring tunes for a test. -/
def tuneTest (s : State) (d f r line : Nat) : State :=
  (tuneRing s d f r line).modRing d f r (fun x => { x with testing := true, readmit := false })

/-- A test with training frames begins on two rings of the fibre. -/
def beginLoop (s : State) (d f tx rx line : Nat) (spare : Option Nat) (onDie : Bool) : State :=
  (tuneTest (tuneTest s d f tx line) d f rx line).setLoop d f ⟨tx, rx, line, spare, onDie, LaneSt.init⟩

/-- A ring's test ends. -/
def endRing (s : State) (d f r : Nat) : State := (releaseRing s d f r).modRing d f r (fun x => { x with testing := false })

/-- The test of a fibre ends. -/
def endLoop (s : State) (d f : Nat) : State :=
  match s.loop d f with
  | none => s
  | some x => (endRing (endRing s d f x.tx) d f x.rx).modDie d (fun y => { y with loops := smErase y.loops f })

/-- A ring's test as a spare ends, and that of the ring it was looped to. -/
def endTest (s : State) (d f r : Nat) : State :=
  match s.loop d f with
  | some x => if x.tx = r ∨ x.rx = r then endLoop s d f else endRing s d f r
  | none => endRing s d f r

/-- May a ring's test as a spare begin: the fibre runs no other test and, on a sheet plane, has an idle ring of the other direction. -/
def canTest (s : State) (d f r : Nat) : Bool :=
  !(List.range 36).any (fun q => (s.ring d f q).testing) && (decide (6 ≤ f) || (idleRing s d f (decide (r < 18))).isSome)

/-- A ring's test as a spare begins (R261, R262): on a sheet plane on λ0, looped to an idle ring of the other direction; on an outer plane
the ring tunes and verifies on its own. -/
def startTest (s : State) (d f r : Nat) : State :=
  if 6 ≤ f then tuneTest s d f r (testLine s d f r)
  else match idleRing s d f (decide (r < 18)) with
    | none => s
    | some g => beginLoop s d f (if r < 18 then r else g) (if r < 18 then g else r) (testLine s d f r) (some r) false

/-- The next ring of the fibre to be tested as a spare: one that software readmits, then a spare of a direction in which a failed ring
waits. -/
def nextToTest (s : State) (d f : Nat) : Option Nat :=
  let asked := (List.range 36).filter (fun r => (s.ring d f r).readmit && ringFlag s d f r KEY_RING_FAILED)
  let of (drop : Bool) : List Nat := if (waitingOf s d f drop).isEmpty then [] else (sparesOf s d f drop).take 1
  (asked ++ of false ++ of true).find? (canTest s d f)

/-- The tests as spares run one after another on a fibre. -/
def nextTest (s : State) (d f : Nat) : State := match nextToTest s d f with | some r => startTest s d f r | none => s

/-- The ring fails: its pair goes DOWN at once; with no spare left its fibre narrows (R260 to R262). -/
def ringFail (s : State) (d f r : Nat) : State :=
  if ringFlag s d f r KEY_RING_FAILED then (if (s.ring d f r).testing then endTest s d f r else s)
  else
    let p := planeOf d f
    let drop := decide (18 ≤ r)
    let carries := ringCarries s d f r
    let spare := ringFlag s d f r KEY_RING_SPARE
    let line := ringLine s d f r
    let k := lineOfRing s d f r
    let s := (if (s.ring d f r).testing then endTest s d f r else stopVerify s d f r).unprove d f r
    let s := if carries then laneDown s p k (s.lane (pairKey p k)).held else s
    let s := setRingFlds s d f r [(KEY_RING_FAILED, 1), (KEY_RING_INUSE, 0), (KEY_RING_LOCKED, 0), (KEY_RING_SPARE, 0)]
    let s := showFailed s d
    let s := s.modRing d f r (fun x => { x with waits := !spare, owes := if carries then some line else none, testing := false, readmit := false })
    let s := if 2 < failedOf s d f drop then
        errOcc { s with mbr := { s.mbr with narrowed := s.mbr.narrowed + 1 } } (pgKey d) 3 0
      else s
    let s := nextTest (showCap s d f) d f
    if carries then planeCheck s p else s

/-- An identity mismatch of a ring (R240): quarantine, forced relock, KEY source 1; the third in a row fails the ring. -/
def identityMismatch (s : State) (d f r : Nat) : State :=
  let p := planeOf d f
  let k := lineOfRing s d f r
  let s := if ringCarries s d f r then planeCheck (laneQuar s p k) p else s
  let n := (s.ring d f r).mismatches + 1
  let s := errOcc (s.modRing d f r (fun x => { x with mismatches := n })) (pgKey d) 1 0
  if 3 ≤ n then ringFail s d f r else tuneRing s d f r (ringLine s d f r)

/-! ### Holds (R232, R233, R265) -/

/-- A pair enters HOLD: one that was ACTIVE resumes without CHECK, one in bring-up goes through it after (R254). -/
def LaneSt.hold (x : LaneSt) : LaneSt := { x with st := 7, resume := x.resume || x.st == 6, good := 0 }

/-- The pairs of the die in a state from `lo` to ACTIVE enter HOLD. -/
def holdLanes (s : State) (d lo : Nat) : State :=
  (diePlanes d).foldl (fun s p => (planeLanes s p).foldl (fun s k =>
    let x := s.lane (pairKey p k)
    if lo ≤ x.st ∧ x.st ≤ 6 then setLaneSt s p k LaneSt.hold else s) s) s

/-- The die's transmit rings lose the light they are locked on. -/
def unlockTx (s : State) (d : Nat) : State :=
  (List.range 8).foldl (fun s f => (ringsOf false).foldl (fun s r =>
    if ringFlag s d f r KEY_RING_INUSE then
      setRingFlds ((stopVerify s d f r).unprove d f r) d f r [(KEY_RING_LOCKED, 0)]
    else s) s) s

/-- The die's held pairs take the resume path, unless a transmit hold is in force (R254, R265). -/
def resumeLanes (s : State) (d : Nat) : State :=
  if s.flag (pgStl d) STL_HOLD_STAT_HELD then s
  else
    (diePlanes d).foldl (fun s p => (planeLanes s p).foldl (fun s k =>
      if (s.lane (pairKey p k)).st = 7 then setLaneSt s p k (fun x => { x with st := 2 }) else s) s) s

/-- Every ring of the die in use starts a verification. -/
def verifyAll (s : State) (d : Nat) (drops : Bool) : State :=
  (List.range 8).foldl (fun s f => (List.range (if drops then 36 else 18)).foldl (fun s r =>
    if ringFlag s d f r KEY_RING_INUSE then
      startVerify (s.unprove d f r) d f r
    else s) s) s

/-- A transmit hold reaches the die (R265, R170). -/
def holdDie (s : State) (d : Nat) : State :=
  if !dieFitted s d || s.flag (pgStl d) STL_HOLD_STAT_HELD then s
  else
    let s := holdLanes (s.setFlds (pgStl d) [(STL_HOLD_STAT_HELD, 1), (STL_HOLD_STAT_VERIFYING, 0)]) d 3
    let s := errOcc (s.modDie d (fun x => { x with releasing := false })) (pgStl d) 9 0
    [2 * d, 2 * d + 1].foldl (fun s e => showHeld (s.modAqt e (fun x => { x with heldHold := true })) e) s

/-- The release verification ends when no ring of the die verifies. -/
def releaseCheck (s : State) (d : Nat) : State :=
  if (s.die d).releasing && verifyCount s d == 0 then
    (s.setFld (pgStl d) STL_HOLD_STAT_VERIFYING 0).modDie d (fun x => { x with releasing := false })
  else s

/-- The hold is released: every ring in use is verified, the pairs take the resume path, and the engines recalibrate
before their next command (R265, R170). -/
def releaseDie (s : State) (d : Nat) : State :=
  if !s.flag (pgStl d) STL_HOLD_STAT_HELD then s
  else
    let s := s.setFlds (pgStl d) [(STL_HOLD_STAT_HELD, 0), (STL_HOLD_STAT_VERIFYING, 1)]
    let s := releaseCheck (resumeLanes (verifyAll (s.modDie d (fun x => { x with releasing := true })) d true) d) d
    [2 * d, 2 * d + 1].foldl (fun s e =>
      showHeld (s.modAqt e (fun x => { x with heldHold := false, due := x.resident })) e) s

/-! ### Laser inputs (R231 to R235) -/

def qualFld (inputB : Bool) : Fld := if inputB then STL_LSTAT_B_QUAL else STL_LSTAT_A_QUAL
def lightFld (inputB : Bool) : Fld := if inputB then STL_LSTAT_B_LIGHT else STL_LSTAT_A_LIGHT
/-- The selected input. -/
def selB (s : State) (d : Nat) : Bool := s.flag (pgStl d) STL_LSTAT_INPUT

/-- An input's tone-plan check counts no more: it starts anew (R231). -/
def DieSt.uncheck (x : DieSt) (inputB : Bool) : DieSt :=
  if inputB then { x with toneB := 0, checkB := false } else { x with toneA := 0, checkA := false }

/-- The die selects an input, whose standby check ends; STAT.INPUT of its engines follows. -/
def selectInput (s : State) (d : Nat) (inputB : Bool) : State :=
  let v := if inputB then 1 else 0
  let s := s.setFlds (pgStl d) [(STL_LSTAT_INPUT, v), (STL_LSTAT_DARK, 0)]
  let s := s.modDie d (fun x => { x.uncheck inputB with selected := true, switching := false })
  [2 * d, 2 * d + 1].foldl (fun s e => s.setFld (pgAqt e) AQT_STAT_INPUT v) s

/-- LASER_LOSS: the selected input falls below LOS_THR (R232). Pairs past VERIFY hold with the ACTIVE ones, since their rings are dark. -/
def laserLost (s : State) (d : Nat) : State :=
  let b := selB s d
  if !dieFitted s d || !(s.die d).selected then s
  else
    let s := s.setFlds (pgStl d) [(lightFld b, 0), (qualFld b, 0), (STL_LASER_SEL_PEND, 0)]
    let s := errOcc (unlockTx (holdLanes s d 3) d) (pgStl d) 3 0
    let ready := s.flag (pgStl d) STL_LASER_AUTO && s.flag (pgStl d) (qualFld !b) && s.flag (pgStl d) (lightFld !b)
    s.modDie d (fun x => { x.uncheck b with switching := ready })

def doLaserLoss (d : StlId) (s : State) : State := laserLost s d

/-- SELECTOR_SWITCH_DONE: the rings recapture on the other input's light, and transmit rings are verified before the pairs
resume (R232, R233). -/
def doSelectorSwitchDone (d : StlId) (s : State) : State :=
  if !(s.die d).switching then s
  else
    let s := (selectInput s d !(selB s d)).bump (pgStl d) 5
    resumeLanes (unlockTx (s.modDie d (fun x => { x with switches := x.switches + 1 })) d) d

/-- An input that is not selected loses its check and its qualification (R231). -/
def loseQual (s : State) (d : Nat) (inputB : Bool) : State :=
  let s := s.modDie d (fun x => x.uncheck inputB)
  if s.flag (pgStl d) (qualFld inputB) then
    let s := s.setFld (pgStl d) (qualFld inputB) 0
    if (s.die d).selected && inputB != selB s d then errOcc s (pgStl d) 5 0 else s
  else s

/-- Does a measured tone pass R239 for a line: its bin is the strongest, by TONE_MARGIN dB, and DEPTH_MIN deep. -/
def tonePasses (s : State) (d line strongest marginDb depth : Nat) : Bool :=
  strongest == line && decide (s.fld (pgKey d) KEY_KCFG_TONE_MARGIN ≤ marginDb) && decide (s.fld (pgKey d) KEY_KCFG_DEPTH_MIN ≤ depth)

/-- STANDBY_TONE_CHECK_STEP: the next line of an input's tone-plan check, as its monitor ring measures it; a check passes with its 32nd
line (R231). -/
def doStandbyToneCheckStep (d : StlId) (inputB : Bool) (tone : Tone) (s : State) : State :=
  let x := s.die d
  let k := if inputB then x.toneB else x.toneA
  if !dieFitted s d || (x.selected && inputB == selB s d) then s
  else if !tonePasses s d k tone.strongest tone.marginDb tone.depth then loseQual (errOcc s (pgKey d) 4 0) d inputB
  else
    let all := decide (32 ≤ k + 1)
    let n := if all then 0 else k + 1
    s.setDie d (if inputB then { x with toneB := n, checkB := all || x.checkB } else { x with toneA := n, checkA := all || x.checkA })

/-- Has an input light and a passed check. -/
def inputReady (s : State) (d : Nat) (inputB : Bool) : Bool :=
  s.flag (pgStl d) (lightFld inputB) && (if inputB then (s.die d).checkB else (s.die d).checkA)

/-- INPUT_QUALIFY: 10 ms of unbroken light and a passed check; the first input to qualify at start-up is selected, and input A where both
do (R231, R234). -/
def doInputQualify (d : StlId) (inputB : Bool) (s : State) : State :=
  if dieFitted s d && inputReady s d inputB then
    let both := inputReady s d false && inputReady s d true
    let s := s.setFld (pgStl d) (qualFld inputB) 1
    if !(s.die d).selected && !s.flag (pgStl d) STL_LSTAT_DARK then
      if both then selectInput (s.setFlds (pgStl d) [(qualFld false, 1), (qualFld true, 1)]) d false else selectInput s d inputB
    else s
  else s

/-- STANDBY_LIGHT_LOSS: the standby input loses light, or its check fails or lapses. -/
def doStandbyLightLoss (d : StlId) (checkFailed : Bool) (s : State) : State :=
  let b := !(selB s d)
  if !dieFitted s d || !(s.die d).selected then s
  else loseQual (if checkFailed then s else s.setFld (pgStl d) (lightFld b) 0) d b

/-- SEL_REQ_WRITE (R233). -/
def doSelReqWrite (d : StlId) (s : State) : State :=
  if dieFitted s d then s.setFld (pgStl d) STL_LASER_SEL_PEND 1 else s

/-- DIE_DARK: no light and no switchover (R235): every pair goes DOWN and the engines leave service (R172). -/
def darkDie (s : State) (d : Nat) : State :=
  let s := s.setFld (pgStl d) STL_LSTAT_DARK 1
  let s := errOcc (s.modDie d (fun x => { x with selected := false, switching := false })) (pgStl d) 4 0
  let s := (diePlanes d).foldl planeDown s
  [2 * d, 2 * d + 1].foldl (fun s e => if s.flag (pgAqt e) AQT_STAT_OOS then s else goOos s e 4 none) s

def doDieDark (d : StlId) (s : State) : State :=
  if dieFitted s d && (s.die d).selected && !(s.die d).switching && !s.flag (pgStl d) (lightFld (selB s d)) then darkDie s d else s

/-! ### Ring events -/

/-- KEYLINE_LOOP_UPDATE: the heater correction; a fault of heater, tap or modulator fails the ring (R237, R260). -/
def doKeylineLoopUpdate (d : StlId) (f : FibreId) (r : KeyRing) (track : BitVec 8) (faulty : Bool) (s : State) : State :=
  if !dieFitted s d then s
  else if faulty then ringFail s d f r
  else if ringFlag s d f r KEY_RING_INUSE && ringFlag s d f r KEY_RING_LOCKED then
    s.setFld (pgKey d) (rg KEY_RING_TRACK f r) track.toNat
  else s

/-- RING_CAPTURE: the ring locks on its line, and its verification starts (R237, R239). A transmit ring needs the light of the selected
input (R230, R232). -/
def doRingCapture (d : StlId) (f : FibreId) (r : KeyRing) (s : State) : State :=
  if ringFlag s d f r KEY_RING_INUSE && !ringFlag s d f r KEY_RING_LOCKED && (decide (18 ≤ r.val) || dieLit s d) then
    startVerify (setRingFlds s d f r [(KEY_RING_LOCKED, 1)]) d f r
  else s

/-- The step of the bring-up that a pair is in, in its test too (R254, R256), and another one. -/
def LaneSt.step (x : LaneSt) : Nat := if x.st = 8 then x.test else x.st
def LaneSt.goto (x : LaneSt) (n : Nat) : LaneSt := if x.st = 8 then { x with test := n } else { x with st := n }

/-- A lock loss takes its pair from ACTIVE into HOLD, and from a later step of its bring-up back to VERIFY (R238, R254). -/
def LaneSt.unlocked (x : LaneSt) : LaneSt :=
  if x.st = 6 then x.hold else if 3 ≤ x.step ∧ x.step ≤ 5 then { x.goto 2 with good := 0 } else x

/-- RING_LOCK_LOSS (R238); the third loss within 1 s fails the ring (R260). -/
def doRingLockLoss (d : StlId) (f : FibreId) (r : KeyRing) (s : State) : State :=
  if !(ringFlag s d f r KEY_RING_INUSE && ringFlag s d f r KEY_RING_LOCKED) then s
  else
    let p := planeOf d f
    let k := lineOfRing s d f r
    let s := setRingFlds ((stopVerify s d f r).unprove d f r) d f r [(KEY_RING_LOCKED, 0)]
    let s := errOcc (s.bump (pgKey d) 2) (pgKey d) 0 0
    let s := if (s.ring d f r).testing then s else setLaneSt s p k LaneSt.unlocked
    let l := (timeNs s :: (s.ring d f r).losses).filter (fun t => decide (timeNs s < t + 1000000000))
    let s := s.modRing d f r (fun x => { x with losses := l })
    if 3 ≤ l.length then ringFail s d f r else s

/-- IDENTITY_VERIFY_DONE (R239, R240): the strongest bin, its margin over the others in dB, and its depth in 0.1 %. -/
def doIdentityVerifyDone (d : StlId) (f : FibreId) (r : KeyRing) (strongest : LineId) (marginDb : Nat) (depth : Nat) (s : State) : State :=
  if !(s.ring d f r).verifying then s
  else
    let pass := tonePasses s d (ringLine s d f r) strongest marginDb depth
    let s := (stopVerify s d f r).bump (pgKey d) 0
    let s := setRingFlds s d f r [(KEY_RING_TONE_SEEN, strongest), (KEY_RING_VERIFIED, if pass then 1 else 0), (KEY_RING_TRACK, 0)]
    let s := s.modRing d f r (fun x => { x with proven := pass })
    let s := if pass then s.modRing d f r (fun x => { x with mismatches := 0 })
      else
        let s := s.bump (pgKey d) 1
        if strongest.val != ringLine s d f r then identityMismatch s d f r else s
    releaseCheck s d

/-- PERIODIC_VERIFY_TIMER (R239). -/
def doPeriodicVerifyTimer (d : StlId) (f : FibreId) (r : KeyRing) (s : State) : State :=
  if ringFlag s d f r KEY_RING_INUSE && ringFlag s d f r KEY_RING_LOCKED then startVerify s d f r else s

/-- RING_READMIT_WRITE: a failed ring is tested as a spare, once the fibre can (R262). -/
def doRingReadmitWrite (d : StlId) (f : FibreId) (r : KeyRing) (s : State) : State :=
  if !ringFlag s d f r KEY_RING_FAILED || (s.ring d f r).testing then s
  else if canTest s d f r then startTest s d f r
  else s.modRing d f r (fun x => { x with readmit := true })

/-! ### Bring-up of a lane pair (R254) -/

/-- Both rings of the pair show a field. -/
def bothRings (s : State) (p k : Nat) (x : Fld) : Bool :=
  let d := planeDie p
  let f := planeFibre p
  (match ringOn s d f false k with | some r => ringFlag s d f r x | none => false)
    && (match ringOn s d f true (mirror p k) with | some r => ringFlag s d f r x | none => false)

/-- Has a verification proved both rings of the pair. -/
def bothProven (s : State) (p k : Nat) : Bool :=
  let d := planeDie p
  let f := planeFibre p
  (match ringOn s d f false k with | some r => ringProven s d f r | none => false)
    && (match ringOn s d f true (mirror p k) with | some r => ringProven s d f r | none => false)

def doLaneTuneDone (p : PlaneId) (k : LineId) (s : State) : State :=
  if (s.lane (pairKey p k)).step = 1 ∧ bothRings s p k KEY_RING_LOCKED then setLaneSt s p k (fun x => x.goto 2) else s

/-- VERIFY done. A pair whose ring has lost lock waits in HOLD for recapture; under a transmit hold an added pair waits in
HOLD (R265), and a quarantined one in its test. -/
def doLaneVerifyDone (p : PlaneId) (k : LineId) (s : State) : State :=
  let x := s.lane (pairKey p k)
  let held := s.flag (pgStl (planeDie p)) STL_HOLD_STAT_HELD
  if !bothProven s p k || !bothRings s p k KEY_RING_LOCKED then s
  else if x.st = 2 then setLaneSt s p k (fun x => { x with st := if held then 7 else 3 })
  else if (x.st = 7 ∨ x.step = 2) ∧ !held then setLaneSt s p k (fun x => x.goto 3)
  else s

/-- May the pair come nearer to ACTIVE: both its rings are locked and verified, and no transmit hold is in force (R238, R239, R265). -/
def ringsProven (s : State) (p k : Nat) : Bool :=
  bothRings s p k KEY_RING_LOCKED && bothProven s p k && !s.flag (pgStl (planeDie p)) STL_HOLD_STAT_HELD

def doLaneAlignDone (p : PlaneId) (k : LineId) (s : State) : State :=
  if (s.lane (pairKey p k)).step = 3 then setLaneSt s p k (fun x => { x.goto 4 with good := 0, bad := 0, peerIdent := false }) else s

/-- The pair becomes ACTIVE at this end. -/
def laneActive (s : State) (p k : Nat) : State :=
  let clean := fun (x : LaneSt) =>
    { x with st := 6, resume := false, added := false, bad := 0, msFrames := 0, msUncorr := 0, msSym := 0, quarFails := 0, test := 0 }
  setLaneSt s p k clean

/-- NBR[i].PLANES: sheet planes with a pair to index `i` past IDENT (R396). -/
def nbrPlanes (s : State) (i : Nat) : Nat :=
  countIf (fun e => decide (e.1 / 32 < 48) && decide (5 ≤ e.2.st) && decide (e.2.st ≤ 6) && (s.ownIdx + e.1 % 32) % 32 == i) s.lanes

/-- The completion of the neighbour table is reported once (R388, log entry 39). -/
def nbrUpdate (s : State) : State :=
  let heard := (List.range 32).filter (fun i => s.flag pgMbr (MBR_NBR_HEARD.at (4 * i)))
  if !s.mbr.nbrDone && !heard.isEmpty && heard.all (fun i => nbrPlanes s i != 0) then
    queueEvent { s with mbr := { s.mbr with nbrDone := true } }
      (devEvent s 8 (4 + 2 ^ 16 * s.ownDev + 2 ^ 32 * s.fld pgMbr MBR_MEPOCH))
  else s

/-- IDENT ends with ACTIVE on the resume path, and with CHECK else. -/
def doLaneIdentDone (p : PlaneId) (k : LineId) (s : State) : State :=
  let x := s.lane (pairKey p k)
  if x.step = 4 ∧ 64 ≤ x.good ∧ x.peerIdent ∧ ringsProven s p k then
    nbrUpdate (if x.resume then laneActive s p k else setLaneSt s p k (fun x => { x.goto 5 with chkFrames := 0, chkSym := 0 }))
  else s

/-- 256 frames with at most CHECK_SYM corrected symbols a codeword on average: the pair is ACTIVE, or has passed its test. -/
def doLaneCheckDone (p : PlaneId) (k : LineId) (s : State) : State :=
  let x := s.lane (pairKey p k)
  if x.step = 5 ∧ ringsProven s p k ∧ 256 ≤ x.chkFrames ∧ x.chkSym ≤ 4 * x.chkFrames * s.fld (pgStl (planeDie p)) STL_LANE_CFG_CHECK_SYM then
    if x.st = 8 then setLaneSt s p k (fun x => x.goto 6) else laneActive s p k
  else s

/-- LANE_ABANDON (R253). -/
def doLaneAbandon (p : PlaneId) (k : LineId) (s : State) : State :=
  let x := s.lane (pairKey p k)
  if x.added ∧ x.st ≠ 6 ∧ x.st ≠ 0 then errOcc (laneDown s p k false) (pgStl (planeDie p)) 8 0 else s

/-- LANE_DEGRADE_REMOVE (R259): more frames discarded in the millisecond than UC_LIMIT, or DEG_SYM exceeded on average, in this end's
receive direction; in the other direction the peer has found it and reports QUAR (log entry 111). -/
def doLaneDegradeRemove (p : PlaneId) (k : LineId) (s : State) : State :=
  let x := s.lane (pairKey p k)
  let pg := pgStl (planeDie p)
  if x.st = 6 ∧ (x.peerSt = 8 ∨ s.fld pg STL_LANE_CFG_UC_LIMIT < x.msUncorr ∨ s.fld pg STL_LANE_CFG_DEG_SYM * 4 * x.msFrames < x.msSym) then
    planeCheck (errOcc (laneQuar s p k) pg 1 0) p
  else s

/-! ### Frames (R255 to R259) -/

/-- The device number expected at sheet index `i` (R372): none for a fenced one. -/
def acceptsSrc (s : State) (i src : Nat) : Bool :=
  if !s.flag pgMbr MBR_MSTAT_VIEW_VALID || !s.flag pgMbr MBR_DEVNUM_VALID then true
  else
    let n := s.ownDev / 32 * 32 + i
    match s.viewOf n with
    | 0 => src == 0x3FFF
    | 1 => src == 0x3FFF || src == n
    | 2 | 3 => src == n
    | _ => false

/-- The head check of R255 for receive line `k` of plane `p`. An outer plane without latched peer accepts any source in IDENT. -/
def headOk (s : State) (p k : Nat) (h : Head) : Bool :=
  h.hcrcOk && h.line == k
    && (if p < 48 then h.plane == p && acceptsSrc s ((s.ownIdx + 32 - k) % 32) h.srcDev
        else
          let pg := pgStl (planeDie p)
          let o := p - 48
          if s.flag pg (opeer STL_OPEER_VALID o) then
            h.srcDev == s.fld pg (opeer STL_OPEER_DEV o) && h.plane == s.fld pg (opeer STL_OPEER_PLANE o)
          else (s.lane (pairKey p (mirror p k))).step == 4)

/-- An outer plane latches its peer, and its link starts anew (R255, R273). -/
def latchPeer (s : State) (p : Nat) (h : Head) : State :=
  let pg := pgStl (planeDie p)
  let o := p - 48
  if p < 48 ∨ s.flag pg (opeer STL_OPEER_VALID o) then s
  else
    restartLink (s.setFlds pg [(opeer STL_OPEER_DEV o, h.srcDev), (opeer STL_OPEER_PLANE o, h.plane), (opeer STL_OPEER_VALID o, 1)]) (32 + o)

/-- NBR[i] of a frame accepted, or refused for its source, on a sheet plane. -/
def noteNbr (s : State) (p k : Nat) (h : Head) (ok : Bool) : State :=
  if 48 ≤ p then s
  else
    let o := 4 * ((s.ownIdx + 32 - k) % 32)
    if ok then
      s.setFlds pgMbr [(MBR_NBR_HEARD.at o, 1), (MBR_NBR_MISMATCH.at o, 0), (MBR_NBR_DEV.at o, h.srcDev)]
    else if h.hcrcOk && h.plane == p && h.line == k then
      s.setFlds pgMbr [(MBR_NBR_MISMATCH.at o, 1), (MBR_NBR_DEV.at o, h.srcDev)]
    else s

/-- Counts of the present millisecond. -/
def msCount (s : State) (key : Nat) (uncorr sym : Nat) : State :=
  let ms := timeNs s / 1000000
  s.modLane key (fun x =>
    let x := if x.msStart = ms then x else { x with msStart := ms, msFrames := 0, msUncorr := 0, msSym := 0 }
    { x with msFrames := x.msFrames + (1 - uncorr), msUncorr := x.msUncorr + uncorr, msSym := x.msSym + sym })

/-- Link counter `i` of a plane's links (R268): what it has counted since it was last sampled. -/
def linkCount (x : DieSt) (f i : Nat) : Nat := x.counts.getD (5 * f + i) 0
def countLink (s : State) (p i n : Nat) : State :=
  s.modDie (planeDie p) (fun x => { x with counts := setAt x.counts (5 * planeFibre p + i) (linkCount x (planeFibre p) i + n) })

/-- What the FEC has corrected in a frame, in the codewords of a frame with an uncorrectable one too (R268). -/
def countFec (s : State) (p : Nat) (x : Fec) : State := countLink (countLink s p 1 x.cwCorr) p 2 x.symCorr

/-- A frame that the FEC cannot correct is discarded whole (R259). -/
def loseFrame (s : State) (p key : Nat) (fec : Fec) : State :=
  (errOcc (msCount (countFec (countLink s p 3 1) p fec) key 1 0) (pgStl (planeDie p)) 0 0).modLane key (fun x =>
    let x := { x with lastRx := none, part := none }
    if x.step = 5 then { x with chkFrames := 0, chkSym := 0 } else x)

/-- A frame whose head fails R255 is discarded; the second in a row in ACTIVE is an identity mismatch (R240). -/
def refuseFrame (s : State) (p k : Nat) (h : Head) : State :=
  let t := mirror p k
  let d := planeDie p
  let x := s.lane (pairKey p t)
  let s := noteNbr (countLink s p 4 1) p k h false
  let s := s.modLane (pairKey p t) (fun x => { x with bad := x.bad + 1, good := 0, lastRx := none, part := none })
  if x.st = 6 ∧ 1 ≤ x.bad then
    let s := errOcc s (pgStl d) 2 0
    match ringOn s d (planeFibre p) true k with
    | some r => identityMismatch s d (planeFibre p) r
    | none => planeCheck (laneQuar s p t) p
  else s

/-- Is a frame stamped (R401). -/
def stamped (s : State) (fseq : Nat) : Bool := fseq % 2 ^ s.fld pgTim TIM_TCTL_SYNC_LOG == 0

/-- What an accepted frame brings its lane pair: the peer's state, its TSYNC, and the stream of its units, which goes on from the frame
before it (R254, R274, R276, R401). -/
def LaneSt.hear (x : LaneSt) (h : Head) (sym : Nat) (sync : TSync × Stamp × Stamp) (part : Option (List Byte)) (stamp : Option Time) : LaneSt :=
  { x with
    good := x.good + 1, bad := 0, peerSt := h.lstate, peerIdent := h.identOk, chkFrames := x.chkFrames + 1, chkSym := x.chkSym + sym,
    sync := some sync, lastRx := some h.fseq, part := part, rxT := stamp.getD x.rxT,
    rxFseq := if stamp.isSome then h.fseq % 65536 else x.rxFseq }

/-- A frame whose head passes R255. Packets go to units, where both ends are ACTIVE or this one holds (R255, R265); a fenced peer that an
outer plane has just latched is taken down (R384). -/
def acceptFrame (s : State) (p k : Nat) (fr : Frame) (b : List Byte) (h : Head) (sym : Nat) : State :=
  let t := mirror p k
  let x := s.lane (pairKey p t)
  let s := noteNbr (if x.step = 4 then latchPeer s p h else s) p k h true
  let c := parseLctl (b.drop 24)
  let next := x.lastRx == some ((h.fseq + 2 ^ 32 - 1) % 2 ^ 32)
  let (units, part) :=
    if h.lstate = 6 ∧ (x.st = 6 ∨ x.st = 7) then takeStream (if next then x.part else none) c.first (b.drop 125) else ([], none)
  let stamp := if stamped s h.fseq then some s.time else none
  let s := setLaneSt s p t (fun x => x.hear h sym (parseSync (b.drop 64), fr.arrival, fr.depart) part stamp)
  let l := linkOf s (pairKey p t)
  let s := if h.lstate = 6 then applyLctl s l c else s
  let s := { s with net := { s.net with unitq := s.net.unitq ++ (units.filter (fun u => u.vc != 7)).map (fun u => (l, u)) } }
  if 48 ≤ p ∧ outerFenced s (p - 48) then laneDown s p t true else s

/-- Is the head of a training frame that of its test: this device's own on λ0, which returns; on lane 0 of an outer plane the peer's. -/
def loopHead (s : State) (p : Nat) (x : LoopSt) (h : Head) : Bool :=
  let pg := pgStl (planeDie p)
  h.hcrcOk && h.line == x.line
    && (if x.line = 0 then h.srcDev == s.ownDev && h.plane == p
        else !s.flag pg (opeer STL_OPEER_VALID (p - 48))
          || (h.srcDev == s.fld pg (opeer STL_OPEER_DEV (p - 48)) && h.plane == s.fld pg (opeer STL_OPEER_PLANE (p - 48))))

/-- Is a ring on its line, locked and verified. -/
def ringReady (s : State) (d f r : Nat) : Bool := ringFlag s d f r KEY_RING_LOCKED && ringProven s d f r

/-- A training frame of a test is counted, or begins the count anew (R261, R263, R264). -/
def takeLoop (p k : Nat) (fr : Frame) (s : State) : State :=
  let d := planeDie p
  let f := planeFibre p
  match s.loop d f with
  | none => s
  | some x =>
    if x.line != k || !ringReady s d f x.rx then s
    else
      let ok := !(fecOf fr.errs).uncorr && loopHead s p x (parseHead (frameInfo fr))
      s.setLoop d f { x with lane := { x.lane with good := if ok then x.lane.good + 1 else 0 } }

/-- Does a lane pair receive frames: from ALIGN on, in HOLD (R265) and in its test while quarantined. -/
def LaneSt.hears (x : LaneSt) : Bool := decide (3 ≤ x.step) && decide (x.step ≤ 7)

/-- A frame on receive line `k` of plane `p`, its time apart. -/
def takeFrame (p k : Nat) (fr : Frame) (s : State) : State :=
  let key := pairKey p (mirror p k)
  if !planeFitted s p then s
  else if !(s.lane key).hears then takeLoop p k fr s
  else
    let fec := fecOf fr.errs
    if fec.uncorr then loseFrame s p key fec
    else
      let b := frameInfo fr
      let h := parseHead b
      let s := msCount (countFec (countLink s p 0 1) p fec) key 0 fec.symCorr
      if headOk s p k h then acceptFrame s p k fr b h fec.symCorr else refuseFrame s p k h

/-- With the latch of an outer plane its circuit goes (R389, R390). -/
def circuitGone (s : State) (d j : Nat) : State :=
  ownSrt { s with mbr := { s.mbr with circDue := true } } (s.fld (pgStl d) (STL_OPEER_DEV.at (4 * j)) / 32)

/-- OPEER_VALID_CLEAR: the latch clears (R255), and its circuit with it. -/
def doOpeerValidClear (d : StlId) (j : Fin 2) (s : State) : State :=
  if s.flag (pgStl d) (STL_OPEER_VALID.at (4 * j)) then circuitGone (s.setFld (pgStl d) (STL_OPEER_VALID.at (4 * j)) 0) d j else s

/-- The incoming light of a plane is gone: a test that needs it starts its count anew (R263). -/
def fibreDark (s : State) (p : Nat) : State :=
  let d := planeDie p
  let f := planeFibre p
  match s.loop d f with
  | some x => planeDown (if x.onDie then s else s.setLoop d f { x with lane := { x.lane with good := 0 } }) p
  | none => planeDown s p

/-- PLANE_RX_LOS: incoming power below RX_LOS_THR for 1 µs (R263). -/
def doPlaneRxLos (p : PlaneId) (s : State) : State :=
  if planeFitted s p then fibreDark (setPlaneFld s p STL_PLANE_STAT_RX_LOS 1) p else s

/-! ### Monitors (R266, R268) -/

/-- A signed power at or above a threshold. -/
def atLeast (v : BitVec 16) (thr : Nat) : Bool := decide (sext 16 thr ≤ v.toInt)

/-- An input's light as a sample shows it. -/
def sampleLight (s : State) (d : Nat) (inputB : Bool) (v : BitVec 16) : State :=
  let lit := atLeast v (s.fld (pgStl d) STL_LOS_THR_THR)
  if lit then s.setFld (pgStl d) (lightFld inputB) 1
  else if (s.die d).selected && inputB == selB s d then
    (if s.flag (pgStl d) (lightFld inputB) then laserLost s d else s)
  else loseQual (s.setFld (pgStl d) (lightFld inputB) 0) d inputB

/-- A fibre's powers as a sample shows them. -/
def sampleFibre (s : State) (d f : Nat) (out inn : BitVec 16) : State :=
  let s := s.setFlds (pgStl d) [(fib STL_PWR_FIB_OUT f, out.toNat), (fib STL_PWR_FIB_IN f, inn.toNat)]
  let lit := atLeast inn (s.fld (pgStl d) STL_RX_LOS_THR_THR)
  let s := s.setFld (pgStl d) (fib STL_PLANE_STAT_RX_LOS f) (if lit then 0 else 1)
  if lit then s else fibreDark s (planeOf d f)

def doOpticalPowerSample (d : StlId) (inA inB : BitVec 16) (fibOut fibIn : List (BitVec 16)) (s : State) : State :=
  if !dieFitted s d then s
  else
    let s := s.setFlds (pgStl d) [(STL_PWR_IN_A, inA.toNat), (STL_PWR_IN_B, inB.toNat)]
    let s := sampleLight (sampleLight s d false inA) d true inB
    (List.range 8).foldl (fun s f => sampleFibre s d f (fibOut.getD f 0) (fibIn.getD f 0)) s

/-- LINK_COUNTER_SAMPLE: what the links of a fibre have counted since their last sample is added to the die's sums on the page
(R268). -/
def doLinkCounterSample (d : StlId) (f : FibreId) (s : State) : State :=
  if !dieFitted s d then s
  else
    let x := s.die d
    ((List.range 5).foldl (fun s i => s.bumpBy (pgStl d) i (linkCount x f i)) s).modDie d (fun x =>
      { x with counts := (List.range 5).foldl (fun l i => setAt l (5 * f + i) 0) x.counts })

/-! ### Meanings -/

/-- LASER_LOSS. -/
def execLaserLoss (d : StlId) (s : State) : Res := .next (powered (doLaserLoss d) s)

/-- SELECTOR_SWITCH_DONE. -/
def execSelectorSwitchDone (d : StlId) (s : State) : Res := .next (powered (doSelectorSwitchDone d) s)

/-- STANDBY_TONE_CHECK_STEP. -/
def execStandbyToneCheckStep (d : StlId) (inputB : Bool) (tone : Tone) (s : State) : Res :=
  .next (powered (doStandbyToneCheckStep d inputB tone) s)

/-- INPUT_QUALIFY. -/
def execInputQualify (d : StlId) (inputB : Bool) (s : State) : Res := .next (powered (doInputQualify d inputB) s)

/-- STANDBY_LIGHT_LOSS. -/
def execStandbyLightLoss (d : StlId) (checkFailed : Bool) (s : State) : Res := .next (powered (doStandbyLightLoss d checkFailed) s)

/-- SEL_REQ_WRITE. -/
def execSelReqWrite (d : StlId) (s : State) : Res := .next (powered (doSelReqWrite d) s)

/-- DIE_DARK. -/
def execDieDark (d : StlId) (s : State) : Res := .next (powered (doDieDark d) s)

/-- KEYLINE_LOOP_UPDATE. -/
def execKeylineLoopUpdate (d : StlId) (f : FibreId) (r : KeyRing) (track : BitVec 8) (faulty : Bool) (s : State) : Res := .next (powered (doKeylineLoopUpdate d f r track faulty) s)

/-- RING_CAPTURE. -/
def execRingCapture (d : StlId) (f : FibreId) (r : KeyRing) (s : State) : Res := .next (powered (doRingCapture d f r) s)

/-- RING_LOCK_LOSS. -/
def execRingLockLoss (d : StlId) (f : FibreId) (r : KeyRing) (s : State) : Res := .next (powered (doRingLockLoss d f r) s)

/-- IDENTITY_VERIFY_DONE. -/
def execIdentityVerifyDone (d : StlId) (f : FibreId) (r : KeyRing) (strongest : LineId) (marginDb : Nat) (depth : Nat) (s : State) : Res := .next (powered (doIdentityVerifyDone d f r strongest marginDb depth) s)

/-- PERIODIC_VERIFY_TIMER. -/
def execPeriodicVerifyTimer (d : StlId) (f : FibreId) (r : KeyRing) (s : State) : Res := .next (powered (doPeriodicVerifyTimer d f r) s)

/-- RING_READMIT_WRITE. -/
def execRingReadmitWrite (d : StlId) (f : FibreId) (r : KeyRing) (s : State) : Res := .next (powered (doRingReadmitWrite d f r) s)

/-- LANE_TUNE_DONE. -/
def execLaneTuneDone (p : PlaneId) (k : LineId) (s : State) : Res := .next (powered (doLaneTuneDone p k) s)

/-- LANE_VERIFY_DONE. -/
def execLaneVerifyDone (p : PlaneId) (k : LineId) (s : State) : Res := .next (powered (doLaneVerifyDone p k) s)

/-- LANE_ALIGN_DONE. -/
def execLaneAlignDone (p : PlaneId) (k : LineId) (s : State) : Res := .next (powered (doLaneAlignDone p k) s)

/-- LANE_IDENT_DONE. -/
def execLaneIdentDone (p : PlaneId) (k : LineId) (s : State) : Res := .next (powered (doLaneIdentDone p k) s)

/-- LANE_CHECK_DONE. -/
def execLaneCheckDone (p : PlaneId) (k : LineId) (s : State) : Res := .next (powered (doLaneCheckDone p k) s)

/-- LANE_ABANDON. -/
def execLaneAbandon (p : PlaneId) (k : LineId) (s : State) : Res := .next (powered (doLaneAbandon p k) s)

/-- LANE_DEGRADE_REMOVE. -/
def execLaneDegradeRemove (p : PlaneId) (k : LineId) (s : State) : Res := .next (powered (doLaneDegradeRemove p k) s)

/-- OPEER_VALID_CLEAR. -/
def execOpeerValidClear (d : StlId) (j : Fin 2) (s : State) : Res := .next (powered (doOpeerValidClear d j) s)

/-- PLANE_RX_LOS. -/
def execPlaneRxLos (p : PlaneId) (s : State) : Res := .next (powered (doPlaneRxLos p) s)

/-- OPTICAL_POWER_SAMPLE. -/
def execOpticalPowerSample (d : StlId) (inA inB : BitVec 16) (fibOut fibIn : List (BitVec 16)) (s : State) : Res := .next (powered (doOpticalPowerSample d inA inB fibOut fibIn) s)

/-- LINK_COUNTER_SAMPLE. -/
def execLinkCounterSample (d : StlId) (f : FibreId) (s : State) : Res := .next (powered (doLinkCounterSample d f) s)

end Sys2Proof.Machine
end

