-- ==== Sys2Proof/Machine/Alloc.lean ====
section
/-!
DEFINITION. Allocation epochs and on-demand assignment of lane pairs (R246 to R253), and what else an epoch boundary brings: a
requested input (R233), a dark die's return (R235), tests of quarantined pairs, spares and planes (R256, R261 to R263).
-/

namespace Sys2Proof.Machine

/-! ### The leader (R247) -/

/-- Is sheet index `i` in service. -/
def inService (s : State) (i : Nat) : Bool := s.viewOf (sheetDev s i) == 2 || s.viewOf (sheetDev s i) == 3

/-- Sheet indices in service, as this device's view has them. -/
def members (s : State) : List Nat :=
  if s.flag pgMbr MBR_MSTAT_VIEW_VALID && s.flag pgMbr MBR_DEVNUM_VALID then (List.range 32).filter (inService s) else []

def leaderOf (s : State) : Option Nat := (members s).head?
def isLeader (s : State) : Bool := leaderOf s == some s.ownIdx

def pgAlloc : Nat := pgStl 0
def curEpoch (s : State) : Nat := s.fld pgAlloc STL_ALLOC_EPOCH

/-- A field of the ALLOC_CTRL in effect. -/
def allocCtl (s : State) (x : Fld) : Nat := bits s.alloc.ctl x.hi x.lo

/-! ### Reports (R248, R249) -/

/-- Bytes queued towards a sheet index. -/
def queuedBytes (s : State) (i : Nat) : Nat := ((s.link i).queue.map (fun e => pktLen e.2)).sum

/-- The snapshot of DEMAND. -/
def snapDemand (s : State) : State :=
  let s := (List.range 32).foldl (fun s i =>
    s.setFld pgAlloc (STL_DEMAND.at (4 * i)) (min (2 ^ 32 - 1) ((smGet 0 s.alloc.sentBytes i + queuedBytes s i) / 64))) s
  { s with alloc := { s.alloc with sentBytes := [] } }

/-- Is the pair ACTIVE or in bring-up. -/
def LaneSt.shown (x : LaneSt) : Bool := decide (1 ≤ x.st) && decide (x.st ≤ 6)
/-- Is the pair held: ACTIVE, in bring-up or in HOLD. -/
def LaneSt.kept (x : LaneSt) : Bool := decide (1 ≤ x.st) && decide (x.st ≤ 7)

/-- LANES and CAP of a plane. -/
def laneWord (s : State) (p : Nat) : Nat :=
  ((List.range 32).map (fun k => if (s.lane (pairKey p k)).shown then 2 ^ k else 0)).sum
def capOf (s : State) (p : Nat) : Nat := if planeFitted s p && planeUp s p then planeFld s p STL_PLANE_STAT_CAP else 0

def ownReport (s : State) : AllocRep :=
  { epoch := curEpoch s
    demand := (List.range 32).map (fun i => if s.inFault then 0 else s.fld pgAlloc (STL_DEMAND.at (4 * i)))
    lanes := (List.range 48).map (laneWord s)
    cap := (List.range 48).map (capOf s) }

def reportBytes (s : State) (r : AllocRep) : List Byte :=
  [1, 1] ++ leBytes 2 s.ownDev ++ leBytes 4 r.epoch ++ r.demand.flatMap (leBytes 4) ++ r.lanes.flatMap (leBytes 4)
    ++ r.cap.flatMap (leBytes 1) ++ List.replicate 8 0

def parseReport (b : List Byte) : AllocRep :=
  { epoch := leAt b 4 4, demand := (List.range 32).map (fun i => leAt b (8 + 4 * i) 4)
    lanes := (List.range 48).map (fun p => leAt b (136 + 4 * p) 4), cap := (List.range 48).map (fun p => leAt b (328 + p) 1) }

/-- A MGMT packet to a device of this sheet. -/
def sendMgmt (s : State) (dev : Nat) (bs : List Byte) : State := sendOver s (dev % 32) (mkPkt 0x40 dev s.ownDev 0 0 bs)

/-- The device's report goes to the leader, which keeps its own. -/
def sendReport (s : State) : State :=
  match leaderOf s with
  | none => s
  | some l =>
    let r := ownReport s
    if l = s.ownIdx then { s with alloc := { s.alloc with reports := smInsert s.alloc.reports l r } }
    else sendMgmt s (sheetDev s l) (reportBytes s r)

/-- The oldest MGMT message that `want` accepts. -/
def takeMgmt (s : State) (want : Packet → Bool) : Option (Packet × State) :=
  match s.net.mgmt.find? want with
  | none => none
  | some p => some (p, { s with net := { s.net with mgmt := dropFirst want s.net.mgmt } })

/-- Is the message of an allocation TYPE. -/
def isAllocMsg (t : Nat) (p : Packet) : Bool := leAt p.payload 0 1 == t

/-- ALLOC_REPORT_RECEIVE. A report that arrives after the wait is kept for the next epoch (R249). -/
def doAllocReportReceive (s : State) : State :=
  if s.alloc.waited && !s.alloc.planned && allocCtl s STL_ALLOC_CTRL_EN != 0 then s
  else match takeMgmt s (isAllocMsg 1) with
  | none => s
  | some (p, s) =>
    let r := parseReport p.payload
    let i := p.src % 32
    if !isLeader s || p.src / 32 != s.ownDev / 32 || p.payload.length != 384 || leAt p.payload 1 1 != 1
        || leAt p.payload 2 2 != p.src then s
    else if r.epoch = curEpoch s then { s with alloc := { s.alloc with reports := smInsert s.alloc.reports i r } }
    else if (r.epoch + 1) % 2 ^ 32 = curEpoch s ∧ !smHas s.alloc.prev i then
      { s with alloc := { s.alloc with prev := smInsert s.alloc.prev i r } }
    else s

def doReportWaitExpiry (s : State) : State := { s with alloc := { s.alloc with waited := true } }

/-! ### The leader's rule (R250) -/

/-- The plan in the making: lane pairs held, at key 1024·plane + 32·a + b with a < b; changes by index; marked pairs. -/
structure Plan where
  held : List Nat
  changes : SMap Nat
  marked : List Nat
deriving DecidableEq, Repr

def planKey (p a b : Nat) : Nat := 1024 * p + 32 * min a b + max a b

/-- The report the leader uses for a member. -/
def useReport (s : State) (i : Nat) : AllocRep :=
  match smFind s.alloc.reports i with
  | some r => r
  | none => (smFind s.alloc.prev i).getD { epoch := 0, demand := [], lanes := [], cap := [] }

/-- A pair is held when the report of either end shows it (log entry 38). -/
def heldPairs (s : State) (ms : List Nat) : List Nat :=
  (List.range 48).flatMap (fun p => ms.flatMap (fun a => (ms.filter (fun b => decide (a < b))).filterMap (fun b =>
    if ((useReport s a).lanes.getD p 0).testBit (b - a) || ((useReport s b).lanes.getD p 0).testBit (32 + a - b)
    then some (planKey p a b) else none)))

/-- n of a pair. -/
def Plan.count (x : Plan) (a b : Nat) : Nat := countIf (fun k => k % 1024 == planKey 0 a b) x.held
def Plan.changed (x : Plan) (a : Nat) : Nat := smGet 0 x.changes a
def Plan.touch (x : Plan) (a : Nat) : Plan := { x with changes := smMod 0 x.changes a (· + 1) }

/-- w of a pair: larger than any reported value below FLOOR. -/
def pairWant (s : State) (x : Plan) (a b : Nat) : Nat :=
  if x.count a b < allocCtl s STL_ALLOC_CTRL_FLOOR then 2 ^ 32
  else max ((useReport s a).demand.getD b 0) ((useReport s b).demand.getD a 0)

/-- The first element that `better` prefers to every earlier one. -/
def bestOf {α : Type} (better : α → α → Bool) : List α → Option α
  | [] => none
  | a :: t => some (t.foldl (fun m y => if better y m then y else m) a)

/-- The unmarked pair with the largest gain; ties go to the lower indices. -/
def bestGain (s : State) (ms : List Nat) (x : Plan) : Option (Nat × Nat) :=
  let maxMoves := allocCtl s STL_ALLOC_CTRL_MAX_MOVES
  let free := ms.filter (fun a => decide (x.changed a < maxMoves))
  let l := (free.flatMap (fun a => (free.filter (fun b => decide (a < b))).map (fun b => (a, b)))).filter (fun c =>
    !x.marked.contains (32 * c.1 + c.2) && decide (x.count c.1 c.2 < s.fuses.part.sheetPlanes) && decide (0 < pairWant s x c.1 c.2))
  let l := l.map (fun c => (c, pairWant s x c.1 c.2, x.count c.1 c.2))
  (bestOf (fun y m => decide (m.2.1 * (y.2.2 + 1) < y.2.1 * (m.2.2 + 1))) l).map (·.1)

/-- The pair of `a` on plane `p` with the least loss that may be removed: the peer, w and n. -/
def leastLoss (s : State) (ms : List Nat) (x : Plan) (p a : Nat) : Option (Nat × Nat × Nat) :=
  let l := ms.filter (fun y => y != a && x.held.contains (planKey p a y)
    && decide (allocCtl s STL_ALLOC_CTRL_FLOOR < x.count a y) && decide (x.changed y < allocCtl s STL_ALLOC_CTRL_MAX_MOVES))
  -- ties: lower end first, then the other end
  let l := sortBy (fun y z => decide (planKey 0 a y ≤ planKey 0 a z)) l
  bestOf (fun y m => decide (y.2.1 * m.2.2 < m.2.1 * y.2.2)) (l.map (fun y => (y, pairWant s x a y, x.count a y)))

/-- Lane pairs of a member on a plane that lead to no other member. -/
def otherLanes (s : State) (ms : List Nat) (p a : Nat) : Nat :=
  countIf (fun k => ((useReport s a).lanes.getD p 0).testBit k && !ms.contains ((a + k) % 32)) (List.range 32)

/-- Has an end a free slot on the plane: fewer lane pairs than CAP (R243). -/
def slotFree (s : State) (ms : List Nat) (x : Plan) (p a : Nat) : Bool :=
  decide (countIf (fun k => k / 1024 == p && (k / 32 % 32 == a || k % 32 == a)) x.held + otherLanes s ms p a
    < (useReport s a).cap.getD p 0)

/-- A plane that takes a lane pair of {c, d}: the removals it needs, with their losses. -/
def planeMoves (s : State) (ms : List Nat) (x : Plan) (c d p : Nat) : Option (List (Nat × Nat × Nat × Nat)) :=
  if x.held.contains (planKey p c d) || (useReport s c).cap.getD p 0 == 0 || (useReport s d).cap.getD p 0 == 0 then none
  else
    let need := [c, d].filter (fun a => !slotFree s ms x p a)
    let r := need.filterMap (fun a => (leastLoss s ms x p a).map (fun y => (a, y.1, y.2.1, y.2.2)))
    let w := pairWant s x c d
    let n := x.count c d
    if r.length = need.length
        ∧ r.all (fun y => decide (allocCtl s STL_ALLOC_CTRL_HYST * y.2.2.1 * (n + 1) < 8 * w * y.2.2.2)) then some r
    else none

/-- The loop of R250. -/
def planLoop (s : State) (ms : List Nat) : Nat → Plan → Plan
  | 0, x => x
  | fuel + 1, x =>
    match bestGain s ms x with
    | none => x
    | some (c, d) =>
      match (List.range s.fuses.part.sheetPlanes).findSome? (fun p => (planeMoves s ms x c d p).map (fun r => (p, r))) with
      | none => planLoop s ms fuel { x with marked := (32 * c + d) :: x.marked }
      | some (p, r) =>
        let x := r.foldl (fun x y => ({ x with held := x.held.filter (· != planKey p y.1 y.2.1) }.touch y.1).touch y.2.1) x
        planLoop s ms fuel ({ x with held := x.held ++ [planKey p c d] }.touch c |>.touch d)

/-- The entries of a member's grant: removals, then additions. -/
def grantOf (a : Nat) (old new : List Nat) : List (Nat × Nat × Bool) :=
  let mine (add : Bool) (l : List Nat) : List (Nat × Nat × Bool) := l.filterMap (fun k =>
    if k / 32 % 32 = a then some (k / 1024, k % 32, add)
    else if k % 32 = a then some (k / 1024, k / 32 % 32, add) else none)
  mine false (old.filter (fun k => !new.contains k)) ++ mine true (new.filter (fun k => !old.contains k))

def grantBytes (epoch : Nat) (l : List (Nat × Nat × Bool)) : List Byte :=
  [2, 1] ++ leBytes 2 l.length ++ leBytes 4 epoch
    ++ l.flatMap (fun e => leBytes 4 (e.1 + 64 * e.2.1 + 2048 * e.2.2.toNat))

/-! ### Grants (R251, R252) -/

/-- The lane pairs shown on a plane after a grant's entries. -/
def afterGrant (s : State) (p : Nat) (l : List (Nat × Nat × Bool)) : List Nat :=
  let line (e : Nat × Nat × Bool) : Nat := (32 + e.2.1 - s.ownIdx) % 32
  let on := l.filter (fun e => e.1 == p)
  let kept := ((List.range 32).filter (fun k => (s.lane (pairKey p k)).kept)).filter
    (fun k => !on.any (fun e => !e.2.2 && line e == k))
  kept ++ (on.filter (·.2.2)).map line

/-- Would the grant's entries break R243. -/
def grantFits (s : State) (l : List (Nat × Nat × Bool)) : Bool :=
  (l.filter (·.2.2)).all (fun e =>
    let a := afterGrant s e.1 l
    e.2.1 != s.ownIdx && planeFitted s e.1 && planeUp s e.1 && decide (a.eraseDups.length = a.length)
      && decide (a.length ≤ capOf s e.1))

/-- A grant's entries, none when one is malformed. -/
def parseGrant (s : State) (b : List Byte) : Option (List (Nat × Nat × Bool)) :=
  let n := leAt b 2 2
  let ws := (List.range n).map (fun e => leAt b (8 + 4 * e) 4)
  if leAt b 1 1 = 1 ∧ 1 ≤ n ∧ n ≤ 255 ∧ b.length = 8 + 4 * n
      ∧ ws.all (fun w => decide (w < 4096) && decide (w % 64 < s.fuses.part.sheetPlanes) && w / 64 % 32 != s.ownIdx) then
    some (ws.map (fun w => (w % 64, w / 64 % 32, w.testBit 11)))
  else none

/-- The check of R251 and its outcome. -/
def takeGrant (s : State) (src epoch : Nat) (l : Option (List (Nat × Nat × Bool))) : State :=
  let ok := leaderOf s == some (src % 32) && src / 32 == s.ownDev / 32 && epoch == (curEpoch s + 1) % 2 ^ 32
  match l with
  | some l =>
    if ok && grantFits s l then
      { s.setFld pgAlloc STL_ALLOC_STAT_GRANT_OK 1 with alloc := { s.alloc with grant := some (epoch, l) } }
    else errOcc (s.setFld pgAlloc STL_ALLOC_STAT_GRANT_REJ 1) pgAlloc 7 0
  | none => errOcc (s.setFld pgAlloc STL_ALLOC_STAT_GRANT_REJ 1) pgAlloc 7 0

def doGrantReceive (s : State) : State :=
  match takeMgmt s (isAllocMsg 2) with
  | none => s
  | some (p, s) => takeGrant s p.src (leAt p.payload 4 4) (parseGrant s p.payload)

/-- The leader's plan and its grants. -/
def doAllocPlan (s : State) : State :=
  if !isLeader s || !s.alloc.waited || s.alloc.planned || allocCtl s STL_ALLOC_CTRL_EN == 0 || s.inFault then s
  else
    let ms := members s
    let old := heldPairs s ms
    let new := (planLoop s ms 9000 { held := old, changes := [], marked := [] }).held
    let epoch := (curEpoch s + 1) % 2 ^ 32
    let s := { s with alloc := { s.alloc with planned := true } }
    ms.foldl (fun s a =>
      let l := (grantOf a old new).take 255
      if l.isEmpty then s
      else if a = s.ownIdx then takeGrant s s.ownDev epoch (some l)
      else sendMgmt s (sheetDev s a) (grantBytes epoch l)) s

/-- Sheet pairs held. -/
def heldHere (s : State) : List Nat := (s.lanes.filter (fun e => decide (e.1 / 32 < 48) && e.2.kept)).map (·.1)

/-- Does the next boundary turn the allocator off (R267). -/
def planReturns (s : State) : Bool :=
  allocCtl s STL_ALLOC_CTRL_EN != 0 && s.fld pgAlloc STL_ALLOC_CTRL_EN == 0

/-- GRANT_PREPARE: no new packet goes on a lane pair that the next boundary removes, by a grant or because the initial plan returns
(R252, R267). -/
def doGrantPrepare (s : State) : State :=
  let go := match s.alloc.grant with
    | none => []
    | some (_, l) => (l.filter (fun e => !e.2.2)).map (fun e => pairKey e.1 ((32 + e.2.1 - s.ownIdx) % 32))
  let off := if planReturns s then (heldHere s).filter (fun key => !(planLines (key / 32)).contains (key % 32)) else []
  (go ++ off).foldl (fun s key => if (s.lane key).kept then s.modLane key (fun x => { x with leaving := true }) else s) s

/-- An accepted grant is applied at its boundary: removals, then additions. -/
def applyGrant (s : State) (l : List (Nat × Nat × Bool)) : State :=
  let line (e : Nat × Nat × Bool) : Nat := (32 + e.2.1 - s.ownIdx) % 32
  let s := (l.filter (fun e => !e.2.2)).foldl (fun s e => laneDown s e.1 (line e) false) s
  let s := (l.filter (·.2.2)).foldl (fun s e => bringUp s e.1 (line e) true) s
  s.setFld pgAlloc STL_ALLOC_STAT_CHANGES (min 255 l.length)

/-- The initial plan comes into force: sheet pairs outside it are removed (R244). -/
def enforcePlan (s : State) : State :=
  (List.range s.fuses.part.sheetPlanes).foldl (fun s p => (planeLanes s p).foldl (fun s k =>
    if (planLines p).contains k || (s.lane (pairKey p k)).st == 8 then s else laneDown s p k false) s) s

/-- Pairs that are held and went DOWN, such as those to a device that was fenced, return to bring-up (R384). -/
def bringUpHeld (s : State) : State :=
  ((s.lanes.filter (fun e => decide (e.1 / 32 < 48) && e.2.held && e.2.st == 0)).map (·.1)).foldl
    (fun s key => bringUp s (key / 32) (key % 32) false) s

/-! ### What a boundary brings to the dies -/

/-- A requested input switch (R233). -/
def boundarySelect (s : State) (d : Nat) : State :=
  if !s.flag (pgStl d) STL_LASER_SEL_PEND then s
  else
    let other := !(selB s d)
    let s := s.setFld (pgStl d) STL_LASER_SEL_PEND 0
    if (s.die d).selected && s.flag (pgStl d) (qualFld other) then
      (unlockTx (holdLanes s d 1) d).modDie d (fun x => { x with switching := true })
    else s

/-- A dark die selects a qualified input (R235). -/
def boundaryLight (s : State) (d : Nat) : State :=
  if !s.flag (pgStl d) STL_LSTAT_DARK then s
  else if s.flag (pgStl d) STL_LSTAT_A_QUAL then selectInput s d false
  else if s.flag (pgStl d) STL_LSTAT_B_QUAL then selectInput s d true
  else s

/-- Is a plane down that might come up again: its fibre and its die have light (R263). -/
def mayReturn (s : State) (p : Nat) : Bool :=
  planeFitted s p && !planeUp s p && !s.flag (pgStl (planeDie p)) STL_LSTAT_DARK && planeFld s p STL_PLANE_STAT_RX_LOS == 0

/-- Has the test of a plane passed: over the on-die loopback, or with light from outside. -/
def planePassed (s : State) (p : Nat) (onDie : Bool) : Bool :=
  match s.loop (planeDie p) (planeFibre p) with
  | some x => x.passed && x.spare.isNone && x.onDie == onDie
  | none => false

/-- A plane comes back up, once its test has passed (R263). -/
def planeReturn (s : State) (p : Nat) : State :=
  let d := planeDie p
  let f := planeFibre p
  if p < 64 ∧ mayReturn s p ∧ planePassed s p false then showCap (setPlaneFld (endLoop s d f) p STL_PLANE_STAT_UP 1) d f else s

/-- A plane's test begins: training frames on λ0 of a sheet plane, on lane 0 of an outer plane (R263). -/
def testPlane (s : State) (p : Nat) (onDie : Bool) : State :=
  let d := planeDie p
  let f := planeFibre p
  match idleRing s d f false, idleRing s d f true with
  | some tx, some rx => if (s.loop d f).isSome then s else beginLoop s d f tx rx (if p < 48 ∨ onDie then 0 else 8) none onDie
  | _, _ => s

/-- At a boundary the planes that are down and have light begin their tests, and rings that wait for a test begin theirs. -/
def boundaryTests (s : State) : State :=
  let s := (if s.flag pgMbr MBR_MSTAT_UP then (allPlanes s).filter (mayReturn s) else []).foldl (fun s p => testPlane s p false) s
  (s.rings.filter (fun e => e.2.waits || e.2.readmit)).foldl (fun s e => nextTest s (e.1 / 288) (e.1 / 36 % 8)) s

/-- A quarantined pair passes its test: an outer pair is ACTIVE again, a sheet pair eligible again (R256). -/
def quarReturn (s : State) (p k : Nat) : State :=
  if p < 64 ∧ k < 32 ∧ (s.lane (pairKey p k)).st = 8 ∧ (s.lane (pairKey p k)).test = 6 then
    (if p < 48 then laneDown s p k false else if ringsProven s p k then laneActive s p k else s)
  else s

/-- A quarantined pair fails its test; with the third failure its rings fail (R256, R262). -/
def quarFailed (s : State) (p k : Nat) : State :=
  if !(decide (p < 64) && decide (k < 32) && (s.lane (pairKey p k)).st == 8 && (s.lane (pairKey p k)).test != 0) then s
  else
    let d := planeDie p
    let f := planeFibre p
    let n := (s.lane (pairKey p k)).quarFails + 1
    let s := s.modLane (pairKey p k) (fun x => { x with quarFails := n, test := 0 })
    if n < 3 then s
    else ([ringOn s d f false k, ringOn s d f true (mirror p k)].filterMap id).foldl (fun s r => ringFail s d f r) s

/-- A quarantined pair begins its test at the first boundary, and again at the next one after a failure: its rings tune (R256). -/
def quarBegin (s : State) (key : Nat) : State :=
  let p := key / 32
  let k := key % 32
  let d := planeDie p
  let f := planeFibre p
  if !((s.lane key).st == 8 && (s.lane key).test == 0 && laneAllowed s p k) then s
  else
    match takeRing s d f false k with
    | none => s
    | some t =>
      match takeRing t d f true (mirror p k) with
      | none => s
      | some t => setLaneSt t p k (fun x => { LaneSt.init with st := 8, held := x.held, quarFails := x.quarFails, test := 1 })

/-- A spare takes the line of a failed ring, and its pair starts bring-up (R261). -/
def takeLine (s : State) (d f r line : Nat) : State :=
  let p := planeOf d f
  let drop := decide (18 ≤ r)
  let k := if drop then mirror p line else line
  if (ringOn s d f drop line).isSome then s
  else
    let s := bringUp (setRingFlds s d f r [(KEY_RING_LINE, line), (KEY_RING_INUSE, 1)]) p k false
    if (s.lane (pairKey p k)).st = 0 then setRingFlds s d f r [(KEY_RING_INUSE, 0)] else s

/-- A spare replaces the failed ring of its direction that has waited for one. -/
def substitute (s : State) (d f r : Nat) : State :=
  match waitingOf s d f (decide (18 ≤ r)) with
  | [] => s
  | g :: _ =>
    let owes := (s.ring d f g).owes
    let s := s.modRing d f g (fun x => { x with waits := false, owes := none })
    let s := errOcc (setRingFlds s d f r [(KEY_RING_SPARE, 0)]) (pgKey d) 2 0
    match owes with
    | none => s
    | some line => takeLine s d f r line

/-- Has a ring passed its test as a spare: it is locked and verified and, on a sheet plane, 256 training frames have passed. -/
def sparePassed (s : State) (d f r : Nat) : Bool :=
  (s.ring d f r).testing && ringReady s d f r
    && (if 6 ≤ f then (s.loop d f).isNone else match s.loop d f with | some x => x.spare == some r && x.passed | none => false)

/-- A ring passes its test: a readmitted ring is a spare again, and a spare replaces a failed ring (R261, R262). -/
def spareReady (s : State) (d f r : Nat) : State :=
  if !(dieFitted s d && decide (d < 8) && decide (f < 8) && decide (r < 36)) || !sparePassed s d f r then s
  else
    let s := (endTest s d f r).modRing d f r (fun x => { x with waits := false, owes := none })
    let s := if ringFlag s d f r KEY_RING_FAILED then
        showFailed (setRingFlds s d f r [(KEY_RING_FAILED, 0), (KEY_RING_SPARE, 1)]) d
      else s
    nextTest (showCap (substitute s d f r) d f) d f

/-! ### The boundary (R246) -/

/-- What a boundary brings the sheet's pairs, and how many it changes: a grant that names it, and the initial plan while the allocator
is off; `back`: it has just been turned off (R244, R252, R267). -/
def applyPairs (s : State) (epoch : Nat) (on back : Bool) : State :=
  let s := s.setFld pgAlloc STL_ALLOC_STAT_CHANGES 0
  let s := match s.alloc.grant with
    | some (e, l) => if e = epoch then { applyGrant s l with alloc := { s.alloc with grant := none } } else s
    | none => s
  let outer := (List.range s.fuses.part.outerPlanes).map (· + 48)
  if on then bringUpPlan (bringUpHeld s) outer false
  else
    let old := heldHere s
    let s := bringUpPlan (bringUpPlan (enforcePlan s) (List.range s.fuses.part.sheetPlanes) back) outer false
    let new := heldHere s
    if !back then s
    else
      let n := countIf (fun k => !new.contains k) old + countIf (fun k => !old.contains k) new
      s.setFld pgAlloc STL_ALLOC_STAT_CHANGES (min 255 (s.fld pgAlloc STL_ALLOC_STAT_CHANGES + n))

/-- The boundary at fabric time `t` ns, the `num`-th of the epoch length now in effect. The outcomes of the tests it ends are the
command's operand (log entry 40). -/
def applyBoundary (tests : EpochTests) (num : Nat) (s : State) : State :=
  let back := planReturns s
  let ctl := s.reg pgAlloc 0x300
  let epoch := num % 2 ^ 32
  let s := snapDemand (s.setFld pgAlloc STL_ALLOC_EPOCH epoch)
  let s := { s with alloc := { s.alloc with ctl := ctl, num := num, prev := s.alloc.reports, reports := [], waited := false, planned := false } }
  let dies := List.range s.fuses.part.dies
  let s := dies.foldl (fun s d => boundaryLight (boundarySelect s d) d) s
  let s := tests.planePass.foldl planeReturn s
  let s := tests.quarPass.foldl (fun s x => quarReturn s x.1 x.2) s
  let s := tests.quarFail.foldl (fun s x => quarFailed s x.1 x.2) s
  let s := tests.sparePass.foldl (fun s x => spareReady s x.1 x.2.1 x.2.2) s
  let s := (s.lanes.map (·.1)).foldl (fun s key => s.modLane key (fun x => { x with leaving := false })) s
  let s := (s.lanes.map (·.1)).foldl quarBegin s
  let s := applyPairs (boundaryTests s) epoch (bits ctl 0 0 != 0) back
  sendReport s

/-- The epoch length of an ALLOC_CTRL in ns. -/
def epochLen (ctl : Word) : Nat := 100000 * bits ctl STL_ALLOC_CTRL_EPOCH.hi STL_ALLOC_CTRL_EPOCH.lo

/-- EPOCH_BOUNDARY: the next boundary that fabric time has reached and none has applied, so each is applied once, those that a step
forward passes too (R246, R407). A new epoch length counts from it. -/
def doEpochBoundary (tests : EpochTests) (s : State) : State :=
  let len := epochLen s.alloc.ctl
  if timeNs s / len ≤ s.alloc.num then s
  else applyBoundary tests ((s.alloc.num + 1) * len / epochLen (s.reg pgAlloc 0x300)) s

/-! ### Meanings -/

/-- ALLOC_REPORT_RECEIVE. -/
def execAllocReportReceive (s : State) : Res := .next (powered doAllocReportReceive s)

/-- REPORT_WAIT_EXPIRY. -/
def execReportWaitExpiry (s : State) : Res := .next (powered doReportWaitExpiry s)

/-- GRANT_RECEIVE. -/
def execGrantReceive (s : State) : Res := .next (powered doGrantReceive s)

/-- ALLOC_PLAN. -/
def execAllocPlan (s : State) : Res := .next (powered doAllocPlan s)

/-- GRANT_PREPARE. -/
def execGrantPrepare (s : State) : Res := .next (powered doGrantPrepare s)

/-- EPOCH_BOUNDARY. -/
def execEpochBoundary (tests : EpochTests) (s : State) : Res := .next (powered (doEpochBoundary tests) s)

end Sys2Proof.Machine
end

