-- ==== Sys2Proof/Machine/Collect.lean ====
section
/-!
DEFINITION. Collectives: groups (R339 to R341), descriptors (R342 to R345), phases and reduction (R346 to R350), chunks (R351 to
R354), aborts (R356 to R360), order domains (R361, R362) and fenced members (R366).
-/

namespace Sys2Proof.Machine

/-! ### Groups -/

def State.setGroup (s : State) (g : Nat) (x : GroupSt) : State :=
  { s with coll := { s.coll with groups := smSet GroupSt.init s.coll.groups g x } }

def GroupSt.odom (x : GroupSt) : Nat := bits x.cfg 27 24
def GroupSt.pos (x : GroupSt) : Nat := bits x.cfg 21 12
def GroupSt.m (x : GroupSt) : Nat := bits x.shape 25 16 + 1
def GroupSt.q (x : GroupSt) : Nat := bits x.shape 5 0
def GroupSt.next (x : GroupSt) : Nat := bits x.rings 15 0
def GroupSt.prev (x : GroupSt) : Nat := bits x.rings 31 16

/-- Sheet indices of the group's members in this sheet, ascending, and the local index of one. -/
def GroupSt.members (x : GroupSt) : List Nat := (List.range 32).filter (bitAt x.mask)
def GroupSt.localIdx (x : GroupSt) (i : Nat) : Nat := countIf (fun j => decide (j < i)) x.members

/-- Outer planes of a mask. -/
def planesOf (mask : Nat) : List Nat := (List.range 16).filter mask.testBit

/-- The check of R341. -/
def groupOk (s : State) (x : GroupSt) : Bool :=
  decide (x.engine < s.fuses.part.colls) && decide (1 ≤ x.q) && decide (x.q ≤ 32) && decide (x.m ≤ 512)
    && x.members.length == x.q && bitAt x.mask s.ownIdx && decide (x.pos < x.m)
    && (if x.m = 1 then x.next == 0 && x.prev == 0
        else x.next != 0 && x.prev != 0 && (x.next &&& x.prev) == 0
          && (planesOf (x.next ||| x.prev)).all (fun k => (outerPeer s k).isSome))

/-- GROUP_VALIDATE: the write of VALID = 1. A refused entry is recorded as a reserved encoding (R16). -/
def doGroupValidate (g : GroupId) (s : State) : State :=
  let x := s.group g
  if x.valid then s
  else if groupOk s x then s.setGroup g { x with cfg := putBit x.cfg 31 true, seq := 0 }
  else s.noteReject (pgCol 0) 0x20C false

/-! ### What a COLL descriptor asks for (R343, R344) -/

structure CollOp where
  op : Nat
  slice : Nat
  ord : Nat
  root : Nat
  sat : Bool
  wide : Bool
  rop : Nat
  fmt : Nat
  gid : Nat
deriving DecidableEq, Repr

def collOp (d : List Byte) : CollOp :=
  let x := descOp d 2
  { op := descOpcode d, slice := natBits x 63 44, ord := natBits x 43 32, root := natBits x 29 16, sat := x.testBit 15,
    wide := x.testBit 14, rop := natBits x 13 12, fmt := natBits x 11 8, gid := natBits x 7 0 }

def CollOp.reduces (o : CollOp) : Bool := o.op == 0x53 || o.op == 0x54
def CollOp.int (o : CollOp) : Bool := o.fmt == 4 || o.fmt == 5
/-- Wire bytes for each buffer byte of phase 2. -/
def CollOp.widening (o : CollOp) : Nat := if o.reduces && o.wide then 32 / elemBits o.fmt else 1

/-- Rank of this device. -/
def ownRank (s : State) (x : GroupSt) : Nat := x.localIdx s.ownIdx * x.m + x.pos

/-- Which of OP0 and OP1 an opcode takes as form D; the other is null (R344). -/
def collForms (s : State) (o : CollOp) (x : GroupSt) : Bool × Bool :=
  match o.op with
  | 0x50 => (false, false)
  | 0x51 => (ownRank s x == o.root, ownRank s x != o.root)
  | _ => (true, true)

/-- Length in bytes of OP0 and OP1; 0 for null. -/
def collLens (s : State) (o : CollOp) (x : GroupSt) : Nat × Nat :=
  let one := 64 * o.slice
  let all := x.m * x.q * one
  match o.op with
  | 0x51 => if ownRank s x = o.root then (one, 0) else (0, one)
  | 0x52 => (one, all)
  | 0x53 => (all, one)
  | 0x54 | 0x55 => (all, all)
  | _ => (0, 0)

/-- Do two operands share a byte: only within one SPACE of one device. -/
def overlaps (s : State) (a n b m : Nat) : Bool :=
  faSpace a == faSpace b && (faDev a == faDev b || (s.isOwn (faDev a) && s.isOwn (faDev b)))
    && decide (faOff a < faOff b + m) && decide (faOff b < faOff a + n)

/-- The checks of R344 in their listed order, then the operands' addresses (R547). An ENGINE other than the group's has the byte of GID as
DETAIL (log entry 105). -/
def checkColl (s : State) (e : WinEntry) : Option Verdict :=
  let d := e.desc
  let o := collOp d
  let x := s.group o.gid
  let (f0, f1) := collForms s o x
  let (n0, n1) := collLens s o x
  let a0 := descOp d 0
  let a1 := descOp d 1
  firstV
    [ whenV (!x.valid || x.engine != descInst d) (fmtErr 56),
      whenV (isNull d 0 == f0) (fmtErr 47), whenV (isNull d 1 == f1) (fmtErr 55),
      whenV (f0 && f1 && overlaps s a0 n0 a1 n1 && !(o.op == 0x54 && faOff a0 == faOff a1)) (fmtErr 48),
      whenV ((o.slice == 0) != (o.op == 0x50)) (fmtErr 61),
      whenV (decide (x.m * x.q ≤ o.root)) (fmtErr 58),
      whenV (o.op == 0x55 && decide (1 < x.m)) (fmtErr 56),
      whenV (o.reduces && (decide (5 < o.fmt) || o.rop == 3)) (fmtErr 57),
      whenV (!o.reduces && (o.fmt != 0 || o.rop != 0 || o.wide || o.sat)) (fmtErr 57),
      whenV (x.odom == 0 && o.ord != 0) (fmtErr 60),
      whenV f0 (checkDev s d [] n0 0), whenV f1 (checkDev s d [] n1 1) ]

/-- A descriptor that completes at issue while its group is valid goes to the group's engine as a void (R345). -/
def pushVoid (s : State) (c : Nat) (e : WinEntry) : State :=
  match voidGroup s e.desc with
  | none => s
  | some x =>
    let id := s.nextCmd
    let v : Cmd := { Cmd.none_ with core := c, ring := e.ring, idx := e.idx, desc := e.desc, cls := 5, inst := x.engine }
    let s := { s.setCmd id v with nextCmd := id + 1 }
    let s := { s with coll := { s.coll with voids := smInsert s.coll.voids id () } }
    setQueue s c 5 x.engine (queueOf s c 5 x.engine ++ [id])

def issueColl (c op : Nat) (s : State) : State :=
  issue s c (fun e => e.bad.isNone && descOpcode e.desc == op) (fun s e => (checkColl s e).or (sigVerdict s c e.desc)) (push c)
    (fun s e => pushVoid s c e)

def doCbarrier (c : CoreId) (s : State) : State := issueColl c 0x50 s
def doCbcast (c : CoreId) (s : State) : State := issueColl c 0x51 s
def doCallgather (c : CoreId) (s : State) : State := issueColl c 0x52 s
def doCredscat (c : CoreId) (s : State) : State := issueColl c 0x53 s
def doCallred (c : CoreId) (s : State) : State := issueColl c 0x54 s
def doCalltoall (c : CoreId) (s : State) : State := issueColl c 0x55 s

/-! ### Contexts -/

def State.ctx (s : State) (key : Nat) : Option CollCtx := smFind s.coll.ctxs key
def State.setCtx (s : State) (key : Nat) (x : CollCtx) : State :=
  { s with coll := { s.coll with ctxs := smInsert s.coll.ctxs key x } }
def State.modCtx (s : State) (key : Nat) (f : CollCtx → CollCtx) : State :=
  match s.ctx key with
  | some x => s.setCtx key (f x)
  | none => s

def CollCtx.op (s : State) (x : CollCtx) : CollOp := collOp (s.cmd x.cmd).desc

/-- The context that runs (GID, s). -/
def ctxOf (s : State) (g seq : Nat) : Option (Nat × CollCtx) := s.coll.ctxs.find? (fun e => e.2.gid == g && e.2.seq == seq)

/-! ### Streams (R348, R349, R351) -/

/-- A piece of a stream: first 64-byte unit of the buffer and number of units. -/
abbrev Seg := Nat × Nat

/-- The lower and the upper half of a slice: first unit and units; an odd slice has the larger lower half (log entry 42). -/
def halfOf (slice : Nat) (lower : Bool) : Seg :=
  let l := (slice + 1) / 2
  if lower then (0, l) else (l, slice - l)

/-- The half of slice `j` that one ring direction carries. -/
def sliceHalf (slice j : Nat) (lower : Bool) : Seg := (j * slice + (halfOf slice lower).1, (halfOf slice lower).2)

/-- Positions on the ring from this device: `d` ahead, `d` behind. -/
def ahead (x : GroupSt) (d : Nat) : Nat := (x.pos + d) % x.m
def behind (x : GroupSt) (d : Nat) : Nat := (x.pos + x.m * (d / x.m + 1) - d) % x.m

/-- Phases of an opcode in order. -/
def phasesOf (o : CollOp) (x : GroupSt) : List Nat :=
  let ring (p : Nat) : List Nat := if x.m = 1 then [] else [p]
  match o.op with
  | 0x54 => [1] ++ ring 2 ++ ring 3 ++ [4]
  | 0x52 => ring 3 ++ [4]
  | 0x55 => [1]
  | _ => [1] ++ ring 2

/-- Pieces of a ring stream: `go` says which position's slice step `t` carries. -/
def ringSegs (o : CollOp) (x : GroupSt) (r : Nat) (lower : Bool) (go : Nat → Nat) : List Seg :=
  ((List.range (x.m - 1)).map (fun t => sliceHalf o.slice (r * x.m + go t) lower)).filter (fun g => g.2 != 0)

/-- What this member sends on an edge in a phase (log entries 41, 43). -/
def segsOut (s : State) (o : CollOp) (x : GroupSt) (phase edge : Nat) : List Seg :=
  let r := x.localIdx s.ownIdx
  let j := x.localIdx edge
  let blk := x.m * o.slice
  let sheet := decide (edge < 32) && bitAt x.mask edge && edge != s.ownIdx
  let next := edge == 32
  let rootPos := o.root % x.m
  -- distance this device lies beyond the root in the direction of the edge
  let dist := if next then (x.pos + x.m - rootPos) % x.m else (rootPos + x.m - x.pos) % x.m
  match phase with
  | 1 =>
    if !sheet then []
    else match o.op with
      | 0x50 => [(0, 0)]
      | 0x51 => if ownRank s x = o.root then [(0, o.slice)] else []
      | 0x55 => [(j * o.slice, o.slice)]
      | _ => [(j * blk, blk)]
  | 2 =>
    if edge < 32 then []
    else match o.op with
      | 0x50 => List.replicate (x.m - 1) (0, 0)
      | 0x51 => if dist + 2 ≤ x.m then [halfOf o.slice next].filter (fun g => g.2 != 0) else []
      | _ => ringSegs o x r next (fun t => if next then behind x (1 + t) else ahead x (1 + t))
  | 3 => if edge < 32 then [] else ringSegs o x r next (fun t => if next then behind x t else ahead x t)
  | _ => if sheet then [(r * blk, blk)] else []

/-- What this member receives on an edge in a phase. Over its PREV planes it hears the stream sent over NEXT planes. -/
def segsIn (s : State) (o : CollOp) (x : GroupSt) (phase edge : Nat) : List Seg :=
  let r := x.localIdx s.ownIdx
  let j := x.localIdx edge
  let blk := x.m * o.slice
  let sheet := decide (edge < 32) && bitAt x.mask edge && edge != s.ownIdx
  let lower := edge == 33
  let rootPos := o.root % x.m
  let dist := if lower then (x.pos + x.m - rootPos) % x.m else (rootPos + x.m - x.pos) % x.m
  match phase with
  | 1 =>
    if !sheet then []
    else match o.op with
      | 0x50 => [(0, 0)]
      | 0x51 => if x.pos = rootPos ∧ j = o.root / x.m then [(0, o.slice)] else []
      | 0x55 => [(j * o.slice, o.slice)]
      | _ => [(r * blk, blk)]
  | 2 =>
    if edge < 32 then []
    else match o.op with
      | 0x50 => List.replicate (x.m - 1) (0, 0)
      | 0x51 => if 1 ≤ dist then [halfOf o.slice lower].filter (fun g => g.2 != 0) else []
      | _ => ringSegs o x r lower (fun t => if lower then behind x (2 + t) else ahead x (2 + t))
  | 3 => if edge < 32 then [] else ringSegs o x r lower (fun t => if lower then behind x (1 + t) else ahead x (1 + t))
  | _ => if sheet then [(j * blk, blk)] else []

/-- A chunk of a stream: OFFSET, wire units, and the units of the buffer it carries. -/
structure Chunk where
  off : Nat
  n : Nat
  us : List Nat
deriving DecidableEq, Repr

/-- Units of a piece. -/
def segUnits (g : Seg) : List Nat := (List.range g.2).map (g.1 + ·)

/-- Full chunks of 4,096 wire bytes, and a last one. -/
def cutUnits (wf : Nat) : Nat → Nat → List Nat → List Chunk
  | 0, _, _ => []
  | f + 1, off, us =>
    if us.isEmpty then []
    else
      let t := us.take (64 / wf)
      ⟨off, t.length * wf, t⟩ :: cutUnits wf f (off + t.length * wf) (us.drop (64 / wf))

/-- Chunks that end with their piece; a barrier token counts as one unit (log entry 43). -/
def cutPieces (wf : Nat) : List Seg → Nat → List Chunk
  | [], _ => []
  | g :: t, off =>
    if g.2 = 0 then ⟨off, 0, []⟩ :: cutPieces wf t (off + 1)
    else cutUnits wf (g.2 + 1) off (segUnits g) ++ cutPieces wf t (off + g.2 * wf)

/-- Chunks of a stream: its pieces concatenated, cut every 4,096 bytes (R351). Pieces shorter than a chunk are cut for themselves: a chunk
across them would wait on itself round the ring (log entry 41). -/
def chunkList (wf : Nat) (l : List Seg) : List Chunk :=
  if l.all (fun g => decide (64 ≤ g.2 * wf)) then
    let us := (l.map segUnits).flatten
    cutUnits wf (us.length + 1) 0 us
  else cutPieces wf l 0

def wireOf (o : CollOp) (phase : Nat) : Nat := if phase = 2 then o.widening else 1
def chunksOut (s : State) (o : CollOp) (x : GroupSt) (phase edge : Nat) : List Chunk :=
  chunkList (wireOf o phase) (segsOut s o x phase edge)
def chunksIn (s : State) (o : CollOp) (x : GroupSt) (phase edge : Nat) : List Chunk :=
  chunkList (wireOf o phase) (segsIn s o x phase edge)

/-- Edges of a group. -/
def edgesOf (s : State) (x : GroupSt) : List Nat := x.members.filter (· != s.ownIdx) ++ (if x.m = 1 then [] else [32, 33])

def streamKey (phase edge : Nat) : Nat := 64 * phase + edge

/-- Has everything of a phase arrived. -/
def phaseIn (s : State) (o : CollOp) (x : GroupSt) (c : CollCtx) (phase : Nat) : Bool :=
  (edgesOf s x).all (fun e => (smGet [] c.rcvd (streamKey phase e)).length == (chunksIn s o x phase e).length)

/-! ### Sending chunks -/

/-- The link a chunk to an edge takes: the sheet link, or one of the edge's planes (R348). -/
def edgeLink (s : State) (x : GroupSt) (edge off tries : Nat) : Option Nat :=
  if edge < 32 then (if sheetUp s edge then some edge else none)
  else
    (pick ((planesOf (if edge = 32 then x.next else x.prev)).filter (fun k => linkUp s (32 + k))) edge off tries).map (32 + ·)

/-- The edge of a link, for a member of the group (R340). -/
def edgeOfLink (s : State) (x : GroupSt) (l : Nat) : Option Nat :=
  if l < 32 then (if bitAt x.mask l && l != s.ownIdx then some l else none)
  else if x.next.testBit (l - 32) then some 32 else if x.prev.testBit (l - 32) then some 33 else none

/-- The device at the far end of an edge. -/
def edgeDev (s : State) (x : GroupSt) (edge : Nat) : Option Nat :=
  if edge < 32 then some (sheetDev s edge)
  else match planesOf (if edge = 32 then x.next else x.prev) with
    | k :: _ => outerPeer s k
    | [] => none

/-- ADDR of a chunk (R351). -/
def chunkAddr (g ctype ord phase off : Nat) : Nat := g + 2 ^ 8 * ctype + 2 ^ 12 * ord + 2 ^ 24 * phase + 2 ^ 32 * off

/-- A chunk sent again counts and is recorded (COL source 7). -/
def countResend (s : State) (e : Nat) : State := errOcc (s.bump (pgCol e) 5) (pgCol e) 7 0

/-- May a chunk leave on a link: nothing leaves for a fenced device, nor from one (R299, R385), nor in the fault state. -/
def chunkMay (s : State) (l : Nat) : Bool :=
  match linkPeer s l with
  | some d => !(s.fenced d || s.selfFenced || s.inFault)
  | none => false

/-- A chunk over a link. A resend counts where it leaves (R368). -/
def chunkOver (s : State) (eng l g seq ord phase ctype off aux : Nat) (bs : List Byte) (poison retx : Bool) : State :=
  match linkPeer s l with
  | none => s
  | some d =>
    if !chunkMay s l then s
    else
      sendOver ((if retx then countResend s eng else s).bump (pgCol eng) 3) l
        { mkPkt 0x30 d s.ownDev (chunkAddr g ctype ord phase off) aux bs with seq := seq, poison := poison, e2eRetx := retx }

/-- The number of a sending. -/
def State.countSends (s : State) : State := { s with coll := { s.coll with sends := s.coll.sends + 1 } }

/-- A DATA or GRANT chunk of a context leaves. -/
def sendOut (s : State) (eng : Nat) (c : CollCtx) (o : OutChunk) : State :=
  let s := s.countSends
  match edgeLink s (s.group c.gid) (o.stream % 64) o.off o.tries with
  | none => s
  | some l => chunkOver s eng l c.gid c.seq c.ord (o.stream / 64) o.ctype o.off o.aux o.data o.poison (decide (0 < o.tries))

/-! ### Aborts (R356 to R359) -/

/-- Status and DETAIL of a cause. -/
def abortStatus (cause : Nat) : Nat × Nat := if cause = 7 then (6, 2) else if 8 ≤ cause then (0xB, cause) else (5, cause)

/-- COL source of an abort (R369). -/
def abortSource (a : AbortSt) : Nat :=
  if !a.here then 1 else if a.cause = 1 then 2 else if a.cause = 2 then 3 else if 8 ≤ a.cause then 4 else 0

/-- The abort in the page's records (R357). -/
def noteAbort (s : State) (g seq : Nat) (a : AbortSt) : State :=
  s.setFlds (pgCol 0) [(COL_ABORT_REC_CAUSE, a.cause), (COL_ABORT_REC_ORIGIN, a.origin), (COL_ABORT_REC_GID, g), (COL_ABORT_SEQ, seq)]

/-- The abort in the page's records, and ABORT chunks to every unfenced member of the sheet and over every ring plane (their PHASE: log
entry 112). -/
def tellAbort (s : State) (g seq ord : Nat) (a : AbortSt) : State :=
  let x := s.group g
  let s := noteAbort s g seq a
  let links := x.members.filter (· != s.ownIdx) ++ (planesOf (x.next ||| x.prev)).map (32 + ·)
  let links := links.filter (fun l => match linkPeer s l with | some d => !(s.fenced d || s.selfFenced) | none => false)
  links.foldl (fun s l =>
    let o : AbortOut := ⟨x.engine, g, seq, ord, l, a.cause, a.origin, s.coll.sends⟩
    let s := { s with coll := { s.coll with aborts := s.coll.aborts ++ [o] } }
    chunkOver s.countSends x.engine l g seq ord 1 4 0 (a.cause + 16 * a.origin) [] false false) s

/-- The running collective stops sending, and its descriptor takes the abort's status. -/
def stopCtx (s : State) (key : Nat) (a : AbortSt) : State :=
  match s.ctx key with
  | none => s
  | some c =>
    let (st, det) := abortStatus a.cause
    let s := s.setCtx key { c with abort := some a, out := [] }
    s.modCmd c.cmd (fun y => { y with status := st, detail := det, src := some (pgCol (key / 4), abortSource a) })

/-- A running collective aborts; the first abort holds. -/
def abortCtx (s : State) (key : Nat) (a : AbortSt) : State :=
  match s.ctx key with
  | none => s
  | some c => if c.abort.isSome then s else tellAbort (stopCtx s key a) c.gid c.seq c.ord a

def decide_ (s : State) (key cause : Nat) : State := abortCtx s key ⟨cause, s.ownDev, true⟩

/-- A pending record; the oldest is lost when the table is full, which its group's engine records (R359, R369). -/
def pendAbort (s : State) (g seq : Nat) (a : AbortSt) : State :=
  let s := match s.coll.pending with
    | old :: rest =>
      if 255 ≤ rest.length then errOcc { s with coll := { s.coll with pending := rest } } (pgCol (s.group old.gid).engine) 8 0 else s
    | [] => s
  { s with coll := { s.coll with pending := s.coll.pending ++ [⟨g, seq, a⟩] } }

/-- An abort of a collective that is running here, remembered, or not started (R357, R359, R360). -/
def learnAbort (s : State) (g seq ord : Nat) (a : AbortSt) : State :=
  let x := s.group g
  match ctxOf s g seq with
  | some (key, _) => abortCtx s key a
  | none =>
    let mem := smGet [] s.coll.memory x.engine
    match mem.find? (fun d => d.gid == g && d.seq == seq) with
    | some d =>
      if d.held then s
      else
        let mem := mem.map (fun y => if y.gid == g && y.seq == seq then { y with held := true } else y)
        let s := { s with coll := { s.coll with memory := smSet [] s.coll.memory x.engine mem } }
        let s := poisonRuns (d.outs.map (fun r => (some r.1, r.2))) s
        tellAbort (errOcc s (pgCol x.engine) 5 0) g seq ord a
    | none =>
      if seqBefore seq x.seq || s.coll.pending.any (fun p => p.gid == g && p.seq == seq) then s
      else tellAbort (pendAbort s g seq a) g seq ord a

/-- A group that has a fenced member here or a fenced counterpart (R366). -/
def groupFenced (s : State) (x : GroupSt) : Bool :=
  x.members.any (fun i => s.fenced (sheetDev s i))
    || (planesOf (x.next ||| x.prev)).any (fun k => match outerPeer s k with | some d => s.fenced d | none => false)

def pendingOf (s : State) (g seq : Nat) : Option PendAbort := s.coll.pending.find? (fun p => p.gid == g && p.seq == seq)
def dropPending (s : State) (g seq : Nat) : State :=
  { s with coll := { s.coll with pending := s.coll.pending.filter (fun p => p.gid != g || p.seq != seq) } }

/-- The collectives of a group that wait in its engine's queue, in order, each with the s that it will take. -/
def queuedOf (s : State) (g : Nat) : List (Nat × Nat) :=
  let x := s.group g
  let mine := (smGet [] s.net.coll x.engine).filter (fun id =>
    descOpcode (s.cmd id).desc != 0 && (collOp (s.cmd id).desc).gid == g && !(s.cmd id).ran)
  mine.mapIdx (fun i id => ((x.seq + i) % 2 ^ 32, id))

/-- A queued collective decides cause 7, which it keeps as a pending record till its start (R366). -/
def fenceOne (s : State) (g seq id : Nat) : State :=
  if (pendingOf s g seq).isSome then s
  else
    let a : AbortSt := ⟨7, s.ownDev, true⟩
    tellAbort (pendAbort s g seq a) g seq (collOp (s.cmd id).desc).ord a

/-- Does a group name a device, as a member here or as a counterpart on its ring. -/
def groupNames (s : State) (x : GroupSt) (d : Nat) : Bool :=
  x.members.any (fun i => sheetDev s i == d) || (planesOf (x.next ||| x.prev)).any (fun k => outerPeer s k == some d)

/-- The fence set has gained a device: the running and queued collectives of the groups concerned decide cause 7 (R366). -/
def collFence (s : State) (d : Nat) : State :=
  let gs := (s.coll.groups.filter (fun e => e.2.valid && groupNames s e.2 d)).map (·.1)
  let s := (s.coll.ctxs.filter (fun e => gs.contains e.2.gid)).foldl (fun s e => decide_ s e.1 7) s
  gs.foldl (fun s g => (queuedOf s g).foldl (fun s y => fenceOne s g y.1 y.2) s) s

/-- A queued collective of a withdrawn group decides cause 6 for the s that it would take, unless an abort of it is pending; a void
leaves the queue (R341). -/
def withdrawOne (s : State) (g seq id : Nat) : State :=
  let eng := (s.group g).engine
  let old := pendingOf s g seq
  let a : AbortSt := match old with | some p => p.abort | none => ⟨6, s.ownDev, true⟩
  let s := if old.isSome then dropPending s g seq else tellAbort s g seq (collOp (s.cmd id).desc).ord a
  if smHas s.coll.voids id then
    let s := setQueue s 0 5 eng ((smGet [] s.net.coll eng).filter (· != id))
    let s : State := { s.dropCmd id with coll := { s.coll with voids := smErase s.coll.voids id } }
    errOcc s (pgCol eng) (abortSource a) 0
  else
    let (st, det) := abortStatus a.cause
    s.modCmd id (fun y => { y with ran := true, status := st, detail := det, src := some (pgCol eng, abortSource a) })

/-- GROUP_WITHDRAW: the write of VALID = 0. The group's running and queued collectives abort with cause 6; a pending abort of one not yet
queued is recorded as it is discarded (R341, R369). -/
def doGroupWithdraw (g : GroupId) (s : State) : State :=
  let x := s.group g
  if !x.valid then s
  else
    let s := (s.coll.ctxs.filter (fun e => e.2.gid == g.val)).foldl (fun s e => decide_ s e.1 6) s
    let s := (queuedOf s g).foldl (fun s y => withdrawOne s g y.1 y.2) s
    let s := (s.coll.pending.filter (fun p => p.gid == g.val)).foldl (fun s p => errOcc s (pgCol x.engine) (abortSource p.abort) 0) s
    let s := { s with coll := { s.coll with pending := s.coll.pending.filter (fun p => p.gid != g.val) } }
    s.setGroup g { s.group g with cfg := putBit x.cfg 31 false }

/-! ### Reduction (R350) -/

/-- A contribution widened to FP32 or INT32. -/
def widen (o : CollOp) (c : Nat) : Nat :=
  if o.int then wrapInt 32 (sext (elemBits o.fmt) c) else toF32 (decodeElem (kindOf o.fmt) c)

/-- Two widened values combined. -/
def combine2 (o : CollOp) (a b : Nat) : Nat :=
  if o.int then
    let x := sext 32 a
    let y := sext 32 b
    wrapInt 32 (match o.rop with | 0 => clampInt 32 (x + y) | 1 => max x y | _ => min x y)
  else
    match o.rop with
    | 0 => toF32 ((f32 a).add (f32 b))
    | 1 => toF32 (fMax (f32 a) (f32 b))
    | _ => toF32 (fMin (f32 a) (f32 b))

/-- A widened value in the buffer format (R90). -/
def narrow (o : CollOp) (w : Nat) : Nat :=
  (encodeElem (kindOf o.fmt) 0 0 o.sat (if o.int then decodeElem (kindOf 5) w else f32 w)).1

/-- The 64-byte units of a byte string as element codes of `b` bits. -/
def unitCodes (b : Nat) (bs : List Byte) : List (List Nat) := (pieces (bs.length + 1) 64 bs).map (fun u => unpackBits b (512 / b) u)

/-- Contributions a unit of this member's block needs: the members of the sheet, and a partial from the ring unless this
position begins that half's journey. -/
def needOf (o : CollOp) (x : GroupSt) (u : Nat) : Nat :=
  let j := u / o.slice % x.m
  let lower := decide (u % o.slice < (o.slice + 1) / 2)
  let first := if lower then (j + 1) % x.m else (j + x.m - 1) % x.m
  x.q + (if 1 < x.m ∧ x.pos ≠ first then 1 else 0)

/-- Does a failed command write and send zeros: under POISON_PASS only an uncorrectable word stops its input (R146, R147, R365). -/
def zeroing (s : State) (id : Nat) : Bool :=
  let x := s.cmd id
  x.status != 0 && !(ctlPoisonPass x.desc && x.status == 1)

/-- Units of a buffer as byte runs from its address. -/
def unitRuns (addr : Nat) : List Nat → List Run
  | [] => []
  | u :: t => match unitRuns addr t with
    | (some a, n) :: r => if a = addr + 64 * (u + 1) then (some (addr + 64 * u), n + 64) :: r else (some (addr + 64 * u), 64) :: (some a, n) :: r
    | r => (some (addr + 64 * u), 64) :: r

/-- The bytes of a buffer's unit, zeros from the first affected byte of the buffer on (R146). -/
def cutUnit (cut : Option Nat) (u : Nat) (bs : List Byte) : List Byte :=
  match cut with
  | none => bs
  | some p => bs.take (p - 64 * u) ++ List.replicate (bs.length - (p - 64 * u)) 0

/-- From byte `pos` of the buffer on, a command's results are zeros (R146, R365). -/
def cutFrom (s : State) (id pos : Nat) : State := s.modCmd id (fun x => { x with cut := some (min pos (x.cut.getD pos)) })

/-- Result bytes written at units `at_` of OP1, which make the result's units `us` final. -/
def writeUnits (s : State) (key : Nat) (us at_ : List Nat) (bs : List Byte) : State :=
  match s.ctx key with
  | none => s
  | some c =>
    let fin := us.zip ((us.zip (pieces (bs.length + 1) 64 bs)).map (fun y => cutUnit (s.cmd c.cmd).cut y.1 y.2))
    let s := emit s c.cmd (unitRuns (faOff (descOp (s.cmd c.cmd).desc 1)) at_) (fin.map (·.2)).flatten
    s.modCtx key (fun c => { c with fin := fin.foldl (fun m y => smInsert m y.1 y.2) c.fin })

/-- One contribution to one unit; the last one to a unit of this member's own slice makes its result final. -/
def contribute (s : State) (key u : Nat) (v : List Nat) : State :=
  match s.ctx key with
  | none => s
  | some c =>
    let o := c.op s
    let x := s.group c.gid
    let n := smGet 0 c.cnt u
    let w := if n = 0 then v else List.zipWith (combine2 o) (smGet [] c.work u) v
    let s := if n = 0 then s else s.bumpBy (pgCol (key / 4)) 6 v.length
    let s := s.setCtx key { c with work := smInsert c.work u w, cnt := smInsert c.cnt u (n + 1) }
    if n + 1 = needOf o x u ∧ u / o.slice = ownRank s x then
      writeUnits s key [u] [if o.op = 0x53 then u % o.slice else u] (packBits (elemBits o.fmt) (w.map (narrow o)))
    else s

/-- Contributions of several units. -/
def contributeAll (s : State) (key : Nat) (l : List (Nat × List Nat)) : State := l.foldl (fun s e => contribute s key e.1 e.2) s

/-- Source bytes of a command from units of an operand, which are units `ps` of the buffer: zeros once the command has failed, and from a
failing word on, where its results become zeros as well (R146, R365; the order of a result's elements: log entry 122). -/
def collRead (s : State) (id slot : Nat) (us ps : List Nat) : List Byte × State :=
  let x := s.cmd id
  if zeroing s id then (List.replicate (64 * us.length) 0, s)
  else
    let (r, s) := readRuns (ctlPoisonPass x.desc) (unitRuns (faOff (descOp x.desc slot)) us) s
    let s := s.modCmd id (fun y => y.failAll (r.fails slot))
    (keepBefore r.bad r.bytes,
     match minOf (r.bad.map (·.pos)) with
     | some p => cutFrom s id (64 * ps.getD (p / 64) 0 + p % 64)
     | none => s)

/-! ### Phases -/

/-! GRANTs: cumulative credit, held within the window and the staging buffer (R353, log entry 44). -/

/-- Chunks of the staging buffer, and those that running contexts reserve, 2 for each sender. -/
def stagingCap (s : State) : Nat := if s.fuses.part.dies = 8 then 8192 else 4096
def reserved (s : State) : Nat := (s.coll.ctxs.map (fun e => 2 * (edgesOf s (s.group e.2.gid)).length)).sum

/-- Chunks a stream may still bring beyond its sender's reserve, and all that are lent so. -/
def CollCtx.lent (c : CollCtx) (stream : Nat) : Nat := smGet 0 c.granted stream - (smGet [] c.rcvd stream).length - 2
def lentNow (s : State) : Nat := (s.coll.ctxs.map (fun e => (e.2.granted.map (fun g => e.2.lent g.1)).sum)).sum

def grantStream (s : State) (key stream : Nat) : State :=
  match s.ctx key with
  | none => s
  | some c =>
    let total := (chunksIn s (c.op s) (s.group c.gid) (stream / 64) (stream % 64)).length
    let got := (smGet [] c.rcvd stream).length
    let was := smGet 0 c.granted stream
    let room := min (bits c.cfg 15 8) (2 + (stagingCap s - reserved s - (lentNow s - c.lent stream)))
    let new := min total (max was (got + room))
    if new ≤ was then s
    else
      let o : OutChunk :=
        { stream := stream, ctype := 1, off := 0, data := [], aux := new, poison := false, tries := 0, stamp := s.coll.sends }
      let c := { c with granted := smSet 0 c.granted stream new, out := c.out.filter (fun y => y.ctype != 1 || y.stream != stream) ++ [o] }
      sendOut (s.setCtx key c) (key / 4) c o

/-- A phase's GRANTs leave. -/
def openPhase (s : State) (key phase : Nat) : State :=
  match s.ctx key with
  | none => s
  | some c =>
    (edgesOf s (s.group c.gid)).foldl (fun s e => grantStream s key (streamKey phase e))
      (s.setCtx key { c with opened := c.opened ++ [phase] })

/-- Each phase opens when everything of the phase before has arrived (log entry 44). -/
def openPhases (s : State) (key : Nat) : List Nat → State
  | [] => s
  | p :: t =>
    match s.ctx key with
    | none => s
    | some c =>
      let s := if c.opened.contains p then s else openPhase s key p
      match s.ctx key with
      | none => s
      | some c => if phaseIn s (c.op s) (s.group c.gid) c p then openPhases s key t else s

/-- Is a chunk's data final. -/
def chunkReady (s : State) (o : CollOp) (x : GroupSt) (c : CollCtx) (phase edge : Nat) (k : Chunk) : Bool :=
  let us := k.us
  match phase with
  | 1 => true
  | 2 =>
    if o.op = 0x50 then
      if k.off = 0 then phaseIn s o x c 1 else (smGet [] c.rcvd (streamKey 2 (if edge = 32 then 33 else 32))).contains (k.off - 1)
    else if o.op = 0x51 then ownRank s x == o.root || us.all (smHas c.fin)
    else us.all (fun u => smGet 0 c.cnt u == needOf o x u)
  | _ => us.all (smHas c.fin)

/-- A chunk's data. -/
def chunkData (s : State) (o : CollOp) (x : GroupSt) (c : CollCtx) (phase : Nat) (k : Chunk) : List Byte × State :=
  if k.us.isEmpty then ([], s)
  else if phase = 2 ∧ o.reduces then
    let w := (k.us.map (smGet [] c.work)).flatten
    let bs := if o.wide then packBits 32 w else packBits (elemBits o.fmt) (w.map (narrow o))
    (if zeroing s c.cmd then List.replicate bs.length 0 else bs, s)
  else if phase = 1 ∨ (o.op = 0x51 ∧ ownRank s x = o.root) then collRead s c.cmd 0 k.us k.us
  else collRead s c.cmd 1 k.us k.us

/-- RCRC of a chunk: of the data as it was read from the source or left the reduction; what is forwarded from the result keeps the
CRC of the bytes produced or received, whatever is read from memory now. Zeros sent in place of poisoned data have their own (R363, R365). -/
def chunkCrc (s : State) (o : CollOp) (x : GroupSt) (c : CollCtx) (phase : Nat) (k : Chunk) (bs : List Byte) : Nat :=
  if (s.cmd c.cmd).cut.isSome || phase = 1 || (phase = 2 && o.reduces) || (o.op = 0x51 && ownRank s x = o.root) then (crc32c bs).toNat
  else (crc32c (k.us.map (smGet [] c.fin)).flatten).toNat

/-- The next chunk of a stream, when credit covers it and its data is final. -/
def nextChunk (s : State) (c : CollCtx) (phase edge : Nat) : Option Chunk :=
  let o := c.op s
  let x := s.group c.gid
  let n := smGet 0 c.sent (streamKey phase edge)
  if n < smGet 0 c.credit (streamKey phase edge) then
    ((chunksOut s o x phase edge)[n]?).filter (chunkReady s o x c phase edge)
  else none

/-- CHUNK_DATA_SEND to a peer: the first stream of the context that has one to send. -/
def doChunkDataSend (e : CollId) (ctx : Fin 4) (peer : DevNum) (s : State) : State :=
  let key := 4 * e.val + ctx.val
  match s.ctx key with
  | none => s
  | some c =>
    let x := s.group c.gid
    let streams := (phasesOf (c.op s) x).flatMap (fun p => ((edgesOf s x).filter (fun d => edgeDev s x d == some peer.val)).map (fun d => (p, d)))
    if c.abort.isSome || s.inFault then s
    else match streams.findSome? (fun t => (nextChunk s c t.1 t.2).map (fun k => (t, k))) with
      | none => s
      | some ((p, d), k) =>
        let (bs, s) := chunkData s (c.op s) x c p k
        let o : OutChunk := { stream := streamKey p d, ctype := 0, off := k.off, data := bs, aux := chunkCrc s (c.op s) x c p k bs,
                              poison := (s.cmd c.cmd).status != 0, tries := 0, stamp := s.coll.sends }
        let c := { c with sent := smMod 0 c.sent (streamKey p d) (· + 1), out := c.out ++ [o] }
        sendOut (s.setCtx key c) e c o

/-! ### Starting (R346, R359, R362, R366) -/

/-- LAST of a domain, and whether an ORD is 1 to 2,047 ahead of another. -/
def lastOrd (s : State) (d : Nat) : Nat := s.fld (pgCol 0) (COL_DOM_ORD_LAST.at (4 * (d - 1)))
def ordAhead (a b : Nat) : Bool := let n := (a + 4096 - b) % 4096; decide (1 ≤ n) && decide (n ≤ 2047)

/-- A collective ends as it starts, sending nothing. -/
def endAtStart (s : State) (key : Nat) (a : AbortSt) : State := (stopCtx s key a).modCtx key (fun c => { c with ended := true })

/-- This member's own contribution, or the part of its result that it holds itself. -/
def ownPart (s : State) (key : Nat) : State :=
  match s.ctx key with
  | none => s
  | some c =>
    let o := c.op s
    let x := s.group c.gid
    let r := x.localIdx s.ownIdx
    let blk := x.m * o.slice
    let own := segUnits (ownRank s x * o.slice, o.slice)
    if o.reduces then
      let us := segUnits (r * blk, blk)
      let (bs, s) := collRead s c.cmd 0 us us
      contributeAll s key (us.zip ((unitCodes (elemBits o.fmt) bs).map (fun u => u.map (widen o))))
    else if o.op = 0x52 ∨ o.op = 0x55 then
      let (bs, s) := collRead s c.cmd 0 (if o.op = 0x52 then segUnits (0, o.slice) else own) own
      writeUnits s key own own bs
    else s

/-- May the head of the engine's queue start. -/
def mayStart (s : State) (e : Nat) (o : CollOp) : Bool :=
  let x := s.group o.gid
  o.op != 0 && !s.inFault && (List.range 4).any (fun i => (s.ctx (4 * e + i)).isNone) && !s.coll.ctxs.any (fun y => y.2.gid == o.gid)
    && (x.odom == 0 || !s.coll.ctxs.any (fun y => (s.group y.2.gid).odom == x.odom))

/-- The order check at start: the collective's ORD is 1 to 2,047 ahead of LAST (R362). -/
def orderBreak (s : State) (x : GroupSt) (ord : Nat) : Bool := x.odom != 0 && !ordAhead ord (lastOrd s x.odom)

/-- LAST takes the ORD of a collective that starts in order. -/
def takeOrd (s : State) (x : GroupSt) (ord : Nat) : State :=
  if x.odom = 0 ∨ orderBreak s x ord then s else s.setFld (pgCol 0) (COL_DOM_ORD_LAST.at (4 * (x.odom - 1))) ord

/-- A finished collective is remembered by its engine. -/
def remember (s : State) (eng : Nat) (d : CollDone) : State :=
  { s with coll := { s.coll with memory := smSet [] s.coll.memory eng ((d :: smGet [] s.coll.memory eng).take 64) } }

/-- A void takes its s and decides cause 8 where it breaks the order, else cause 5, unless an abort of it is pending (R346, R359); the
abort that holds is recorded (R369). -/
def startVoid (s : State) (id g seq ord : Nat) : State :=
  let x := s.group g
  let s := { s.dropCmd id with coll := { s.coll with voids := smErase s.coll.voids id } }
  let old := if orderBreak s x ord then none else pendingOf s g seq
  let own : AbortSt := ⟨if orderBreak s x ord then 8 else 5, s.ownDev, true⟩
  let s := remember (dropPending (takeOrd s x ord) g seq) x.engine ⟨g, seq, ord, [], true, []⟩
  match old with
  | some p => errOcc s (pgCol x.engine) (abortSource p.abort) 0
  | none => tellAbort (errOcc s (pgCol x.engine) (abortSource own) 0) g seq ord own

/-- The checks at start in the order of R346, then the first phase. -/
def beginColl (s : State) (key : Nat) (c : CollCtx) : State :=
  let x := s.group c.gid
  if orderBreak s x c.ord then (decide_ (dropPending s c.gid c.seq) key 8).modCtx key (fun c => { c with ended := true })
  else
    let s := takeOrd s x c.ord
    match pendingOf s c.gid c.seq with
    | some p => endAtStart (dropPending s c.gid c.seq) key p.abort
    | none =>
      -- decided and recorded, with nothing sent (R366)
      if groupFenced s x then endAtStart (noteAbort s c.gid c.seq ⟨7, s.ownDev, true⟩) key ⟨7, s.ownDev, true⟩
      else openPhases (ownPart s key) key (phasesOf (c.op s) x)

/-- COLL_START. A collective of a withdrawn group starts no more. -/
def doCollStart (e : CollId) (s : State) : State :=
  match smGet [] s.net.coll e.val with
  | [] => s
  | id :: rest =>
    let o := collOp (s.cmd id).desc
    if !mayStart s e o || (s.cmd id).ran then s
    else
      let s := (setQueue s 0 5 e rest).bump (pgCol e) 0
      let x := s.group o.gid
      let s := if x.valid then s.setGroup o.gid { x with seq := (x.seq + 1) % 2 ^ 32 } else s
      if smHas s.coll.voids id then startVoid s id o.gid x.seq o.ord
      else
        let key := 4 * e.val + freeNumber 4 (fun i => (s.ctx (4 * e.val + i)).isSome)
        let c : CollCtx :=
          { cmd := id, gid := o.gid, seq := x.seq, ord := o.ord, cfg := s.reg (pgCol 0) 0x200, work := [], cnt := [],
            fin := [], sent := [], credit := [], rcvd := [], granted := [], opened := [], out := [], abort := none, ended := false }
        beginColl (s.setCtx key c) key c

/-! ### Receiving chunks (R352 to R354, R362, R363) -/

def chunkGid (p : Packet) : Nat := natBits p.addr 7 0
def chunkType (p : Packet) : Nat := natBits p.addr 11 8
def chunkOrd (p : Packet) : Nat := natBits p.addr 23 12
def chunkPhase (p : Packet) : Nat := natBits p.addr 27 24
def chunkOff (p : Packet) : Nat := natBits p.addr 63 32

/-- A chunk taken from the buffers with the edge it came on: one of an invalid group, of a non-member or of a reserved type
is discarded (COL source 6). -/
def takeChunk (s : State) (want : Nat → Bool) : Option (Packet × Nat × Nat × State) :=
  match takeRx s (fun r => r.pkt.kind == 0x30 && want (chunkType r.pkt)) with
  | none => none
  | some (r, s) =>
    let x := s.group (chunkGid r.pkt)
    match if x.valid ∧ chunkType r.pkt ≤ 4 then edgeOfLink s x r.link else none with
    | none => some (r.pkt, 64, r.link, errOcc s (pgCol (if x.valid then x.engine else 0)) 6 0)
    | some e => some (r.pkt, e, r.link, s.bump (pgCol x.engine) 4)

/-- A CACK or HOLD on the link a chunk came on. -/
def answer (s : State) (p : Packet) (l ctype off aux : Nat) (bs : List Byte) : State :=
  chunkOver s (s.group (chunkGid p)).engine l (chunkGid p) p.seq (chunkOrd p) (chunkPhase p) ctype off aux bs false false

/-- The CACK of a DATA stream: lowest unit not received, and the full chunks beyond it. -/
def dataAck (s : State) (p : Packet) (l : Nat) (c : CollCtx) (edge : Nat) : State :=
  let ks := chunksIn s (c.op s) (s.group c.gid) (chunkPhase p) edge
  let got := smGet [] c.rcvd (streamKey (chunkPhase p) edge)
  let low := match ks.find? (fun k => !got.contains k.off) with
    | some k => k.off
    | none => ((ks.map (fun k => k.off + max 1 k.n)).foldl max 0)
  let map := ((List.range 64).map (fun i => if got.contains (low + 64 * (i + 1)) then 2 ^ i else 0)).sum
  answer s p l 2 low 0 (leBytes 8 map)

/-- The order checks of R362 on a chunk: a running collective's ORD differs (cause 9), or a collective not started lies behind
LAST (cause 10). -/
def orderCheck (s : State) (p : Packet) : State :=
  let g := chunkGid p
  let x := s.group g
  match ctxOf s g p.seq with
  | some (key, c) => if c.ord ≠ chunkOrd p then decide_ s key 9 else s
  | none =>
    if x.odom ≠ 0 ∧ p.seq = x.seq ∧ chunkType p ≤ 1 ∧ ordAhead (lastOrd s x.odom) (chunkOrd p) then
      let s := if s.coll.pending.any (fun y => y.gid == g && y.seq == p.seq) then s
        else learnAbort s g p.seq (chunkOrd p) ⟨10, s.ownDev, true⟩
      (s.coll.ctxs.filter (fun e => (s.group e.2.gid).odom == x.odom)).foldl (fun s e => decide_ s e.1 10) s
    else s

/-- The finished collective of a chunk, as its group's engine remembers it (R360). -/
def doneOf (s : State) (p : Packet) : Option CollDone :=
  (smGet [] s.coll.memory (s.group (chunkGid p)).engine).find? (fun d => d.gid == chunkGid p && d.seq == p.seq)

/-- Does this member hold an abort of a chunk's collective, so that it sends nothing more for it (R359). -/
def abortHeld (s : State) (p : Packet) : Bool :=
  (match ctxOf s (chunkGid p) p.seq with | some (_, c) => c.abort.isSome | none => false)
    || (match doneOf s p with | some d => d.held | none => false)
    || (pendingOf s (chunkGid p) p.seq).isSome

/-- The CACK of a DATA chunk of a collective that has finished: where its stream ends, as far as the engine remembers it (log entry 113). -/
def doneAck (s : State) (p : Packet) (l edge : Nat) : State :=
  let own := chunkOff p + max 1 (p.payload.length / 64)
  match doneOf s p with
  | some d => answer s p l 2 (smGet own d.ends (streamKey (chunkPhase p) edge)) 0 (leBytes 8 0)
  | none => answer s p l 2 own 0 (leBytes 8 0)

/-- What a DATA chunk's bytes do. -/
def useData (s : State) (key : Nat) (c : CollCtx) (phase : Nat) (k : Chunk) (bs : List Byte) : State :=
  let o := c.op s
  if k.us.isEmpty then s
  else if o.reduces && decide (phase ≤ 2) then
    let us := if phase = 2 && o.wide then
        pieces (bs.length + 1) (512 / elemBits o.fmt) (unpackBits 32 (bs.length / 4) bs)
      else (unitCodes (elemBits o.fmt) bs).map (fun u => u.map (widen o))
    contributeAll s key (k.us.zip us)
  else writeUnits s key k.us k.us bs

/-- A poisoned chunk's effect on the command: POISONED_INPUT, and without POISON_PASS zeros from its data on (R365). -/
def poisonIn (s : State) (id : Nat) (k : Chunk) : State :=
  let s := s.modCmd id (fun y => y.failWith 1 0 none)
  if ctlPoisonPass (s.cmd id).desc then s else match k.us with
    | u :: _ => cutFrom s id (64 * u)
    | [] => s

/-- A new DATA chunk of a running collective is consumed. -/
def consumeData (s : State) (key edge l : Nat) (c : CollCtx) (p : Packet) (k : Chunk) : State :=
  let eng := key / 4
  let (inj1, s) := takeCrcInjection s (pgCol eng) 2
  let (inj2, s) := takeCrcInjection s (pgCol eng) 3
  if inj1 || (crc32c p.payload).toNat != p.aux then decide_ s key 1
  else if inj2 then decide_ s key 2
  else
    let stream := streamKey (chunkPhase p) edge
    let c := { c with rcvd := smSet [] c.rcvd stream (smGet [] c.rcvd stream ++ [k.off]) }
    let s := s.setCtx key c
    let s := if p.poison then poisonIn s c.cmd k else s
    let s := useData s key c (chunkPhase p) k p.payload
    let s := dataAck s p l c edge
    let s := if smGet 0 c.granted stream < (smGet [] c.rcvd stream).length + bits c.cfg 15 8 / 2 then grantStream s key stream else s
    openPhases s key (phasesOf (c.op s) (s.group c.gid))

def doChunkDataReceive (s : State) : State :=
  match takeChunk s (fun t => t == 0 || decide (5 ≤ t)) with
  | none => s
  | some (p, edge, l, s) =>
    if edge = 64 then s
    else
      let s := orderCheck s p
      if abortHeld s p then s
      else match ctxOf s (chunkGid p) p.seq with
      | none => if seqBefore p.seq (s.group (chunkGid p)).seq then doneAck s p l edge else s
      | some (key, c) =>
          match (chunksIn s (c.op s) (s.group c.gid) (chunkPhase p) edge).find? (fun k => k.off == chunkOff p) with
          | none => s
          | some k =>
            if 64 * k.n ≠ p.payload.length then s
            else if (smGet [] c.rcvd (streamKey (chunkPhase p) edge)).contains k.off then dataAck s p l c edge
            else consumeData s key edge l c p k

/-- CHUNK_GRANT_RECEIVE: credit, or HOLD for a collective not started (R354); nothing for one whose abort is held (R359). -/
def doChunkGrantReceive (s : State) : State :=
  match takeChunk s (· == 1) with
  | none => s
  | some (p, edge, l, s) =>
    if edge = 64 then s
    else
      let s := orderCheck s p
      if abortHeld s p then s
      else match ctxOf s (chunkGid p) p.seq with
      | some (key, _) =>
        let stream := streamKey (chunkPhase p) edge
        answer (s.modCtx key (fun c => { c with credit := smSet 0 c.credit stream (max (smGet 0 c.credit stream) p.aux) })) p l 2 0 1 (leBytes 8 0)
      | none => if seqBefore p.seq (s.group (chunkGid p)).seq then answer s p l 2 0 1 (leBytes 8 0) else answer s p l 3 0 0 []

/-- Does a CACK cover a DATA chunk. -/
def cackCovers (p : Packet) (off : Nat) : Bool :=
  decide (off < chunkOff p)
    || (decide (chunkOff p + 64 ≤ off) && (off - chunkOff p) % 64 == 0 && (leAt p.payload 0 8).testBit ((off - chunkOff p) / 64 - 1))

def doChunkCackReceive (s : State) : State :=
  match takeChunk s (· == 2) with
  | none => s
  | some (p, edge, l, s) =>
    if edge = 64 then s
    else
      let s := orderCheck s p
      if p.aux % 16 = 4 then
      { s with coll := { s.coll with aborts := s.coll.aborts.filter (fun a => !(a.gid == chunkGid p && a.seq == p.seq && a.link == l)) } }
      else match ctxOf s (chunkGid p) p.seq with
      | none => s
      | some (key, _) =>
        let stream := streamKey (chunkPhase p) edge
        s.modCtx key (fun c => { c with out := c.out.filter (fun o =>
          !(o.stream == stream && o.ctype == p.aux % 16 && (o.ctype == 1 || cackCovers p o.off))) })

/-- A HOLD: resends of the GRANT do not count while they keep arriving. -/
def doChunkHoldReceive (s : State) : State :=
  match takeChunk s (· == 3) with
  | none => s
  | some (p, edge, _, s) =>
    if edge = 64 then s
    else
      let s := orderCheck s p
      match ctxOf s (chunkGid p) p.seq with
      | none => s
      | some (key, _) =>
        s.modCtx key (fun c => { c with out := c.out.map (fun o =>
          if o.ctype == 1 && o.stream == streamKey (chunkPhase p) edge then { o with tries := 0 } else o) })

def doChunkAbortReceive (s : State) : State :=
  match takeChunk s (· == 4) with
  | none => s
  | some (p, edge, l, s) =>
    if edge = 64 then s
    else learnAbort (orderCheck (answer s p l 2 0 4 (leBytes 8 0)) p) (chunkGid p) p.seq (chunkOrd p) ⟨p.aux % 16, natBits p.aux 17 4, false⟩

/-! ### Timers -/

/-- The unacknowledged ABORT of the engine to a peer that was sent longest ago. -/
def abortDue (s : State) (e peer : Nat) (a : AbortOut) : Bool := a.eng == e && linkPeer s a.link == some peer

/-- It is sent again. -/
def resendAbort (s : State) (e peer : Nat) : State :=
  match s.coll.aborts.find? (abortDue s e peer) with
  | none => s
  | some a =>
    let s := { s with coll := { s.coll with aborts := dropFirst (abortDue s e peer) s.coll.aborts ++ [{ a with stamp := s.coll.sends }] } }
    chunkOver s.countSends e a.link a.gid a.seq a.ord 1 4 0 (a.cause + 16 * a.origin) [] false true

/-- The unacknowledged DATA or GRANT chunk of a context to a peer that was sent longest ago. -/
def chunkDue (s : State) (c : CollCtx) (peer : Nat) (o : OutChunk) : Bool :=
  edgeDev s (s.group c.gid) (o.stream % 64) == some peer

/-- Was the engine's oldest ABORT to the peer last sent before a chunk. -/
def abortFirst (s : State) (e peer : Nat) (o : OutChunk) : Bool :=
  match s.coll.aborts.find? (abortDue s e peer) with
  | some a => decide (a.stamp < o.stamp)
  | none => false

/-- Does a resend of a context's chunk leave: over a link that is up, and not for a fenced device. -/
def outLeaves (s : State) (c : CollCtx) (o : OutChunk) : Bool :=
  match edgeLink s (s.group c.gid) (o.stream % 64) o.off o.tries with
  | some l => chunkMay s l
  | none => false

/-- A context's chunk is sent again; after CRETRY resends of it, each of which left, the collective aborts with cause 4 (R354). -/
def resendChunk (s : State) (key : Nat) (c : CollCtx) (peer : Nat) (o : OutChunk) : State :=
  if bits c.cfg 3 0 ≤ o.tries then decide_ s key 4
  else
    let again := { o with tries := o.tries + 1, stamp := s.coll.sends }
    let go := outLeaves s c again
    let c := { c with out := dropFirst (chunkDue s c peer) c.out ++ [if go then again else { o with stamp := s.coll.sends }] }
    let s := s.setCtx key c
    if go then sendOut s (key / 4) c again else s.countSends

/-- CHUNK_RESEND: the unacknowledged chunk to the peer that was sent longest ago, of the context or of the engine's ABORTs (R354, R357). -/
def doChunkResend (e : CollId) (ctx : Fin 4) (peer : DevNum) (s : State) : State :=
  let key := 4 * e.val + ctx.val
  if s.inFault then s
  else match s.ctx key with
  | none => resendAbort s e peer
  | some c =>
    match c.out.find? (chunkDue s c peer) with
    | none => resendAbort s e peer
    | some o => if abortFirst s e peer o then resendAbort s e peer else resendChunk s key c peer o

/-- COLL_NO_PROGRESS for WAIT_MS. -/
def doCollNoProgress (e : CollId) (ctx : Fin 4) (s : State) : State :=
  match s.ctx (4 * e.val + ctx.val) with
  | none => s
  | some c => if bits c.cfg 31 24 = 0 then s else decide_ s (4 * e.val + ctx.val) 3

/-- ABORT_RESULT_POISON: every result byte written is marked, and the descriptor may complete (R359). -/
def doAbortResultPoison (e : CollId) (ctx : Fin 4) (s : State) : State :=
  let key := 4 * e.val + ctx.val
  match s.ctx key with
  | none => s
  | some c =>
    if c.abort.isSome && !c.ended then
      (poisonRuns ((s.cmd c.cmd).outs.map (fun r => (some r.1, r.2))) s).setCtx key { c with ended := true }
    else s

/-- LATE_WINDOW_EXPIRY: the oldest remembered collective is forgotten. -/
def doLateWindowExpiry (e : CollId) (s : State) : State :=
  { s with coll := { s.coll with memory := smMod [] s.coll.memory e.val List.dropLast } }

/-! ### Completion (R347) -/

/-- Have the ring tokens of all other positions arrived, each over either direction, and has every token that arrived been forwarded (R349). -/
def tokensDone (s : State) (o : CollOp) (x : GroupSt) (c : CollCtx) : Bool :=
  let got (e : Nat) : List Nat := smGet [] c.rcvd (streamKey 2 e)
  (List.range (x.m - 1)).all (fun i => (got 33).contains i || (got 32).contains (x.m - 2 - i))
    && [32, 33].all (fun e => ((chunksOut s o x 2 e).drop (smGet 0 c.sent (streamKey 2 e))).all (fun k => !chunkReady s o x c 2 e k))

/-- Has a phase ended: all that it brings has arrived, and all that it owes is sent. -/
def phaseDone (s : State) (o : CollOp) (x : GroupSt) (c : CollCtx) (p : Nat) : Bool :=
  if o.op = 0x50 ∧ p = 2 then tokensDone s o x c
  else phaseIn s o x c p && (edgesOf s x).all (fun d => smGet 0 c.sent (streamKey p d) == (chunksOut s o x p d).length)

/-- Has the collective done all it owes: its phases have ended, its DATA is acknowledged and its result is in memory (R347). -/
def collDone (s : State) (c : CollCtx) : Bool :=
  let o := c.op s
  let x := s.group c.gid
  (phasesOf o x).all (phaseDone s o x c) && c.out.all (·.ctype != 0) && writesDone s c.cmd

/-- Where each stream that a collective receives ends. -/
def streamEnds (s : State) (c : CollCtx) : SMap Nat :=
  let o := c.op s
  let x := s.group c.gid
  ((phasesOf o x).flatMap (fun p => (edgesOf s x).map (fun d => (p, d)))).foldl (fun m t =>
    smSet 0 m (streamKey t.1 t.2) (((chunksIn s o x t.1 t.2).map (fun k => k.off + max 1 k.n)).foldl max 0)) []

/-- A withdrawn collective that had not started completes its descriptor (R341). -/
def completeGone (s : State) (e ahead : Nat) : State :=
  let q := smGet [] s.net.coll e
  match q.find? (fun id => (s.cmd id).ran) with
  | none => s
  | some id => finishCmd ((setQueue s 0 5 e (q.filter (· != id))).bump (pgCol e) 2) id ahead

/-- Has a context ended, with all it wrote in memory. -/
def ctxDone (s : State) (key : Nat) : Bool :=
  match s.ctx key with
  | some c => if c.ended then writesDone s c.cmd else c.abort.isNone && collDone s c
  | none => false

/-- A finished collective of the engine completes its descriptor and is remembered. -/
def completeColl (s : State) (e ahead : Nat) : State :=
  match (List.range 4).find? (fun i => ctxDone s (4 * e + i)) with
  | none => completeGone s e ahead
  | some i =>
    match s.ctx (4 * e + i) with
    | none => s
    | some c =>
      let x := s.cmd c.cmd
      let d : CollDone := ⟨c.gid, c.seq, c.ord, x.outs, c.abort.isSome, streamEnds s c⟩
      let s := if c.abort.isSome then s.bump (pgCol e) 2 else if x.status = 0 && (sigFence s x.desc).isNone then s.bump (pgCol e) 1 else s
      let s := remember { s with coll := { s.coll with ctxs := smErase s.coll.ctxs (4 * e + i) } } e d
      finishCmd s c.cmd ahead

/-! ### Meanings -/

/-- GROUP_VALIDATE. -/
def execGroupValidate (g : GroupId) (s : State) : Res := .next (powered (doGroupValidate g) s)

/-- CBARRIER. -/
def execCbarrier (c : CoreId) (s : State) : Res := .next (powered (doCbarrier c) s)

/-- CBCAST. -/
def execCbcast (c : CoreId) (s : State) : Res := .next (powered (doCbcast c) s)

/-- CALLGATHER. -/
def execCallgather (c : CoreId) (s : State) : Res := .next (powered (doCallgather c) s)

/-- CREDSCAT. -/
def execCredscat (c : CoreId) (s : State) : Res := .next (powered (doCredscat c) s)

/-- CALLRED. -/
def execCallred (c : CoreId) (s : State) : Res := .next (powered (doCallred c) s)

/-- CALLTOALL. -/
def execCalltoall (c : CoreId) (s : State) : Res := .next (powered (doCalltoall c) s)

/-- GROUP_WITHDRAW. -/
def execGroupWithdraw (g : GroupId) (s : State) : Res := .next (powered (doGroupWithdraw g) s)

/-- CHUNK_DATA_SEND. -/
def execChunkDataSend (e : CollId) (ctx : Fin 4) (peer : DevNum) (s : State) : Res := .next (powered (doChunkDataSend e ctx peer) s)

/-- COLL_START. -/
def execCollStart (e : CollId) (s : State) : Res := .next (powered (doCollStart e) s)

/-- CHUNK_DATA_RECEIVE. -/
def execChunkDataReceive (s : State) : Res := .next (powered doChunkDataReceive s)

/-- CHUNK_GRANT_RECEIVE. -/
def execChunkGrantReceive (s : State) : Res := .next (powered doChunkGrantReceive s)

/-- CHUNK_CACK_RECEIVE. -/
def execChunkCackReceive (s : State) : Res := .next (powered doChunkCackReceive s)

/-- CHUNK_HOLD_RECEIVE. -/
def execChunkHoldReceive (s : State) : Res := .next (powered doChunkHoldReceive s)

/-- CHUNK_ABORT_RECEIVE. -/
def execChunkAbortReceive (s : State) : Res := .next (powered doChunkAbortReceive s)

/-- CHUNK_RESEND. -/
def execChunkResend (e : CollId) (ctx : Fin 4) (peer : DevNum) (s : State) : Res := .next (powered (doChunkResend e ctx peer) s)

/-- COLL_NO_PROGRESS. -/
def execCollNoProgress (e : CollId) (ctx : Fin 4) (s : State) : Res := .next (powered (doCollNoProgress e ctx) s)

/-- ABORT_RESULT_POISON. -/
def execAbortResultPoison (e : CollId) (ctx : Fin 4) (s : State) : Res := .next (powered (doAbortResultPoison e ctx) s)

/-- LATE_WINDOW_EXPIRY. -/
def execLateWindowExpiry (e : CollId) (s : State) : Res := .next (powered (doLateWindowExpiry e) s)

end Sys2Proof.Machine
end

