-- ==== Sys2Proof/Machine/Complete.lean ====
section
/-!
DEFINITION. The completion of a descriptor at its engine (R36, R116, R139), one command for all classes, and of an inbound write (R48).
-/

namespace Sys2Proof.Machine

/-- Has an array command drained every column it owes. -/
def drainsDone (x : Cmd) : Bool :=
  let m := matOf x.desc x.pats
  !m.drain || (x.drained == m.n && (m.arrays.length == 1 || x.drainedOdd == m.n))

/-- Is a command at the head of every queue it entered. -/
def atHeads (s : State) (id : Nat) : Bool :=
  let x := s.cmd id
  (unitsOf x.desc).all (fun u => (queueOf s x.core u.1 u.2).head? == some id)

/-- The command leaves its queues. -/
def leaveQueues (s : State) (id : Nat) : State :=
  let x := s.cmd id
  (unitsOf x.desc).foldl (fun s u => setQueue s x.core u.1 u.2 ((queueOf s x.core u.1 u.2).filter (· != id))) s

/-- A finished command leaves its queues and completes. -/
def complete (s : State) (id ahead : Nat) : State := finishCmd (leaveQueues s id) id ahead

/-- Is an array's command finished: its last column is resident (R45, R116). -/
def arrayFinished (s : State) (id : Nat) : Bool :=
  let x := s.cmd id
  if descOpcode x.desc = 0 then atHeads s id else x.ran && drainsDone x && writesDone s id

/-- The first finished command of an array completes, counted once for a pair (R55); a bank whose command completes with another
status than OK, a fenced signal's included, loses its kind (R87). -/
def completeArray (s : State) (c a ahead : Nat) : State :=
  match ((s.core c).arr a).queue.find? (arrayFinished s) with
  | none => s
  | some id =>
    let x := s.cmd id
    let m := matOf x.desc x.pats
    let s := if descOpcode x.desc = 0x10 then
        let s := if x.status = 0 && (sigFence s x.desc).isNone then s
          else m.arrays.foldl (fun s a => s.setBank c a m.bank { s.bank c a m.bank with kind := 0 }) s
        s.bump (pgArr c) 7
      else s
    complete s id ahead

/-- The head of an engine queue completes when it has run, its packets are settled and its writes are in memory. -/
def completeHead (s : State) (c cls inst ahead : Nat) : State :=
  match queueOf s c cls inst with
  | [] => s
  | id :: _ =>
    let x := s.cmd id
    if descOpcode x.desc = 0 || (x.ran && x.left == 0 && writesDone s id) then complete s id ahead else s

/-- After a completion the next command of a core engine starts. -/
def startNext (s : State) (c cls inst : Nat) : State :=
  match cls with
  | 1 => startVec s c
  | 2 => startDma s c inst
  | 3 => startSkm s c
  | _ => s

/-- A NOP at the head of a COLL queue waits for the collectives that started before it. -/
def completeCollNop (s : State) (e ahead : Nat) : State :=
  match smGet [] s.net.coll e with
  | [] => completeColl s e ahead
  | id :: _ =>
    if descOpcode (s.cmd id).desc = 0 ∧ (List.range 4).all (fun i => (s.ctx (4 * e + i)).isNone) then complete s id ahead
    else completeColl s e ahead

/-- A malformed entry that the graver would issue completes with FORMAT_ERR (R114, R547). -/
def completeBad (s : State) (c ahead : Nat) : State :=
  match candidate s c with
  | none => s
  | some e =>
    match e.bad with
    | none => s
    | some detail =>
      match brkCause s c e with
      | some k => brkHit s c e k (brkRings s c e.ring)
      | none =>
        let s := finishEntry (s.bump (pgGrv c) 0) c e 8 detail none ahead
        stepHalt (pushVoid s c e) c e

/-- A CTL command that has acted completes, else a malformed entry. -/
def completeCtl (s : State) (c ahead : Nat) : State :=
  match (s.core c).ctl.find? (fun id => (s.cmd id).ran && (s.cmd id).left == 0) with
  | some id => complete s id ahead
  | none => completeBad s c ahead

/-- DESCRIPTOR_COMPLETE for an engine class and instance; class 0 names an array, class 7 the CTL opcodes and malformed
descriptors. `ahead` flag increments reached the flag store earlier in the cycle (R61). -/
def doDescriptorComplete (c : CoreId) (cls : Fin 8) (inst : Fin 32) (ahead : Nat) (s : State) : State :=
  if !s.running then s
  else if cls = 0 then completeArray s c (inst.val % 4) ahead
  else if cls = 7 then completeCtl s c ahead
  else if cls = 5 then completeCollNop s inst ahead
  else startNext (completeHead s c cls.val inst.val ahead) c cls.val inst.val

/-! ### Writes in flight -/

/-- The write that waits first at the mesh port enters the tracker when an entry is free: its bytes reach memory (R49). -/
def admitWrite (s : State) (c : Nat) : State :=
  match (s.core c).inbound[trackerCap - 1]? with
  | none => s
  | some r =>
    putParts r.parts r.pois (s.modCore c (fun x => { x with inbound := x.inbound.set (trackerCap - 1) { r with parts := [] } }))

/-- An inbound write's last byte is committed: the write of a completed fetch first, else the oldest other write; its tracker
range frees (R48, R49, R57). With the last write that a packet waits for the packet is committed (R294, R302). -/
def doInboundWriteCommit (c : CoreId) (s : State) : State :=
  let l := (s.core c).inbound
  let held := l.take trackerCap
  let rest := if held.any (·.done) then dropFirst (·.done) held else dropFirst (fun r => !r.fetched) held
  let gone := if held.any (·.done) then held.find? (·.done) else held.find? (fun r => !r.fetched)
  match gone with
  | none => s
  | some r =>
    let s := admitWrite (s.modCore c (fun x => { x with inbound := rest ++ l.drop trackerCap })) c
    match r.ack with
    | some a => if ackWaits s a then s else commitAck s a
    | none => s

/-! ### Meanings -/

/-- INBOUND_WRITE_COMMIT. -/
def execInboundWriteCommit (c : CoreId) (s : State) : Res := .next (powered (doInboundWriteCommit c) s)

/-- DESCRIPTOR_COMPLETE. -/
def execDescriptorComplete (c : CoreId) (cls : Fin 8) (inst : Fin 32) (ahead : Nat) (s : State) : Res := .next (powered (doDescriptorComplete c cls inst ahead) s)

end Sys2Proof.Machine
end

