-- ==== Sys2Proof/Machine/Membership.lean ====
section
/-!
DEFINITION. Membership: bundles (R373 to R375), commands (R376 to R378, R383, R393), their
spreading (R379 to R382), fencing and joining (R384 to R386), circuits (R389, R390) and the health score (R391, R392).
-/

namespace Sys2Proof.Machine

/-! ### Bundles (R373, R375) -/

/-- The answer to MEMBER: `ses` is the session plus one, 0 for a bundle from a peer (R480, R489). -/
def memberAnswer (s : State) (ses status : Nat) : State :=
  match ses with
  | 0 => s
  | k + 1 => respond s k 0x42 0 (leBytes 4 status ++ leBytes 4 (s.fld pgMbr MBR_MEPOCH))

def bundleLen (b : List Byte) : Nat := leAt b 0 4
def bundleBody (b : List Byte) : List Byte := (b.drop 8).take (bundleLen b)

/-- Tokens of a bundle, none when their lengths do not fill it exactly. -/
def tokensOf : Nat → List Byte → Option (List (List Byte))
  | 0, b => if b.isEmpty then some [] else none
  | n + 1, b =>
    let l := leAt b 0 4
    if b.length < 4 + l then none else (tokensOf n (b.drop (4 + l))).map (fun t => (b.drop 4).take l :: t)

def bundleTokens (b : List Byte) : Option (List (List Byte)) := tokensOf (leAt b 4 1) (b.drop (8 + bundleLen b))

def bodyKind (b : List Byte) : Nat := leAt b 2 1
def bodyOverride (b : List Byte) : Bool := (leAt b 3 1).testBit 0
def bodyEpoch (b : List Byte) : Nat := leAt b 4 4
def bodyIssue (b : List Byte) : Nat × Nat := (leAt b 8 6, leAt b 16 4)
def bodyEffect (b : List Byte) : Nat × Nat := (leAt b 20 6, leAt b 28 4)
def bodyCount (b : List Byte) : Nat := leAt b 32 2

/-- An entry of a CHANGE: number, ACT and ID_HASH. -/
def bodyEntry (b : List Byte) (e : Nat) : Nat × Nat × List Byte :=
  (leAt b (64 + 40 * e) 2, leAt b (66 + 40 * e) 1, (b.drop (72 + 40 * e)).take 32)

def allZero (b : List Byte) (off n : Nat) : Bool := leAt b off n == 0

/-- Is a body well formed (R373, R374). -/
def bodyOk (b : List Byte) : Bool :=
  let k := bodyKind b
  let n := bodyCount b
  leAt b 0 1 == 0xC5 && leAt b 1 1 == 1 && decide (1 ≤ k) && decide (k ≤ 3) && decide (leAt b 3 1 < 2)
    && allZero b 14 2 && allZero b 26 2 && allZero b 38 2 && allZero b 50 14
    && decide (leAt b 16 4 < 1000000000) && decide (leAt b 28 4 < 1000000000)
    && (if k = 1 then
          decide (1 ≤ n) && decide (n ≤ 64) && b.length == 64 + 40 * n && allZero b 34 4
            && (List.range n).all (fun e =>
              let x := bodyEntry b e
              decide (x.1 < 16384) && decide (1 ≤ x.2.1) && decide (x.2.1 ≤ 6) && allZero b (67 + 40 * e) 5 && (x.2.1 == 1 || leNat x.2.2 == 0))
        else n == 0 && leAt b 34 2 != 0 && leAt b 36 2 != 0)
    && (if k = 3 then b.length == 8256 && (List.range 8192).all (fun i => decide (leAt b (64 + i) 1 % 16 ≤ 4) && decide (leAt b (64 + i) 1 / 16 ≤ 4))
        else allZero b 40 10 && (k == 1 || b.length == 64))

/-- Is a bundle well formed (R375). -/
def bundleOk (b : List Byte) : Bool := decide (8 ≤ b.length) && allZero b 5 3 && (bundleTokens b).isSome && bodyOk (bundleBody b)

/-! ### Vote tokens (R506, R508) -/

def trustN (t : List Byte) : Nat := leAt t 2 1
def trustK (t : List Byte) : Nat := leAt t 3 1
def trustKey (t : List Byte) (m : Nat) : List Byte := (t.drop (16 + 1952 * m)).take 1952

def tokenOk (trust body tok : List Byte) : Bool :=
  let m := leAt tok 2 1
  tok.length == 3381 && leAt tok 0 1 == 0xE7 && leAt tok 1 1 == 1 && decide (m < trustN trust) && leAt tok 3 1 == 0
    && (tok.drop 4).take 4 == (trust.drop 4).take 4 && (tok.drop 8).take 64 == leBytes 64 (Config.shake 64 body)
    && Config.mldsaVerify (trustKey trust m) (tok.take 72) (strBytes "MAELNY-G1-VOTE") (tok.drop 72)

/-- Managers with a valid token. -/
def votes (trust : List Byte) (b : List Byte) : List Nat :=
  ((((bundleTokens b).getD []).filter (tokenOk trust (bundleBody b))).map (fun t => leAt t 2 1)).eraseDups

def bundleVerified (trust : List Byte) (b : List Byte) : Bool :=
  decide ((if bodyOverride (bundleBody b) then trustN trust else trustK trust) ≤ (votes trust b).length)

/-! ### Outcomes of a bundle -/

def ownEpoch (s : State) : Nat := s.fld pgMbr MBR_MEPOCH
def viewValid (s : State) : Bool := s.flag pgMbr MBR_MSTAT_VIEW_VALID

/-- CMD_LAST and the answer to the host. -/
def bundleStatus (s : State) (b : List Byte) (ses status : Nat) : State :=
  let body := bundleBody b
  let s := s.setFlds pgMbr [(MBR_CMD_LAST_MEPOCH, bodyEpoch body % 65536), (MBR_CMD_LAST_KIND, bodyKind body), (MBR_CMD_LAST_STATUS, status)]
  memberAnswer s ses status

/-- Bundles held beyond MEPOCH + 1 (R382). -/
def beyond (s : State) : Nat :=
  countIf (fun y => bodyKind (bundleBody y.bytes) != 3 && y.mepoch != (ownEpoch s + 1) % 2 ^ 32) s.mbr.held

/-- A verified CHANGE or POLICY: consumed before, or kept for its turn (R376, R378, R382). -/
def holdBundle (s : State) (x : BundleIn) : State :=
  let body := bundleBody x.bytes
  let m := bodyEpoch body
  let ahead := (m + 2 ^ 32 - ownEpoch s) % 2 ^ 32
  let h : HeldBundle := ⟨m, x.bytes, x.session⟩
  if ahead = 0 ∨ 2 ^ 31 ≤ ahead then
    match s.mbr.kept.find? (fun y => y.mepoch == m) with
    | some y => if bundleBody y.bytes = body then memberAnswer s x.session 0 else bundleStatus (errOcc s pgMbr 3 0) x.bytes x.session 5
    | none => memberAnswer s x.session 3
  else if s.mbr.held.any (fun y => y.mepoch == m && bodyKind (bundleBody y.bytes) != 3) then memberAnswer s x.session 3
  else if 1 < ahead ∧ 64 ≤ beyond s then memberAnswer s x.session 3
  else { s with mbr := { s.mbr with held := insertBy (fun a b => seqBefore a.mepoch b.mepoch) h s.mbr.held } }

/-- BUNDLE_VERIFY. -/
def doBundleVerify (s : State) : State :=
  match s.mbr.inbox with
  | [] => s
  | x :: rest =>
    let s := { s with mbr := { s.mbr with inbox := rest } }
    if !bundleOk x.bytes then bundleStatus (errOcc s pgMbr 0 0) x.bytes x.session 6
    else
      let toks := (bundleTokens x.bytes).getD []
      let good := countIf (tokenOk s.sec.trust (bundleBody x.bytes)) toks
      let s := (s.bumpBy pgSec 0 good).bumpBy pgSec 1 (toks.length - good)
      if s.sec.trust.isEmpty || !bundleVerified s.sec.trust x.bytes then
        bundleStatus (errOcc (s.bump pgMbr 3) pgMbr 0 0) x.bytes x.session 2
      else if bodyKind (bundleBody x.bytes) = 3 then
        if x.session = 0 then s
        else { s with mbr := { s.mbr with held := s.mbr.held ++ [⟨bodyEpoch (bundleBody x.bytes), x.bytes, x.session⟩] } }
      else holdBundle s x

/-! ### Fencing (R384, R385, R299) -/

/-- Requests whose acknowledgement has come but whose answer has not fail as well. -/
def fenceTracker (s : State) (d detail : Nat) : State :=
  (s.cores.flatMap (fun e => (e.2.tracker.filter (fun t => t.2.pkt.dst == d)).map (fun t => (e.1, t.1, t.2.cmd)))).foldl (fun s x =>
    settle ((freeSlot s x.1 x.2.1).modCmd x.2.2 (fun y => y.failWith 6 detail none)) x.2.2) s

/-- Nothing more goes to a device. -/
def fenceDevice (s : State) (d detail : Nat) : State := fenceTracker (fencePeer s d detail) d detail

/-- SRT bits of a sheet member. -/
def clearSrt (s : State) (i : Nat) : State :=
  (List.range 512).foldl (fun s j => s.setReg pgFab (0x800 + 4 * j) (putBit (s.reg pgFab (0x800 + 4 * j)) i false)) s

def membershipEvent (s : State) (reason dev : Nat) : State :=
  queueEvent s (devEvent s 8 (reason + 2 ^ 16 * dev + 2 ^ 32 * ownEpoch s))

/-- The sheet lane pairs to a fenced member go DOWN, and its SRT bits clear (R372, R384). -/
def fenceLanes (s : State) (dev : Nat) : State :=
  if dev / 32 = s.ownDev / 32 ∧ s.flag pgMbr MBR_DEVNUM_VALID then
    let line := (32 + dev % 32 - s.ownIdx) % 32
    let s := (List.range 48).foldl (fun s p => if (s.lane (pairKey p line)).st = 0 then s else laneDown s p line true) s
    clearSrt s (dev % 32)
  else s

/-- Another device becomes FENCED. -/
def fenceOther (s : State) (dev : Nat) : State :=
  let s := fenceLanes (fenceDevice s dev 1) dev
  let s := ((List.range 16).filter (fun k => outerPeer s k == some dev)).foldl (fun s k =>
    (planeLanes s (48 + k)).foldl (fun s l => laneDown s (48 + k) l true) s) s
  let s := (s.net.trees.filter (fun e => e.2.valid)).foldl (fun s e => pumpTree (advanceTree s e.1) e.1) s
  membershipEvent (collFence s dev) 2 dev

/-- Packets of a tree this device originates fail. -/
def failTree (s : State) (t : Nat) : State :=
  let x := s.tree t
  let all := x.wait ++ (x.held ++ x.out).map (·.tx)
  all.foldl (fun s u => failOrigin s u 6 3 none) (s.setTree t { x with wait := [], held := [], out := [] })

/-- This device becomes FENCED. -/
def fenceSelf (s : State) : State :=
  let s := errOcc s pgMbr 6 0
  let s := s.lanes.foldl (fun s e => laneDown s (e.1 / 32) (e.1 % 32) e.2.held) s
  let s := ((s.net.tx.map (·.1) ++ s.net.pulls.map (·.dst)).eraseDups).foldl (fun s d => fenceDevice s d 3) s
  let s := (s.net.trees.filter (fun e => originates s e.2)).foldl (fun s e => failTree s e.1) s
  let s := s.coll.ctxs.foldl (fun s e => decide_ s e.1 7) s
  ((s.coll.groups.filter (fun e => e.2.valid)).map (·.1)).foldl (fun s g =>
    (queuedOf s g).foldl (fun s y => fenceOne s g y.1 y.2) s) s

/-! ### The view (R371, R374, R386) -/

def setView (s : State) (dev st : Nat) : State := { s with mbr := { s.mbr with view := smSet 0 s.mbr.view dev st } }

/-- Claims of remote devices that `p` picks end (R528). -/
def endClaims (s : State) (p : Nat → Bool) : State :=
  (List.range 21).foldl (fun s r =>
    if s.flag pgEas (EAS_CLAIM_HELD.at (4 * r)) && s.fld pgEas (EAS_CLAIM_KIND.at (4 * r)) == 4
        && p (s.fld pgEas (EAS_CLAIM_OWNER.at (4 * r))) then s.setFld pgEas (EAS_CLAIM_HELD.at (4 * r)) 0 else s) s

/-- MSTAT.STATE and MSTAT.PEND. -/
def showState (s : State) : State :=
  let st := if viewValid s && s.flag pgMbr MBR_DEVNUM_VALID then s.viewOf s.ownDev else 0
  s.setFlds pgMbr [(MBR_MSTAT_STATE, st), (MBR_MSTAT_PEND, if s.mbr.pend.isEmpty then 0 else 1)]

/-- The sequence of a destination starts at 0 (R293); packets not yet acknowledged wait to take new numbers. -/
def TxDst.restart (x : TxDst) : TxDst :=
  { TxDst.init with wait := (x.out ++ x.held).map (·.tx) ++ x.wait, pullSlots := x.pullSlots }

/-- The links and sequence states with a device that has joined start anew (R273, R293). -/
def startLinks (s : State) (dev : Nat) : State :=
  let s := (s.setTxDst dev (s.txDst dev).restart).setRxSrc dev RxSrc.init
  if dev / 32 = s.ownDev / 32 ∧ s.flag pgMbr MBR_DEVNUM_VALID then restartLink s (dev % 32) else s

/-- This device joins (R386); the pairs to members that its view holds FENCED go DOWN (R372). -/
def joinSelf (s : State) (dev : Nat) : State :=
  if dev % 32 = s.ownIdx then
    let s := s.setFlds pgMbr [(MBR_DEVNUM_VALID, 1), (MBR_DEVNUM_NUMBER, dev)]
    let s := (s.net.tx.map (·.1)).foldl (fun s d => s.setTxDst d (s.txDst d).restart) { s with net := { s.net with rx := [] } }
    let s := (List.range 32).foldl restartLink s
    ((List.range 32).filter (fun i => s.fenced (sheetDev s i))).foldl (fun s i => fenceLanes s (sheetDev s i)) s
  else membershipEvent (errOcc s pgMbr 1 0) 3 dev

/-- States an ACT leaves and brings. -/
def actFrom : Nat → List Nat
  | 1 => [0] | 2 => [1] | 3 => [2] | 4 => [3] | 5 => [1, 2, 3] | 6 => [1, 4] | _ => []
def actTo : Nat → Nat
  | 1 => 1 | 2 => 2 | 3 => 3 | 4 => 2 | 5 => 4 | _ => 0

/-- One entry takes effect. A device that is FENCED leaves that state by a VACATE over its host port alone (R385). -/
def applyEntry (s : State) (dev act : Nat) (idHash : List Byte) (host : Bool) : State :=
  let own := s.flag pgMbr MBR_DEVNUM_VALID && dev == s.ownDev
  if own && act == 6 && s.selfFenced && !host then s else
  let s := setView s dev (actTo act)
  let s := if actTo act = 4 ∨ actTo act = 0 then endClaims s (· == dev) else s
  match act with
  | 1 => if idHash = s.fuses.idHash then joinSelf s dev else startLinks s dev
  | 5 => if own then fenceSelf s else fenceOther s dev
  | 6 => if own then s.setFlds pgMbr [(MBR_DEVNUM_VALID, 0), (MBR_DEVNUM_NUMBER, 0x3FFF), (MBR_MSTAT_VIEW_VALID, 0)] else s
  | _ => s

/-- Are pending entries in order of their effect times. -/
def PendEntry.ns_ (e : PendEntry) : Nat := 1000000000 * e.sec + e.ns

/-- The planned state of a number: the current view with every pending entry applied. -/
def plannedState (s : State) (dev : Nat) : Nat :=
  (s.mbr.pend.filter (fun e => e.dev == dev)).foldl (fun _ e => e.toState) (s.viewOf dev)

/-! ### Spreading (R379 to R382) -/

/-- Fragments of a bundle. -/
def fragments (epoch : Nat) (b : List Byte) : List (List Byte) :=
  let ps := pieces (b.length + 1) 4080 b
  ps.mapIdx (fun i p => [0x10, 1, BitVec.ofNat 8 i, BitVec.ofNat 8 ps.length] ++ leBytes 4 epoch ++ leBytes 4 b.length ++ leBytes 4 0 ++ p)

/-- A bundle over one link. -/
def sendBundle (epoch : Nat) (b : List Byte) (s : State) (l : Nat) : State :=
  match linkPeer s l with
  | none => s
  | some d => (fragments epoch b).foldl (fun s f => sendOver (s.bump pgMbr 4) l (mkPkt 0x40 d s.ownDev 0 0 f)) s

/-- Sheet members to forward to: in service or LOADING, with an ACTIVE sheet link. -/
def spreadTo (s : State) : List Nat :=
  (List.range 32).filter (fun i => sheetUp s i && decide (1 ≤ s.viewOf (sheetDev s i)) && decide (s.viewOf (sheetDev s i) ≤ 3))

def forwardBundle (s : State) (epoch : Nat) (b : List Byte) : State :=
  let outer := ((List.range 16).filter (fun k => (outerPeer s k).isSome && linkUp s (32 + k))).map (32 + ·)
  (spreadTo s ++ outer).foldl (sendBundle epoch b) s

/-- Is there a gap before the held bundles. -/
def gapOpen (s : State) : Bool :=
  match s.mbr.held.find? (fun h => bodyKind (bundleBody h.bytes) != 3) with
  | some h => h.mepoch != (ownEpoch s + 1) % 2 ^ 32
  | none => false

/-- STALE ends when the gap fills. -/
def gapCheck (s : State) : State :=
  if gapOpen s then s else { s.setFld pgMbr MBR_MSTAT_STALE 0 with mbr := { s.mbr with gapAsked := false } }

/-! ### Commands (R376, R377, R393) -/

/-- Does the rate window hold the command's fences; the window of the command, and its count before them. -/
def rateWindow (s : State) (body : List Byte) : Nat := (bodyIssue body).1 / (60 * s.fld pgMbr MBR_POLICY_RATE_WIN)
def rateCount (s : State) (body : List Byte) : Nat :=
  if rateWindow s body = s.mbr.winIdx then s.fld pgMbr MBR_RATE_STAT_COUNT else 0

def bodyEntries (body : List Byte) : List (Nat × Nat × List Byte) := (List.range (bodyCount body)).map (bodyEntry body)

/-- Fences that count. -/
def countedFences (s : State) (body : List Byte) : Nat :=
  countIf (fun e => e.2.1 == 5 && (plannedState s e.1 == 2 || plannedState s e.1 == 3)) (bodyEntries body)

def timeOf (x : Nat × Nat) : Nat := 1000000000 * x.1 + x.2

/-- Does the effect time fall on an allocation epoch boundary at least 1 ms after ISSUE. -/
def effectOk (s : State) (body : List Byte) : Bool :=
  let t := timeOf (bodyEffect body)
  t == 0 || (t % epochLen s.alloc.ctl == 0 && decide (timeOf (bodyIssue body) + 1000000 ≤ t))

/-- The refusals of R376 other than the rate limiter's. -/
def changeOk (s : State) (body : List Byte) : Bool :=
  let es := bodyEntries body
  es.all (fun e => e.1 != 16383 && (actFrom e.2.1).contains (plannedState s e.1))
    && decide ((es.map (·.1)).eraseDups.length = es.length)
    && decide (timeOf (s.mbr.issueSec, s.mbr.issueNs) ≤ timeOf (bodyIssue body)) && effectOk s body

/-- A command is consumed: MEPOCH advances, it is kept and forwarded (R376, R380). -/
def consume (s : State) (h : HeldBundle) (status : Nat) (ok : Bool) : State :=
  let body := bundleBody h.bytes
  let s := (s.setFld pgMbr MBR_MEPOCH h.mepoch).bump pgMbr (if ok then 1 else 2)
  let s := { s with mbr := { s.mbr with
    held := s.mbr.held.filter (fun y => y.mepoch != h.mepoch || bodyKind (bundleBody y.bytes) == 3)
    kept := (h :: s.mbr.kept).take 64, issueSec := (bodyIssue body).1, issueNs := (bodyIssue body).2 } }
  gapCheck (forwardBundle (bundleStatus s h.bytes h.session status) h.mepoch h.bytes)

/-- The window of a consumed command. -/
def enterWindow (s : State) (body : List Byte) (add : Nat) : State :=
  let n := rateCount s body + add
  let w := rateWindow s body
  { s.setFld pgMbr MBR_RATE_STAT_COUNT (min 65535 n) with mbr := { s.mbr with winIdx := w } }

/-- The next command in MEPOCH order, of a kind. -/
def nextCommand (s : State) (kind : Nat) : Option HeldBundle :=
  if viewValid s then
    s.mbr.held.find? (fun h => h.mepoch == (ownEpoch s + 1) % 2 ^ 32 && bodyKind (bundleBody h.bytes) == kind)
  else none

/-- The entries of an accepted CHANGE take effect or become pending. -/
def acceptChange (s : State) (body : List Byte) (host : Bool) : State × Nat :=
  let es := bodyEntries body
  let t := timeOf (bodyEffect body)
  let cancels := (es.filter (fun e => e.2.1 == 5 || e.2.1 == 6)).map (·.1)
  let s := { s with mbr := { s.mbr with pend := s.mbr.pend.filter (fun p => !cancels.contains p.dev) } }
  if t ≤ timeNs s then
    let s := es.foldl (fun s e => applyEntry s e.1 e.2.1 e.2.2 host) s
    if t = 0 then (s, 0) else (errOcc s pgMbr 7 0, 7)
  else
    let new := es.map (fun e => (⟨(bodyEffect body).1, (bodyEffect body).2, e.1, actTo e.2.1, e.2.1, e.2.2, host⟩ : PendEntry))
    ({ s with mbr := { s.mbr with pend := sortBy (fun a b => decide (a.ns_ ≤ b.ns_)) (s.mbr.pend ++ new) } }, 1)

/-- CHANGE_COMMAND. -/
def doChangeCommand (s : State) : State :=
  match nextCommand s 1 with
  | none => s
  | some h =>
    let body := bundleBody h.bytes
    let n := countedFences s body
    if !changeOk s body then consume (enterWindow (errOcc s pgMbr 1 0) body 0) h 3 false
    else if !bodyOverride body && decide (s.fld pgMbr MBR_POLICY_RATE_MAX < rateCount s body + n) then
      let s := errOcc s pgMbr 2 0
      let s := s.setFld pgMbr MBR_RATE_STAT_REFUSED (min 65535 (s.fld pgMbr MBR_RATE_STAT_REFUSED + 1))
      consume (enterWindow s body 0) h 4 false
    else
      let (s, status) := acceptChange (enterWindow s body n) body (h.session != 0)
      showState (consume s h status true)

/-- POLICY_COMMAND. -/
def doPolicyCommand (s : State) : State :=
  match nextCommand s 2 with
  | none => s
  | some h =>
    let body := bundleBody h.bytes
    if timeOf (bodyIssue body) < timeOf (s.mbr.issueSec, s.mbr.issueNs) ∨ !effectOk s body then consume (enterWindow (errOcc s pgMbr 1 0) body 0) h 3 false
    else
      let s := enterWindow s body 0
      consume (s.setFlds pgMbr [(MBR_POLICY_RATE_MAX, leAt body 34 2), (MBR_POLICY_RATE_WIN, leAt body 36 2)]) h 0 true

/-- The view of a SNAPSHOT. -/
def snapshotView (body : List Byte) : SMap Nat :=
  (((body.drop 64).zipIdx).flatMap (fun e => [(2 * e.2, e.1.toNat % 16), (2 * e.2 + 1, e.1.toNat / 16)])).filter (fun e => e.2 != 0)

/-- SNAPSHOT_COMMAND (R383). The links and sequences with a device that it shows to have joined start anew (R273, R293). -/
def doSnapshotCommand (s : State) : State :=
  match s.mbr.held.find? (fun h => bodyKind (bundleBody h.bytes) == 3) with
  | none => s
  | some h =>
    let body := bundleBody h.bytes
    let s := { s with mbr := { s.mbr with held := dropFirst (· == h) s.mbr.held } }
    if seqBefore h.mepoch (ownEpoch s) || (viewValid s && !s.flag pgMbr MBR_MSTAT_STALE) then
      bundleStatus (errOcc s pgMbr 1 0) h.bytes h.session 3
    else
      let old := s.mbr.view
      let s := { s with mbr := { s.mbr with
        view := snapshotView body, pend := [], winIdx := leAt body 40 8, gapAsked := false
        held := s.mbr.held.filter (fun y => bodyKind (bundleBody y.bytes) == 3 || seqBefore h.mepoch y.mepoch) } }
      let s := s.setFlds pgMbr [(MBR_MEPOCH, h.mepoch), (MBR_MSTAT_VIEW_VALID, 1), (MBR_MSTAT_STALE, 0),
        (MBR_POLICY_RATE_MAX, leAt body 34 2), (MBR_POLICY_RATE_WIN, leAt body 36 2), (MBR_RATE_STAT_COUNT, leAt body 48 2)]
      let joined := (s.mbr.view.filter (fun e => decide (e.2 ≤ 3) && (!(decide (1 ≤ smGet 0 old e.1) && decide (smGet 0 old e.1 ≤ 3))
        || (e.2 == 1 && smGet 0 old e.1 != 1)))).map (·.1)
      let s := joined.foldl startLinks s
      let fresh := (s.mbr.view.filter (fun e => e.2 == 4 && smGet 0 old e.1 != 4)).map (·.1)
      let s := fresh.foldl (fun s d => if s.flag pgMbr MBR_DEVNUM_VALID && d == s.ownDev then fenceSelf s else fenceOther s d) s
      let s := endClaims s (fun d => (s.viewOf d == 0 || s.viewOf d == 4) && s.viewOf d != smGet 0 old d)
      showState (bundleStatus (s.bump pgMbr 1) h.bytes h.session 0)

/-- CHANGE_EFFECT_APPLY: the pending entries of the earliest effect time that fabric time has reached apply together. -/
def doChangeEffectApply (s : State) : State :=
  match s.mbr.pend with
  | [] => s
  | e :: _ =>
    if timeNs s < e.ns_ then s
    else
      let now := s.mbr.pend.filter (fun x => x.ns_ == e.ns_)
      let s := { s with mbr := { s.mbr with pend := s.mbr.pend.filter (fun x => x.ns_ != e.ns_) } }
      showState (now.foldl (fun s x => applyEntry s x.dev x.act x.idHash x.host) s)

/-! ### MGMT messages -/

/-- A fragment joins its bundle; a complete bundle is to be verified. -/
def addFragment (s : State) (p : Packet) : State :=
  let b := p.payload
  let i := leAt b 2 1
  let n := leAt b 3 1
  let m := leAt b 4 4
  let same (f : FragSt) : Bool := f.src == p.src && f.mepoch == m
  let old := (s.mbr.frags.find? same).getD { src := p.src, mepoch := m, nfrag := n, total := leAt b 8 4, parts := [] }
  if leAt b 1 1 ≠ 1 ∨ n = 0 ∨ 16 < n ∨ n ≤ i ∨ !allZero b 12 4 ∨ old.nfrag ≠ n ∨ old.total ≠ leAt b 8 4 ∨ s.sec.trust.isEmpty then s
  else
    let new : FragSt := { old with parts := smInsert old.parts i (b.drop 16) }
    let rest := s.mbr.frags.filter (fun f => !same f)
    let all : List Byte := (new.parts.map (·.2)).flatten
    if new.parts.length = n ∧ all.length = new.total then
      { s.bump pgMbr 0 with mbr := { s.mbr with frags := rest, inbox := s.mbr.inbox ++ [⟨all, 0⟩] } }
    else { s with mbr := { s.mbr with frags := rest ++ [new] } }

def doBundleFragmentReceive (s : State) : State :=
  match takeMgmt s (isAllocMsg 0x10) with
  | none => s
  | some (p, s) => addFragment s p

/-- CMD_REQ_RECEIVE: the kept bundles of the range go to the sender. -/
def doCmdReqReceive (s : State) : State :=
  match takeMgmt s (isAllocMsg 0x11) with
  | none => s
  | some (p, s) =>
    let first := leAt p.payload 4 4
    let n := leAt p.payload 8 2
    let want := s.mbr.kept.reverse.filter (fun h => decide ((h.mepoch + 2 ^ 32 - first) % 2 ^ 32 < n))
    if leAt p.payload 1 1 ≠ 1 ∨ n = 0 ∨ 64 < n ∨ p.src / 32 ≠ s.ownDev / 32 then s
    else want.foldl (fun s h => sendBundle h.mepoch h.bytes s (p.src % 32)) s

/-- CMD_REQ_TIMER: the missing range is asked for. -/
def doCmdReqTimer (s : State) : State :=
  match if gapOpen s then s.mbr.held.find? (fun h => bodyKind (bundleBody h.bytes) != 3) else none with
  | none => s
  | some h =>
    let first := (ownEpoch s + 1) % 2 ^ 32
    let n := min 64 ((h.mepoch + 2 ^ 32 - first) % 2 ^ 32)
    let msg := [0x11, 1] ++ leBytes 2 s.ownDev ++ leBytes 4 first ++ leBytes 2 n ++ leBytes 6 0
    let s := { s with mbr := { s.mbr with gapAsked := true } }
    ((List.range 32).filter (sheetUp s)).foldl (fun s i => sendMgmt s (sheetDev s i) msg) s

/-- STALE_TIMER. -/
def doStaleTimer (s : State) : State :=
  if gapOpen s && s.mbr.gapAsked && !s.flag pgMbr MBR_MSTAT_STALE then
    membershipEvent (errOcc (s.setFld pgMbr MBR_MSTAT_STALE 1) pgMbr 4 0) 1 s.ownDev
  else s

/-! ### Circuits (R389, R390) -/

/-- The word of an outer plane; in the fault state none shows as ACTIVE (R433). -/
def circuitWord (s : State) (k : Nat) : Nat :=
  match outerPeer s k with
  | some d => d / 32 + (if linkUp s (32 + k) && !s.inFault then 0x8000 else 0)
  | none => 0

def doCircuitsSend (s : State) : State :=
  if !(members s).contains s.ownIdx then s
  else
    let msg := [0x12, 1] ++ leBytes 2 s.ownDev ++ leBytes 4 0 ++ (List.range 16).flatMap (fun k => leBytes 2 (circuitWord s k))
    let s := { s with mbr := { s.mbr with circDue := false } }
    ((members s).filter (· != s.ownIdx)).foldl (fun s i => sendMgmt s (sheetDev s i) msg) s

/-- SRT bits of member `i` follow its circuits. -/
def setSrt (s : State) (i : Nat) (ws : List Nat) : State :=
  (List.range 512).foldl (fun s j =>
    s.setReg pgFab (0x800 + 4 * j) (putBit (s.reg pgFab (0x800 + 4 * j)) i (ws.any (fun w => w.testBit 15 && w % 512 == j)))) s

def doCircuitsReceive (s : State) : State :=
  match takeMgmt s (isAllocMsg 0x12) with
  | none => s
  | some (p, s) =>
    let i := p.src % 32
    let ws := (List.range 16).map (fun k => leAt p.payload (8 + 2 * k) 2)
    if p.src / 32 ≠ s.ownDev / 32 ∨ !(members s).contains i ∨ i = s.ownIdx ∨ leAt p.payload 1 1 ≠ 1 ∨ p.payload.length ≠ 40 then s
    else setSrt { s with mbr := { s.mbr with circuits := smInsert s.mbr.circuits i ws } } i ws

def doCircuitsAgeOut (src : DevNum) (s : State) : State :=
  if smHas s.mbr.circuits (src.val % 32) && src.val / 32 == s.ownDev / 32 then
    errOcc (clearSrt { s with mbr := { s.mbr with circuits := smErase s.mbr.circuits (src.val % 32) } } (src.val % 32)) pgMbr 8 0
  else s

/-! ### Health (R391, R392) -/

/-- A counter summed over the pages of a type. -/
def sumCounter (s : State) (t : PageType) (i : Nat) : Nat :=
  ((s.cnt.filter (fun e => e.1 % 8 == i && (match pageOf s.fuses.part (e.1 / 8) with | some (u, _) => u == t | none => false))).map
    (fun e => e.2.toNat)).sum

def countedNow (s : State) : List Nat :=
  [sumCounter s .plt 2 + sumCounter s .srm 0, sumCounter s .plt 3 + sumCounter s .srm 1, sumCounter s .stl 3, s.mbr.lost,
    s.mbr.narrowed, sumCounter s .stl 5, s.mbr.enforced, (s.counter pgFab 3).toNat]

/-- What has been counted of inputs 0 to 7, a CNT_CLR notwithstanding. -/
def healthCounts (s : State) : List Nat := (List.range 8).map (fun i => s.mbr.cleared.getD i 0 + (countedNow s).getD i 0)

/-- CNT_CLR of a page: its counters are zero, and what the score has of them is kept (R391, R518). -/
def clearCounters (s : State) (page : Nat) : State :=
  let t : State := { s with cnt := s.cnt.filter (fun e => e.1 / 8 != page) }
  { t with mbr := { t.mbr with cleared := (List.range 8).map (fun i => (healthCounts s).getD i 0 - (countedNow t).getD i 0) } }

def healthUnit : List Nat := [1024, 1, 64, 1, 1, 1, 1, 256]

/-- P_i of the inputs. -/
def penalties (s : State) (now base : List Nat) : List Nat :=
  (List.range 8).map (fun i =>
    let w := natBits (s.fld pgMbr (if i < 4 then MBR_HWEIGHT0 else MBR_HWEIGHT1)) (8 * (i % 4) + 7) (8 * (i % 4))
    min 255 (w * ((now.getD i 0 - base.getD i 0) / healthUnit.getD i 1)))

def doHealthScoreUpdate (s : State) : State :=
  let now := healthCounts s
  let win := s.fld pgMbr MBR_HCFG_WIN_S
  -- since start-up where that is shorter
  let base := (s.mbr.health[win - 1]?).getD []
  let ps := penalties s now base
  let top := ps.foldl max 0
  let s := { s with mbr := { s.mbr with health := (now :: s.mbr.health).take 255 } }
  s.setFlds pgMbr [(MBR_HSCORE_SCORE, 255 - min 255 ps.sum), (MBR_HSCORE_TOP, ps.idxOf top), (MBR_HSCORE_TOP_PEN, top)]

def doHealthEvent (s : State) : State :=
  let data := s.fld pgMbr MBR_HSCORE_SCORE + 2 ^ 8 * s.fld pgMbr MBR_HSCORE_TOP + 2 ^ 16 * s.fld pgMbr MBR_HSCORE_TOP_PEN
    + 2 ^ 24 * s.fld pgMbr MBR_MSTAT_STATE + 2 ^ 32 * ownEpoch s
  queueEvent (s.bump pgMbr 5) (devEvent s 7 data)

/-! ### Meanings -/

/-- BUNDLE_VERIFY. -/
def execBundleVerify (s : State) : Res := .next (powered doBundleVerify s)

/-- CHANGE_COMMAND. -/
def execChangeCommand (s : State) : Res := .next (powered doChangeCommand s)

/-- POLICY_COMMAND. -/
def execPolicyCommand (s : State) : Res := .next (powered doPolicyCommand s)

/-- SNAPSHOT_COMMAND. -/
def execSnapshotCommand (s : State) : Res := .next (powered doSnapshotCommand s)

/-- CHANGE_EFFECT_APPLY. -/
def execChangeEffectApply (s : State) : Res := .next (powered doChangeEffectApply s)

/-- BUNDLE_FRAGMENT_RECEIVE. -/
def execBundleFragmentReceive (s : State) : Res := .next (powered doBundleFragmentReceive s)

/-- CMD_REQ_RECEIVE. -/
def execCmdReqReceive (s : State) : Res := .next (powered doCmdReqReceive s)

/-- CMD_REQ_TIMER. -/
def execCmdReqTimer (s : State) : Res := .next (powered doCmdReqTimer s)

/-- STALE_TIMER. -/
def execStaleTimer (s : State) : Res := .next (powered doStaleTimer s)

/-- CIRCUITS_SEND. -/
def execCircuitsSend (s : State) : Res := .next (powered doCircuitsSend s)

/-- CIRCUITS_RECEIVE. -/
def execCircuitsReceive (s : State) : Res := .next (powered doCircuitsReceive s)

/-- CIRCUITS_AGE_OUT. -/
def execCircuitsAgeOut (src : DevNum) (s : State) : Res := .next (powered (doCircuitsAgeOut src) s)

/-- HEALTH_SCORE_UPDATE. -/
def execHealthScoreUpdate (s : State) : Res := .next (powered doHealthScoreUpdate s)

/-- HEALTH_EVENT. -/
def execHealthEvent (s : State) : Res := .next (powered doHealthEvent s)

end Sys2Proof.Machine
end

