-- ==== Sys2Proof/Machine/Time.lean ====
section
/-!
DEFINITION. Fabric time: root election (R402, R403), the exchange with the parent (R404 to R406), holdover (R409, R410), time set
(R411), PTP (R412), PPS_OUT (R414) and timestamp capture (R415, R416).
-/

namespace Sys2Proof.Machine

/-! ### Election (R402, R403) -/

/-- Is this device a candidate. -/
def isCandidate (s : State) : Bool :=
  (members s).contains s.ownIdx && s.flag pgTim TIM_TCTL_ELIG && !s.tim.ocxoFailed && !s.inFault

/-- Is a root live: its ALIVE has advanced within ROOT_TMO (R402). -/
def rootLive (s : State) (root : Nat) : Bool :=
  !smHas s.tim.dead root
    && (match smFind s.tim.heardAt root with | some t => decide (s.tim.clock ≤ t + 1000000 * s.fld pgTim TIM_TCTL_ROOT_TMO) | none => true)

/-- Announcements of live roots by neighbours whose lane pairs are ACTIVE: link and TSYNC. This device's own number comes from its own
candidacy alone (R403). -/
def heardSync (s : State) : List (Nat × TSync) :=
  s.lanes.filterMap (fun e =>
    match e.2.sync with
    | some (t, _) => if e.2.up && t.valid && t.hops != 15 && rootLive s t.root && !s.isOwn t.root then some (linkOf s e.1, t) else none
    | none => none)

/-- Is a root better: lower PRIO, then lower number. -/
def rootBetter (a b : Nat × Nat) : Bool := decide (a.1 < b.1) || (a.1 == b.1 && decide (a.2 < b.2))

/-- The best live root: PRIO and number. -/
def bestRoot (s : State) : Option (Nat × Nat) :=
  if !s.flag pgMbr MBR_DEVNUM_VALID then none
  else
    bestOf rootBetter
      ((if isCandidate s then [(s.fld pgTim TIM_TCTL_PRIO, s.ownDev)] else []) ++ (heardSync s).map (fun x => (x.2.prio, x.2.root)))

/-- The parent towards a root: its link and HOPS. -/
def parentFor (s : State) (root : Nat) : Option (Nat × Nat) :=
  let l := (heardSync s).filter (fun x => x.2.root == root)
  let sheet := l.filter (fun x => decide (x.1 < 32))
  match sheet.find? (fun x => sheetDev s x.1 == root) with
  | some x => some (x.1, x.2.hops)
  | none =>
    let circ := bestOf (fun a b => decide (a.2.hops < b.2.hops)) (l.filter (fun x => decide (32 ≤ x.1)))
    let keys := (match circ with | some x => [((x.2.hops + 1, s.ownIdx), (x.1, x.2.hops))] | none => [])
      ++ (sheet.filter (fun x => x.2.circ)).map (fun x => ((x.2.hops, x.1), (x.1, x.2.hops)))
    (bestOf (fun a b => rootBetter a.1 b.1) keys).map (·.2)

/-- The time lane of a link (R404). -/
def timeLane (s : State) (l : Nat) : Option Nat := activePair s l

/-- No parent is followed. -/
def noParent (s : State) : State := s.setFlds pgTim [(TIM_PARENT_VALID, 0), (TIM_TSTAT_LOCKED, 0)]

/-- A device whose parent is lost goes on in holdover (R409). -/
def loseParent (s : State) : State :=
  if s.flag pgTim TIM_PARENT_VALID && !s.flag pgTim TIM_TSTAT_HOLDOVER then
    errOcc (noParent (s.setFld pgTim TIM_TSTAT_HOLDOVER 1)) pgTim 0 0
  else noParent s

/-- The root followed is noted; a change is counted. -/
def setRoot (s : State) (valid : Bool) (prio dev : Nat) : State :=
  let s := if s.fld pgTim TIM_ROOT_DEV = dev ∧ s.flag pgTim TIM_ROOT_VALID = valid then s else s.bump pgTim 3
  s.setFlds pgTim [(TIM_ROOT_VALID, valid.toNat), (TIM_ROOT_PRIO, prio), (TIM_ROOT_DEV, dev)]

/-- The device runs free as a local root, in holdover where it had a parent. -/
def runLocal_ (s : State) : State :=
  (setRoot (loseParent s) false 0 0x3FFF).setFlds pgTim [(TIM_TSTAT_LOCAL, 1), (TIM_TSTAT_ROOT, 0), (TIM_TSTAT_HOPS, 0)]

/-- The time lane in PARENT. -/
def setTimeLane (s : State) (key : Nat) : State := s.setFlds pgTim [(TIM_PARENT_PLANE, key / 32), (TIM_PARENT_LINE, key % 32)]

/-- The exchange keeps to the time lane of its link; a move to another lane pair discards an exchange that spans it, and holdover lasts
until the first exchange there (R404). -/
def followLane (s : State) (l : Nat) : State :=
  match timeLane s l with
  | none => s
  | some k =>
    if s.fld pgTim TIM_PARENT_PLANE = k / 32 ∧ s.fld pgTim TIM_PARENT_LINE = k % 32 then s
    else
      (setTimeLane { s with tim := { s.tim with skip := true } } k).setFlds pgTim [(TIM_TSTAT_HOLDOVER, 1), (TIM_TSTAT_LOCKED, 0)]

/-- The lane pair in PARENT. -/
def parentKey (s : State) : Nat := pairKey (s.fld pgTim TIM_PARENT_PLANE) (s.fld pgTim TIM_PARENT_LINE)

/-- A device that leaves a parent that has stopped being usable is in holdover: its root is not live, or the link has no ACTIVE lane pair
(R409). -/
def leaveParent (s : State) : State :=
  if s.flag pgTim TIM_PARENT_VALID && !s.flag pgTim TIM_TSTAT_HOLDOVER
      && !((timeLane s (linkOf s (parentKey s))).isSome && rootLive s (s.fld pgTim TIM_ROOT_DEV)) then
    errOcc (s.setFld pgTim TIM_TSTAT_HOLDOVER 1) pgTim 0 0
  else s

/-- Election: the root, the parent and HOPS (R403). -/
def elect (s : State) : State :=
  match bestRoot s with
  | none => runLocal_ s
  | some (prio, dev) =>
    if s.isOwn dev then
      (setRoot (noParent s) true prio dev).setFlds pgTim [(TIM_TSTAT_LOCAL, 0), (TIM_TSTAT_ROOT, 1), (TIM_TSTAT_HOPS, 0),
        (TIM_TSTAT_HOLDOVER, 0)]
    else
      match parentFor s dev with
      | none => runLocal_ s
      | some (l, hops) =>
        let par := (linkPeer s l).getD 0x3FFF
        let same := s.flag pgTim TIM_PARENT_VALID && s.fld pgTim TIM_PARENT_DEV == par
        let s := if same then s else leaveParent s
        let s := (setRoot s true prio dev).setFlds pgTim [(TIM_TSTAT_LOCAL, 0), (TIM_TSTAT_ROOT, 0), (TIM_TSTAT_HOPS, min 15 (hops + 1))]
        if same then followLane s l
        else
          let s := (s.bump pgTim 2).setFlds pgTim [(TIM_PARENT_VALID, 1), (TIM_PARENT_DEV, par), (TIM_TSTAT_LOCKED, 0)]
          let s := { s with tim := { s.tim with skip := true } }
          match timeLane s l with
          | some key => setTimeLane s key
          | none => s

/-! ### The exchange (R405, R406) -/

/-- Units of 2^−16 ns. -/
def stampNum (sec ns frac : Nat) : Int := (65536 * (1000000000 * sec + ns) + frac : Nat)

/-- A short stamp taken near this device's present time, in full. -/
def fullStamp (s : State) (x : Stamp) : Int :=
  let back := (s.time.sec + 2 ^ 18 - x.sec % 2 ^ 18) % 2 ^ 18
  stampNum s.time.sec x.ns x.frac - stampNum back 0 0

/-- TX_T in full, and RX_T as lying no later. -/
def txFull (t : TSync) : Int := stampNum (2 ^ 18 * t.secHi + t.txT.sec) t.txT.ns t.txT.frac
def rxFull (t : TSync) : Int :=
  txFull t - stampNum ((t.txT.sec + 2 ^ 18 - t.rxT.sec) % 2 ^ 18) 0 0 + (stampNum 0 t.rxT.ns t.rxT.frac - stampNum 0 t.txT.ns t.txT.frac)

/-- Half of ASYM of a plane, in units of 2^−16 ns. -/
def halfAsym (s : State) (p : Nat) : Int := 2048 * (sext 32 (s.fld pgTim (TIM_ASYM.at (4 * p))))

/-- θ and d of an exchange on plane `p`, in units of 2^−16 ns; this device adds half of ASYM to the stamps it takes. -/
def thetaOf (s : State) (p : Nat) (t : TSync) (arrival depart : Stamp) : Int × Int :=
  let t1 := fullStamp s depart + halfAsym s p
  let t4 := fullStamp s arrival + halfAsym s p
  let t2 := rxFull t
  let t3 := txFull t
  (((t4 - t3) - (t2 - t1)) / 2, ((t2 - t1) + (t4 - t3)) / 2)

/-- A time moved by an amount in units of 2^−16 ns; it does not fall below zero. -/
def Time.moved (t : Time) (by_ : Int) : Time :=
  let n := (stampNum t.sec t.ns t.frac + by_).toNat
  { sec := n / 65536 / 1000000000 % 2 ^ 48, ns := n / 65536 % 1000000000, frac := n % 65536 }

/-- The time unit's time moved. -/
def stepTime (s : State) (by_ : Int) : State := { s with time := s.time.moved by_ }

/-- A nanosecond of the time unit's clock in 10^−11 of 2^−16 ns, at the rate correction FREQ.CORR in units of 0.01 ppb, with what the
last one left (R406, R409, log entry 51). -/
def rateNs (s : State) : Nat := s.tim.acc + (65536 * (100000000000 + sext 32 (s.fld pgTim TIM_FREQ))).toNat

/-- Fabric time a nanosecond of the time unit's clock later. -/
def nextTime (s : State) : Time := s.time.moved ((rateNs s / 100000000000 : Nat) : Int)

/-- A step (R406, R411). -/
def noteStep (s : State) : State := (s.setFld pgTim TIM_TSTAT_STEPPED 1).bump pgTim 1

/-- Has fabric time reached the earliest pending effect, one no later than time `t`. -/
def effectDue (s : State) (t : Nat) : Bool :=
  match s.mbr.pend with
  | e :: _ => decide (e.ns_ ≤ timeNs s) && decide (e.ns_ ≤ t)
  | [] => false

/-- The epoch boundaries and effect times that a step forward has passed are applied at the step, in order of their times, and an effect
time before the boundary it falls on (R407, log entry 131). No test of a boundary's dies and rings has then ended. -/
def passTimes : Nat → State → State
  | 0, s => s
  | n + 1, s =>
    let next := (s.alloc.num + 1) * epochLen s.alloc.ctl
    if effectDue s next then passTimes n (doChangeEffectApply s)
    else if next ≤ timeNs s then passTimes n (doEpochBoundary ⟨[], [], [], []⟩ s)
    else s

/-- A step has moved the time. -/
def stepped (s : State) : State := passTimes (timeNs s / 100000 + s.mbr.pend.length) (noteStep s)

/-- A completed exchange. A θ above 1 µs steps the time instead of the rate, and ends LOCKED, since θ has then not stayed within 2 ns.
The rate correction that the servo makes of another is a free value within its 10 ppm (R406, log entry 51). -/
def exchange (s : State) (p : Nat) (t : TSync) (arrival depart : Stamp) : State :=
  let (th, d) := thetaOf s p t arrival depart
  let s := (s.bump pgTim 0).setFlds pgTim [(TIM_OFFSET, wrapInt 32 (th / 4096)), (TIM_DELAY, wrapInt 32 (d / 4096)), (TIM_TSTAT_HOLDOVER, 0)]
  if 1000 * 65536 < th.natAbs then stepped (errOcc ((stepTime s (-th)).setFld pgTim TIM_TSTAT_LOCKED 0) pgTim 2 0)
  else
    let (r, s) := s.freeNat 2000001
    s.setFld pgTim TIM_FREQ (wrapInt 32 ((r : Int) - 1000000))

/-- Is the lane pair the time lane. -/
def isTimeLane (s : State) (key : Nat) : Bool :=
  s.flag pgTim TIM_PARENT_VALID && s.fld pgTim TIM_PARENT_PLANE == key / 32 && s.fld pgTim TIM_PARENT_LINE == key % 32

/-- The ALIVE heard of a root (R402). -/
def hearAlive (s : State) (t : TSync) : State :=
  let new := match smFind s.tim.heard t.root with
    | none => true
    | some a => a != t.alive && decide ((t.alive + 2 ^ 16 - a) % 2 ^ 16 < 2 ^ 15)
  if t.valid && new then
    { s with tim := { s.tim with
      heard := smInsert s.tim.heard t.root t.alive, dead := smErase s.tim.dead t.root, heardAt := smInsert s.tim.heardAt t.root s.tim.clock } }
  else s

/-- What a frame's TSYNC brings: election at every frame heard, and an exchange on the time lane. -/
def takeSync (s : State) (key : Nat) : State :=
  match (s.lane key).sync with
  | none => s
  | some (t, arrival, depart) =>
    let s := elect (hearAlive s t)
    if !(isTimeLane s key && (s.lane key).up) then s
    else if s.tim.skip then { s with tim := { s.tim with skip := false } }
    else exchange s (key / 32) t arrival depart

/-- FRAME_RECEIVE on receive line `k` of plane `p`; an injection at the link code reaches the frame's check (STL source 0, R439). -/
def doFrameReceive (p : PlaneId) (k : LineId) (fr : Frame) (s : State) : State :=
  let key := pairKey p (mirror p k)
  let taken := planeFitted s p && (s.lane key).hears
  let (inj, s) := if taken then takeInjection s (pgStl (planeDie p)) [0] else (0, s)
  let fr := { fr with errs := fr.errs ++ injectedErrs inj }
  let h := parseHead (frameInfo fr)
  let heard := taken && !(fecOf fr.errs).uncorr && headOk s p k h
  let s := takeFrame p k fr s
  if heard && stamped s h.fseq then takeSync s key else s

/-! ### Liveness, holdover and lock -/

def doAliveTick (s : State) : State :=
  if s.flag pgTim TIM_TSTAT_ROOT && !s.inFault then { s with tim := { s.tim with alive := (s.tim.alive + 1) % 65536 } } else s

/-- ROOT_LIVENESS_EXPIRY: the root followed is no longer live; holdover, and election (R410). -/
def doRootLivenessExpiry (s : State) : State :=
  if s.flag pgTim TIM_ROOT_VALID && !s.flag pgTim TIM_TSTAT_ROOT then
    let s := { s with tim := { s.tim with dead := smInsert s.tim.dead (s.fld pgTim TIM_ROOT_DEV) () } }
    elect (errOcc (s.setFlds pgTim [(TIM_TSTAT_HOLDOVER, 1), (TIM_TSTAT_LOCKED, 0)]) pgTim 1 0)
  else s

def doHoldoverEntry (s : State) : State :=
  if s.flag pgTim TIM_PARENT_VALID && !s.flag pgTim TIM_TSTAT_HOLDOVER then
    errOcc (s.setFlds pgTim [(TIM_TSTAT_HOLDOVER, 1), (TIM_TSTAT_LOCKED, 0)]) pgTim 0 0
  else s

/-- TIME_LANE_CHANGE: the exchange moves to the lane pair that is now the link's time lane (R404). -/
def doTimeLaneChange (s : State) : State :=
  if s.flag pgTim TIM_PARENT_VALID then followLane s (linkOf s (parentKey s)) else s

/-- LOCK_ACHIEVED: |θ| has stayed within 2 ns. -/
def doLockAchieved (s : State) : State :=
  if s.flag pgTim TIM_PARENT_VALID && !s.flag pgTim TIM_TSTAT_HOLDOVER
      && decide ((sext 32 (s.fld pgTim TIM_OFFSET)).natAbs ≤ 32) then
    s.setFld pgTim TIM_TSTAT_LOCKED 1
  else s

def doOcxoFail (s : State) : State :=
  if s.tim.ocxoFailed then s else elect (errOcc { s with tim := { s.tim with ocxoFailed := true } } pgTim 3 0)

/-! ### Time set (R411) -/

def setTime (s : State) : Time :=
  ⟨2 ^ 32 * s.fld pgTim TIM_SET_SEC_HI_SEC_HI + s.fld pgTim TIM_SET_SEC_LO, s.fld pgTim TIM_SET_NS, 0⟩

def doTimeSetGo (s : State) : State :=
  let t := setTime s
  if s.flag pgTim TIM_TSTAT_ROOT && decide (timeNs s ≤ 1000000000 * t.sec + t.ns) then { s.setFld pgTim TIM_SET_CTL_PEND 1 with tim := { s.tim with setSec := s.time.sec } }
  else errOcc (s.setFld pgTim TIM_SET_CTL_REFUSED 1) pgTim 4 0

/-- TIME_SET_APPLY: at the next whole second after GO; what has passed since counts on. A device that is root no longer drops the set
(log entry 132). -/
def doTimeSetApply (s : State) : State :=
  if !s.flag pgTim TIM_SET_CTL_PEND || decide (s.time.sec ≤ s.tim.setSec) then s
  else
    let t := s.setFld pgTim TIM_SET_CTL_PEND 0
    if !s.flag pgTim TIM_TSTAT_ROOT then t
    else stepped { t with time := (setTime s).moved (stampNum (s.time.sec - s.tim.setSec - 1) s.time.ns s.time.frac) }

/-! ### PPS_OUT, captures and NOW -/

/-- Is PPS_OUT held for the debug strobe (R525). -/
def strobeHeld (s : State) : Bool := s.flag pgEas (EAS_CLAIM_HELD.at 16) && s.fld pgEas (EAS_CLAIM_FUNC.at 16) == 1

/-- May PPS_OUT be high: enabled, as root, LOCKED or in holdover, within WIDTH µs of the whole second (R414). -/
def ppsLevel (s : State) : Bool :=
  s.flag pgTim TIM_PPS_CTL_EN && (s.flag pgTim TIM_TSTAT_ROOT || s.flag pgTim TIM_TSTAT_LOCKED || s.flag pgTim TIM_TSTAT_HOLDOVER)
    && decide (s.time.ns < 1000 * s.fld pgTim TIM_PPS_CTL_WIDTH)

/-- The pin as what drives it allows: the strobe while it has the claim, else PPS, whose pulse a released strobe leaves the pin to (R414,
R525). -/
def settlePps (s : State) : State :=
  let p := s.pins
  if strobeHeld s then { s with pins := { p with ppsHigh := p.ppsHigh && p.strobeLeft != 0 } }
  else { s with pins := { p with ppsHigh := (p.ppsHigh || p.strobeLeft != 0) && ppsLevel s, strobeLeft := 0 } }

/-- PPS_PULSE: the rise, within 2 ns of a whole second, and the fall once WIDTH µs have passed (R414). The debug strobe suppresses it
(R525). -/
def doPpsPulse (rising : Bool) (s : State) : State :=
  if strobeHeld s then s
  else if rising then (if s.time.ns ≤ 2 then { s with pins := { s.pins with ppsHigh := ppsLevel s } } else s)
  else if 1000 * s.fld pgTim TIM_PPS_CTL_WIDTH ≤ s.time.ns then { s with pins := { s.pins with ppsHigh := false } }
  else s

/-- SRC of an event. -/
def capSrc : CapEvent → Nat
  | .softArm => 0 | .errN => 1 | .throtN => 2 | .switchover => 3 | .epoch => 4

/-- CAPTURE_EVENT: an armed slot whose SRC is the event latches the time (R415). -/
def doCaptureEvent (slot : Fin 4) (ev : CapEvent) (s : State) : State :=
  let f (x : Fld) : Fld := x.at (0x10 * slot.val)
  if s.flag pgTim (f TIM_CAP_CTL_ARM) && s.fld pgTim (f TIM_CAP_CTL_SRC) == capSrc ev then
    s.setFlds pgTim [(f TIM_CAP_CTL_ARM, 0), (f TIM_CAP_CTL_VALID, 1), (f TIM_CAP_NS, s.time.ns), (f TIM_CAP_SEC_LO, s.time.sec),
      (f TIM_CAP_HI_FRAC, s.time.frac), (f TIM_CAP_HI_SEC_HI, s.time.sec / 2 ^ 32)]
  else s

/-- NOW_SEC_LO (6) and NOW_HI (7) of the present time. -/
def nowWord (s : State) (k : Nat) : DWord :=
  BitVec.ofNat 64 (if k = 6 then s.time.sec % 2 ^ 32 else 2 ^ 16 * (s.time.frac % 2 ^ 16) + s.time.sec / 2 ^ 32 % 2 ^ 16)

/-- A read of NOW_NS captures the whole time for the reads that follow, as a counter's low word does (R27, R416); the captures
stand beside those of the page's counters, which have indices below 6. -/
def captureNow (s : State) : State :=
  { s with cap := smInsert (smInsert s.cap (8 * pgTim + 6) (nowWord s 6)) (8 * pgTim + 7) (nowWord s 7) }

/-- NOW_NS_READ. -/
def doNowNsRead (s : State) : State := captureNow s

/-! ### PTP (R412) -/

def ptpOn (s : State) : Bool := s.flag pgTim TIM_PTP_CTL_EN
/-- A count on the TIM page of a PTP message that leaves: without a link none does (R417, R473). -/
def countPtp (s : State) (i : Nat) : State := if s.flag pgHpt HPT_LSTAT_LINK_UP then s.bump pgTim i else s

/-- PTP_SYNC_SEND: Sync with the time, or with none and a Follow_Up that carries it. -/
def doPtpSyncSend (s : State) : State :=
  if !ptpOn s then s
  else
    let two := s.flag pgTim TIM_PTP_CTL_TWO_STEP
    let n := s.tim.syncSeq
    let log := wrapInt 8 (sext 4 (s.fld pgTim TIM_PTP_CTL_LOG_SYNC))
    let stamp := ptpStamp s.time.sec s.time.ns
    let s := sendPtp (countPtp s 4) 319 (ptpBytes s 0 (if two then 0x0200 else 0) n 0 log (if two then ptpStamp 0 0 else stamp))
    let s := if two then sendPtp s 320 (ptpBytes s 8 0 n 2 log stamp) else s
    { s with tim := { s.tim with syncSeq := (n + 1) % 65536 } }

/-- The clockClass that Announce carries (R412). -/
def ptpClass (s : State) : Nat :=
  if s.flag pgTim TIM_TSTAT_ROOT || s.flag pgTim TIM_TSTAT_LOCKED then s.fld pgTim TIM_PTP_CLOCK_CLASS else 248

/-- The body of an Announce message: currentUtcOffset, the priorities, clockClass, clockAccuracy, this clock as grandmaster, no steps. -/
def announceBody (s : State) : List Byte :=
  let b (x : Fld) : List Byte := beBytes 1 (s.fld pgTim x)
  ptpStamp 0 0 ++ beBytes 2 (s.fld pgTim TIM_PTP_UTC_UTC_OFFSET) ++ [0] ++ b TIM_PTP_CLOCK_PRIORITY1 ++ beBytes 1 (ptpClass s)
    ++ b TIM_PTP_CLOCK_ACCURACY ++ beBytes 2 Config.ptpVariance ++ b TIM_PTP_CLOCK_PRIORITY2 ++ clockIdentity s ++ [0, 0] ++ [Config.ptpTimeSource]

/-- PTP_ANNOUNCE_SEND: the flags say whether currentUtcOffset is valid, and that the timescale is PTP's. -/
def doPtpAnnounceSend (s : State) : State :=
  if !ptpOn s then s
  else
    let n := s.tim.annSeq
    let s := sendPtp s 320 (ptpBytes s 11 (8 + 4 * (s.flag pgTim TIM_PTP_UTC_UTC_VALID).toNat) n 5 (s.fld pgTim TIM_PTP_CTL_LOG_ANN) (announceBody s))
    { s with tim := { s.tim with annSeq := (n + 1) % 65536 } }

/-- PTP_DELAY_REQ_RECEIVE: the oldest received Delay_Req is answered with the time of its arrival (R412, R413). -/
def doPtpDelayReqReceive (s : State) : State :=
  match takeInq s (fun i => match i with | .ptp a b c => some (a, b, c) | _ => none) with
  | none => s
  | some ((seq, port, at_), s) =>
    if ptpOn s then
      sendPtp (countPtp s 5) 320 (ptpBytes s 9 0 seq 3 (s.fld pgTim TIM_PTP_CTL_LOG_DREQ) (ptpStamp at_.sec at_.ns ++ port))
    else s

/-! ### Meanings -/

/-- FRAME_RECEIVE. -/
def execFrameReceive (p : PlaneId) (k : LineId) (fr : Frame) (s : State) : Res := .next (powered (doFrameReceive p k fr) s)

/-- ALIVE_TICK. -/
def execAliveTick (s : State) : Res := .next (powered doAliveTick s)

/-- ROOT_LIVENESS_EXPIRY. -/
def execRootLivenessExpiry (s : State) : Res := .next (powered doRootLivenessExpiry s)

/-- HOLDOVER_ENTRY. -/
def execHoldoverEntry (s : State) : Res := .next (powered doHoldoverEntry s)

/-- TIME_LANE_CHANGE. -/
def execTimeLaneChange (s : State) : Res := .next (powered doTimeLaneChange s)

/-- LOCK_ACHIEVED. -/
def execLockAchieved (s : State) : Res := .next (powered doLockAchieved s)

/-- OCXO_FAIL. -/
def execOcxoFail (s : State) : Res := .next (powered doOcxoFail s)

/-- TIME_SET_GO. -/
def execTimeSetGo (s : State) : Res := .next (powered doTimeSetGo s)

/-- TIME_SET_APPLY. -/
def execTimeSetApply (s : State) : Res := .next (powered doTimeSetApply s)

/-- PPS_PULSE. -/
def execPpsPulse (rising : Bool) (s : State) : Res := .next (powered (doPpsPulse rising) s)

/-- CAPTURE_EVENT. -/
def execCaptureEvent (slot : Fin 4) (ev : CapEvent) (s : State) : Res := .next (powered (doCaptureEvent slot ev) s)

/-- NOW_NS_READ. -/
def execNowNsRead (s : State) : Res := .next (powered doNowNsRead s)

/-- PTP_SYNC_SEND. -/
def execPtpSyncSend (s : State) : Res := .next (powered doPtpSyncSend s)

/-- PTP_ANNOUNCE_SEND. -/
def execPtpAnnounceSend (s : State) : Res := .next (powered doPtpAnnounceSend s)

/-- PTP_DELAY_REQ_RECEIVE. -/
def execPtpDelayReqReceive (s : State) : Res := .next (powered doPtpDelayReqReceive s)

end Sys2Proof.Machine
end

