-- ==== Sys2Proof/Machine/Resets.lean ====
section
/-!
DEFINITION. The registers of the thermal and power controller as its state gives them, and what a reset of the device's
blocks, a power-down and the fault state do (R433, R435, R437, R518, R541).
-/

namespace Sys2Proof.Machine

/-! ### The controller's registers (R467, R470) -/

def State.thmDie (s : State) (d : Nat) : ThmDie := smGet ThmDie.init s.thm.dies d
def State.modThmDie (s : State) (d : Nat) (f : ThmDie → ThmDie) : State :=
  { s with thm := { s.thm with dies := smSet ThmDie.init s.thm.dies d (f (s.thmDie d)) } }

/-- Temperature in units of 0.125 °C that a broken sensor reads (R450). -/
def brokenTemp : Int := 1016

/-- SENS[n]: a sensor that is not monitored reads 0 (R447, R448). A RATE outside the field's range is left free. -/
def showSensor (s : State) (n : Nat) : State :=
  let r := (smFind s.thm.rates n).getD 0
  let (v, s) := if -2048 ≤ r ∧ r ≤ 2047 then (wrapInt 12 r, s) else s.freeNat 4096
  let cause := smGet 0 s.thm.broken n
  s.setFlds pgThm [(THM_SENS_BROKEN.at (4 * n), if cause = 0 then 0 else 1), (THM_SENS_CAUSE.at (4 * n), cause),
    (THM_SENS_RATE.at (4 * n), v), (THM_SENS_TEMP.at (4 * n), wrapInt 12 ((smFind s.thm.temps n).getD 0))]

/-- The hottest monitored sensor, the lowest of equals. -/
def hottest (s : State) : Nat × Int := (bestOf (fun a b => decide (b.2 < a.2)) s.thm.temps).getD (0, 0)

/-- STEP[d], less EFF. -/
def showDie (s : State) (d : Nat) : State :=
  let x := s.thmDie d
  s.setFlds pgPwr [(PWR_STEP_GRACE.at (4 * d), x.grace.toNat), (PWR_STEP_HOT.at (4 * d), x.hot.toNat),
    (PWR_STEP_CLAMP.at (4 * d), if x.clamp = 0 then 0 else 1), (PWR_STEP_THERM.at (4 * d), x.therm)]

/-- A map of the dies that satisfy `p`. -/
def dieMap (p : Nat → Bool) : Nat := ((List.range 8).map (fun d => if p d then 2 ^ d else 0)).sum

/-- TSTAT, HOTTEST and STEP. -/
def showThm (s : State) (warn : Bool) : State :=
  let h := hottest s
  let s := s.setFlds pgThm [(THM_TSTAT_HOT, dieMap (fun d => (s.thmDie d).hot)),
    (THM_TSTAT_CLAMPED, dieMap (fun d => (s.thmDie d).clamp != 0)),
    (THM_TSTAT_HOLD_N, if s.thm.holds.any (· < 4) then 1 else 0), (THM_TSTAT_HOLD_S, if s.thm.holds.any (4 ≤ ·) then 1 else 0),
    (THM_TSTAT_REQ, s.pins.throtLow.toNat), (THM_TSTAT_WARN, warn.toNat), (THM_TSTAT_BROKEN, min 255 s.thm.broken.length),
    (THM_HOTTEST_SENSOR, h.1), (THM_HOTTEST_TEMP, wrapInt 12 h.2)]
  (List.range 8).foldl showDie s

/-- All of the controller's registers after its pages were reset; WARN as it stood. -/
def showAll (s : State) (warn : Bool) : State := showThm ((s.thm.temps.map (·.1)).foldl showSensor s) warn

/-! ### Resets of blocks -/


/-- What memory holds after its power or its codes were lost: every byte that was listed has a free value (log entry 56). -/
def scramble (draw : Nat) (m : Memory) : Memory :=
  (m.mapIdx (fun i e => (e.1, BitVec.ofNat 8 (Config.freeNat (draw + i))))).filter (fun e => e.2 != 0)

/-- The steps in effect stand while the controller runs on through a reset (R447, R454). -/
def keepSteps (old s : State) : State :=
  s.setFlds pgPwr ((List.range 8).map (fun d => (PWR_STEP_EFF.at (4 * d), old.fld pgPwr (PWR_STEP_EFF.at (4 * d)))))

/-- Every block but the pages that `keep` selects is reset (R435, R518). -/
def resetBlocks (s : State) (keep : Nat → Bool) : State :=
  let crit := s.reg pgThm 0x10C
  let vin := s.fld pgPwr PWR_PIN_VIN
  let warn := s.flag pgThm THM_TSTAT_WARN
  let s := s.dropPages (fun p => !keep p)
  let s : State := { s with
    mem := scramble s.draw s.mem, draw := s.draw + s.mem.length, plates := []
    plateCodes := Codes.init, sramCodes := Codes.init
    flags := [], fpois := [], cores := [], cmds := [], aqts := [], net := NetSt.init, coll := CollSt.init, mbr := MbrSt.init
    lanes := [], rings := [], dies := [], alloc := AllocSt.init, events := [], sec := SecSt.init, dbgRestart := false
    host := { HostSt.init with incarn := s.host.incarn } }
  showAll ((s.setReg pgThm 0x10C crit).setFld pgPwr PWR_PIN_VIN vin) warn

/-- The hub after a reset that keeps the FLT page: the log, the pin and the held events stay; the traps go with the EAS page and
pending reactions with the fault state. -/
def Hub.afterReset (h : Hub) : Hub := { h with traps := [], entries := [], crst := false, brst := [], withheld := false }

/-- An exit (R435, R495). The hub counts it; time counts on in holdover, and the epoch boundaries it has passed are not applied again. -/
def exitReset (s : State) : State :=
  let s := keepSteps s (resetBlocks s (fun p => p == pgFlt || p == pgHpt || p == pgTim))
  let s := s.setFlds pgFlt [(FLT_FSTAT_FAULT, 0), (FLT_FSTAT_QUIET, 0), (FLT_FSTAT_RCOUNT, min 255 (s.fld pgFlt FLT_FSTAT_RCOUNT + 1))]
  let s := { s.bump pgFlt 1 with
    hub := s.hub.afterReset, tim := { s.tim with heard := [], dead := [], heardAt := [] }, alloc := { s.alloc with num := timeNs s / 1000000 } }
  let s := (elect s).setFld pgTim TIM_TSTAT_HOLDOVER 1
  s.setFld pgSec SEC_BSTAT_WARM 1

/-- MOD_RESET_N: every page but FLT, of which FAULT, LATCHED, QUIET and EXIT_REF clear (R437, R518). -/
def moduleReset (s : State) : State :=
  let s := keepSteps s (resetBlocks s (fun p => p == pgFlt))
  let s := s.setFlds pgFlt [(FLT_FSTAT_FAULT, 0), (FLT_FSTAT_LATCHED, 0), (FLT_FSTAT_QUIET, 0), (FLT_FSTAT_EXIT_REF, 0)]
  { s with hub := s.hub.afterReset, time := ⟨0, 0, 0⟩, tim := TimSt.init,
           pins := { s.pins with ppsHigh := false, strobeLeft := 0 } }

/-- The rails go off: no state is saved (R541). The always-on domain goes on with the coolant sensors (R447); ERR_N is
released unless `err` holds it (R461). -/
def powerDown (s : State) (err : Bool) : State :=
  let cool (m : SMap Int) : SMap Int := m.filter (fun e => e.1 == 107 || e.1 == 108)
  let s : State := { s with
    thm := { ThmSt.init with
      temps := cool s.thm.temps, hist := s.thm.hist.map cool
      broken := s.thm.broken.filter (fun e => e.1 == 107 || e.1 == 108)
      warned := s.thm.warned.filter (fun e => e.1 == 33), crit := s.thm.crit.filter (fun e => e.1 == 33), clock := s.thm.clock }
    pins := { s.pins with pwrGood := false, errLow := err, throtLow := false, ppsHigh := false, strobeLeft := 0 } }
  let s := resetBlocks s (fun _ => false)
  { s with hub := Hub.init, host := HostSt.init, time := ⟨0, 0, 0⟩, tim := TimSt.init }

/-! ### The fault state (R432, R433) -/

/-- Every entry changed by `f`; entries that come to equal `d` are not listed. -/
def smMap {α : Type} [DecidableEq α] (d : α) (f : α → α) (m : SMap α) : SMap α :=
  (m.map (fun e => (e.1, f e.2))).filter (fun e => e.2 ≠ d)

/-- A core's engines abandon their commands; the window stays. -/
def CoreSt.abandon (x : CoreSt) : CoreSt :=
  let arr (a : ArrSt) : ArrSt := { a with queue := [] }
  let eng (a : EngSt) : EngSt := { a with queue := [] }
  { x with arr0 := arr x.arr0, arr1 := arr x.arr1, arr2 := arr x.arr2, arr3 := arr x.arr3, vec := eng x.vec,
           dma0 := eng x.dma0, dma1 := eng x.dma1, skm := eng x.skm, ctl := [], tracker := [], inbound := [] }

/-- An aquatint engine stops: an ALOAD past its second step leaves no matrix (R164). -/
def abandonAqt (s : State) (e : Nat) : State :=
  let gone := match (s.aqt e).phase with
    | .settle (.load _) _ | .check (.load _) _ => true
    | _ => false
  let s := s.setFlds (pgAqt e) [(AQT_STAT_LOADING, 0), (AQT_STAT_RECAL, 0)]
  let s := if gone then s.setFlds (pgAqt e) [(AQT_MATRIX_ID, 0), (AQT_MSCALE, 0), (AQT_STAT_READY, 0)] else s
  s.modAqt e (fun x => { x with queue := [], phase := .idle, acal := none, confirm := [], resident := x.resident && !gone })

/-- Packets that wait at this device as source, and those received for it or held for others, go (R433). -/
def abandonNet (s : State) : State :=
  let s := s.net.rxq.foldl freeRx s
  let s := s.net.fwd.foldl (fun s r => errOcc (freeRx s r) pgFab 3 0) s
  { s with net := { s.net with
      rxq := [], fwd := [], xdma := [], coll := [], pulls := [], pullq := []
      tx := smMap TxDst.init (fun x => { x with wait := [], held := [], out := [], pullSlots := [] }) s.net.tx
      trees := smMap TreeSt.init (fun x => { x with wait := [], held := [], out := [] }) s.net.trees } }

/-- Engines' writes that wait at a mesh port have left their engines, so they commit; writes of packets do not (R433). -/
def commitWaiting (s : State) : State :=
  (s.cores.flatMap (fun e => e.2.inbound.filter (fun r => r.ack.isNone))).foldl (fun s r => putParts r.parts r.pois s) s

/-- Everything that R433 stops at once. -/
def abandonAll (s : State) : State :=
  let s := commitWaiting s
  let s : State := { s with cores := smMap CoreSt.init CoreSt.abandon s.cores, cmds := [] }
  let s := (s.aqts.map (·.1)).foldl abandonAqt s
  let s := abandonNet s
  { s with coll := { s.coll with ctxs := [], voids := [], aborts := [] } }

end Sys2Proof.Machine
end

