-- ==== Sys2Proof/Machine/Faults.lean ====
section
/-!
DEFINITION. Faults: the occurrence at a checker, the page's registers, the fault hub and its reactions, ERR_N, the fault state and the exit
from it (R419 to R446).
-/

namespace Sys2Proof.Machine

/-! ### Occurrences -/

/-- The first command of an engine queue that has not ended fails with ECC_UNCORR, with the source its completion records;
where none runs the source is recorded at once (R143). -/
def failRunning (s : State) (c cls inst page src : Nat) : State :=
  match queueOf s c cls inst with
  | [] => errOcc s page src 0
  | id :: _ => s.modCmd id (fun x => x.failWith 4 0 (some (page, src)))

/-- Tracker parity: every open request of the core completes with ECC_UNCORR (R522). -/
def failRequests (s : State) (c : Nat) : State :=
  ((s.core c).tracker.map (fun t => (t.1, t.2.cmd))).foldl (fun s x =>
    settle ((freeSlot s c x.1).modCmd x.2 (fun y => y.failWith 4 0 (some (pgDma c, 1)))) x.2) s

/-- What a source does to commands and data beside its record, for the checkers that no other command of the device stands
for (R55, R97, R159, R191, R219, R307, R333, R363, R522). The low bits of `detail` say which array, DMA engine, flag, checker or
context the checker looks at. -/
def occur (s : State) (page src detail : Nat) : State :=
  match pageOf s.fuses.part page with
  | none => s
  | some (t, i) =>
    match t, src with
    | .arr, 0 | .arr, 1 => failRunning s i 0 (detail % 4) page src
    | .arr, 2 => errOcc (s.modCmd (((queueOf s i 0 (detail % 4)).head?).getD s.nextCmd) (fun x => x.failWith 4 0 none)) page src 0
    | .vec, 0 => failRunning s i 1 0 page src
    | .dma, 0 => failRunning s i 2 (detail % 2) page src
    | .dma, 1 => if (s.core i).tracker.isEmpty then errOcc s page src 0 else failRequests s i
    | .skm, 0 => failRunning s i 3 0 page src
    | .grv, 5 => errOcc (s.setFlagPois i (detail % 4096) true) page src detail
    | .mem, 4 => errOcc { s with net := { s.net with denied := smInsert s.net.denied detail () } } page src detail
    | .xdm, 2 => failRunning s 0 4 i page src
    | .aqt, 7 => goOos s i 3 (some (page, 7))
    | .col, 3 => decide_ s (4 * i + detail % 4) 2
    | .plt, 3 => losePlate s i 3 (detail % 64)
    | .plt, 4 => losePlate s i 4 (detail % 64)
    | .flt, 10 => errOcc { s with hub := { s.hub with csrBad := true } } page src detail
    | .fab, 7 =>
      let s := match s.net.fwd with
        | r :: rest => freeRx { s with net := { s.net with fwd := rest } } r
        | [] => s
      errOcc s page src 0
    | _, _ => errOcc s page src detail

/-- ERROR_OCCURRENCE. -/
def doErrorOccurrence (page : BitVec 16) (src : Fin 32) (detail : BitVec 16) (s : State) : State :=
  occur s page.toNat src.val detail.toNat

/-! ### The page's registers (R420 to R425, R438 to R441) -/

/-- ERR_FIRST_READ. -/
def doErrFirstRead (page : BitVec 16) (s : State) : State :=
  { s with hub := { s.hub with arrived := smErase s.hub.arrived page.toNat } }

/-- ERR_FIRST_CLEAR. -/
def doErrFirstClear (page : BitVec 16) (v : Word) (s : State) : State :=
  let p := page.toNat
  if bitAt v 31 && s.flag p ERR_FIRST_VALID && bits v 23 16 == s.fld p ERR_FIRST_MCOUNT && !smHas s.hub.arrived p then
    (s.setFlds p [(ERR_FIRST_VALID, 0), (ERR_FIRST_MCOUNT, 0)]).setReg p 0x030 0
  else s

/-- Pages with a block reset. -/
def hasBrst : PageType → Bool
  | .arr | .vec | .dma | .skm => true
  | _ => false

/-- The reaction bits and RATE a write asks of an ERR_ACTION word: bits of a UF source that cannot be cleared stand, and BRST
is absent from most pages. -/
def actionAsked (t : PageType) (cls : Nat) (v : Word) : Nat :=
  let n := bits v 5 0
  let n := if cls = 2 then n ||| 0x31 else n
  if hasBrst t then n else n &&& 0x3B

/-- Does a write to a locked ERR_ACTION word carry a value other than a field's own (R519); BRST is no field of most pages. -/
def actionDiffers (t : PageType) (old v : Word) : Bool :=
  bits v 11 8 != bits old 11 8 || (if hasBrst t then bits v 5 0 else bits v 5 0 &&& 0x3B) != bits old 5 0

/-- ERR_ACTION_WRITE: a value that differs from a locked field's own is recorded, a RATE that the class does not have is refused, and the
count of RATE restarts (R420, R421, R430, R519). -/
def doErrActionWrite (page : BitVec 16) (src : Fin 32) (v : Word) (s : State) : State :=
  let p := page.toNat
  let off := actionOff src.val
  match pageOf s.fuses.part p with
  | none => s
  | some (t, _) =>
    match sourceOf t src.val with
    | none => s
    | some (cls, _, _) =>
      let s := { s with hub := { s.hub with rate := smErase s.hub.rate (32 * p + src.val) } }
      let old := s.reg p off
      let rate := bits v 11 8
      let bad := cls ≠ 0 ∧ rate ≠ 0
      let new := putBits (putBits old 5 0 (actionAsked t cls v)) 11 8 (if bad then bits old 11 8 else rate)
      if s.flag p PG_CTRL_LOCK then (if actionDiffers t old v then s.noteReject p off true else s)
      else
        let s := s.setReg p off new
        if bad then s.noteReject p off false else s

/-- Is an arming refused (R441). -/
def injectRefused (s : State) (p : Nat) (v : Word) : Bool :=
  let mode := bits v 11 10
  let src := (pageOf s.fuses.part p).bind (fun t => sourceOf t.1 (bits v 4 0))
  !s.flag pgFlt FLT_FCTRL_INJ_EN || mode == 3
    || (match src with
        | none => true
        | some (_, chk, _) => decide (mode < 2) && (!chk || bits v 14 12 == 0))

/-- ERR_INJECT_ARM: a write to ERR_INJECT (R438 to R441). -/
def doErrInjectArm (page : BitVec 16) (v : Word) (s : State) : State :=
  let p := page.toNat
  let mode := bits v 11 10
  if (pageOf s.fuses.part p).isNone then s
  else if bitAt v 8 && injectRefused s p v then (s.setFld p ERR_INJECT_REFUSED 1).noteReject p 0x028 false
  else
    let s := if bitAt v 15 then s.setFld p ERR_INJECT_REFUSED 0 else s
    let s := s.setFlds p [(ERR_INJECT_NSYM, bits v 14 12), (ERR_INJECT_SOURCE, bits v 4 0), (ERR_INJECT_ARM, bits v 8 8)]
    let s := if mode = 3 then s.noteReject p 0x028 false else s.setFld p ERR_INJECT_MODE mode
    if bitAt v 8 && mode == 2 then errOcc (s.setFld p ERR_INJECT_ARM 0) p (bits v 4 0) 0 else s

/-! ### The fault hub -/

/-- A log entry's 16 bytes (R426). -/
def Report.bytes (r : Report) : List Byte :=
  leBytes 4 (r.page + 2 ^ 20 * r.src + 2 ^ 25 * r.cls + 2 ^ 27 * r.merged.toNat) ++ leBytes 2 r.detail
    ++ leBytes 1 r.actions ++ [0] ++ leBytes 4 r.ns ++ leBytes 4 r.sec

/-- The entry in the ring of 64, and LOG_HEAD. -/
def writeLog (s : State) (r : Report) : State :=
  let k := s.fld pgFlt FLT_LOG_HEAD
  let b := r.bytes
  let s := (List.range 4).foldl (fun s i => s.setReg pgFlt (0x400 + 16 * (k % 64) + 4 * i) (BitVec.ofNat 32 (leAt b (4 * i) 4))) s
  s.setFld pgFlt FLT_LOG_HEAD (k + 1)

/-- ORIGIN of a page (R488). -/
def pageOrigin (p : Nat) : Nat := if p < 0x4800 then originOf (p / 8) 0 0 % 4096 else 0xFFF

/-- A FAULT event for the host. -/
def faultEvent (s : State) (r : Report) (count : Nat) : State :=
  queueEvent (s.bump pgFlt 2)
    { kind := 4, count := min count 0xFFFF, ns := r.ns, sec := r.sec % 2 ^ 32, origin := pageOrigin r.page, data := 0, log := r.bytes }

def setHold (s : State) (k : Nat) (h : Option IrqHold) : State :=
  { s with hub := { s.hub with hold := match h with | some x => smInsert s.hub.hold k x | none => smErase s.hub.hold k } }

/-- The IRQ reaction and its hold (R427, R431). -/
def reactIrq (s : State) (r : Report) : State :=
  let k := 32 * r.page + r.src
  if r.cls = 2 then faultEvent s r 0
  else match smFind s.hub.hold k with
    | some h => setHold (s.bump pgFlt 3) k (some ⟨h.count + 1, some r⟩)
    | none => setHold (faultEvent s r 0) k (some ⟨0, none⟩)

/-- The TRAP reaction: the queue takes 64 (R427). -/
def reactTrap (s : State) (r : Report) : State :=
  if s.hub.traps.length < 64 then
    let s := { s.bump pgFlt 4 with hub := { s.hub with traps := s.hub.traps ++ [r] } }
    s.setFld pgEas EAS_TRAPQ_DEPTH s.hub.traps.length
  else
    errOcc (s.setFld pgFlt FLT_FSTAT_TRAP_OVF 1) pgFlt 15 0

/-- May an exit follow (R436). -/
def exitAllowed (s : State) : Bool :=
  s.inFault && decide (s.fld pgFlt FLT_FSTAT_RCOUNT < s.fld pgFlt FLT_FCTRL_RLIMIT) && !s.flag pgFlt FLT_FSTAT_LATCHED

/-- The automatic exit, or the record that RCOUNT withholds it (R436). -/
def autoExit (s : State) : State :=
  if !(s.inFault && s.flag pgFlt FLT_FSTAT_QUIET && s.flag pgFlt FLT_FCTRL_AUTO && !s.flag pgFlt FLT_FSTAT_LATCHED) then s
  else if exitAllowed s then exitReset s
  else if s.hub.withheld then s
  else errOcc { s with hub := { s.hub with withheld := true } } pgFlt 14 0

/-- Does an entering report fill FCAUSE: the first, or of two of one instant that of the lower PAGE (R444). -/
def entersFirst (s : State) (r : Report) : Bool :=
  match s.hub.entries with
  | [] => true
  | h :: _ => h.ns == r.ns && h.sec == r.sec && decide (r.page < h.page)

/-- An occurrence with FSTATE or CRST reaches the hub: the first fills FCAUSE and waits for the entry, a later one restarts the
quiet period (R432, R434, R444). -/
def noteFault (s : State) (r : Report) : State :=
  let s := if r.latch then s.setFld pgFlt FLT_FSTAT_LATCHED 1 else s
  if s.inFault then (if r.actions.testBit 5 then s.setFld pgFlt FLT_FSTAT_QUIET 0 else s)
  else
    let first := entersFirst s r
    let s := if first then
        s.setFlds pgFlt [(FLT_FCAUSE_VALID, 1), (FLT_FCAUSE_CLASS, r.cls), (FLT_FCAUSE_SOURCE, r.src), (FLT_FCAUSE_PAGE, r.page)]
      else s
    { s with hub := { s.hub with
        entries := if first then r :: s.hub.entries else s.hub.entries ++ [r], crst := s.hub.crst || r.actions.testBit 3 } }

/-- A CRST during the fault state exits at once where it may (R436). -/
def reactState (s : State) (r : Report) : State :=
  let s := noteFault s r
  if s.inFault && r.actions.testBit 3 && exitAllowed s then exitReset s else s

/-- The reactions of a report other than those of the fault state. -/
def react (s : State) (r : Report) : State :=
  let s := if r.actions.testBit 0 then reactIrq s r else s
  let s := if r.actions.testBit 1 then reactTrap s r else s
  let s : State := if r.actions.testBit 2 ∧ !s.hub.brst.contains r.page then
      { s with hub := { s.hub with brst := s.hub.brst ++ [r.page] } } else s
  if r.actions.testBit 4 then { s with hub := { s.hub with pinReq := s.hub.pinReq + 1 } } else s

/-- FAULT_HUB_REPORT: the oldest report is logged and its reactions taken. -/
def doFaultHubReport (s : State) : State :=
  match s.hub.reports with
  | [] => s
  | r :: rest =>
    let s := react (writeLog { s with hub := { s.hub with reports := rest } } r) r
    if r.actions.testBit 5 || r.actions.testBit 3 then reactState s r
    else if r.latch && s.inFault then s.setFld pgFlt FLT_FSTAT_LATCHED 1
    else s

/-- TRAP_TAKE. -/
def doTrapTake (s : State) : State :=
  let s := { s with hub := { s.hub with traps := s.hub.traps.drop 1 } }
  s.setFld pgEas EAS_TRAPQ_DEPTH s.hub.traps.length

/-- IRQ_HOLD_EXPIRY. -/
def doIrqHoldExpiry (page : BitVec 16) (src : Fin 32) (s : State) : State :=
  let k := 32 * page.toNat + src.val
  match smFind s.hub.hold k with
  | none => s
  | some ⟨n, some r⟩ => setHold (faultEvent s r n) k (some ⟨0, none⟩)
  | some ⟨_, none⟩ => setHold s k none

/-! ### Block reset (R428) -/

/-- The instances of an engine class of a core. -/
def blockInsts : Nat → List Nat
  | 0 => [0, 1, 2, 3] | 2 => [0, 1] | _ => [0]

/-- A queued or running command ends with the status it has, or ECC_UNCORR, and completes; an array command counts (R55). -/
def resetCmd (s : State) (id : Nat) : State :=
  if smHas s.cmds id then
    let s := if descOpcode (s.cmd id).desc = 0x10 then s.bump (pgArr (s.cmd id).core) 7 else s
    complete (s.modCmd id (fun x => { x with status := if x.status = 0 then 4 else x.status, ran := true, left := 0 })) id 0
  else s

/-- Remote requests of a command are forgotten: answers that arrive later match no open request. -/
def forgetRequests (s : State) (c : Nat) (ids : List Nat) : State :=
  ((s.core c).tracker.filter (fun t => ids.contains t.2.cmd)).foldl (fun s t => freeSlot s c t.1) s

/-- BLOCK_RESET of an ARR, VEC, DMA or SKM page, by class 0 to 3. -/
def doBlockReset (c : CoreId) (cls : Fin 4) (s : State) : State :=
  let page := 8 * c.val + 1 + cls.val
  if !s.hub.brst.contains page then s
  else
    let s : State := { s with hub := { s.hub with brst := s.hub.brst.filter (· != page) } }
    let ids := ((blockInsts cls).flatMap (fun i => queueOf s c cls i)).eraseDups
    let s := if cls = 2 then forgetRequests s c ids else s
    let s := ids.foldl resetCmd s
    if cls = 0 then s.modCore c (fun x => (List.range 4).foldl (fun x a =>
        x.setArr a { x.arr a with bankA := Bank.init, bankB := Bank.init, shade := .idle, density := 0, gap := false }) x)
    else s

/-! ### ERR_N (R429) -/

/-- The pin goes low. -/
def pinLow (s : State) : State :=
  let s := s.setFlds pgFlt [(FLT_PIN_CTL_HOLD, 1), (FLT_PIN_CTL_LEVEL, 1)]
  { s with pins := { s.pins with errLow := true }, hub := { s.hub with phase := .lowMin, relPend := false, deferred := false } }

/-- The pin is released. -/
def pinHigh (s : State) : State :=
  let s := s.setFlds pgFlt [(FLT_PIN_CTL_HOLD, 0), (FLT_PIN_CTL_LEVEL, 0)]
  { s with pins := { s.pins with errLow := false }, hub := { s.hub with phase := .released, relPend := false } }

/-- ERR_N_ASSERT: one PIN reaction. -/
def doErrNAssert (s : State) : State :=
  if s.hub.pinReq = 0 then s
  else
    let s : State := { s with hub := { s.hub with pinReq := s.hub.pinReq - 1 } }
    match s.hub.phase with
    | .high => pinLow s
    | .lowMin | .low => { s.setFld pgFlt FLT_PIN_CTL_HOLD 1 with hub := { s.hub with relPend := false } }
    | .released => { s with hub := { s.hub with deferred := true } }

/-- ERR_N_MIN_EXPIRY: the 20 µs mark. -/
def doErrNMinExpiry (s : State) : State :=
  if s.hub.phase = .lowMin then
    if s.hub.relPend then pinHigh s else { s with hub := { s.hub with phase := .low } }
  else s

/-- ERR_N_HIGH_EXPIRY: 10 µs after a release. -/
def doErrNHighExpiry (s : State) : State :=
  if s.hub.phase = .released then
    if s.hub.deferred then pinLow s else { s with hub := { s.hub with phase := .high } }
  else s

/-- PIN_HOLD_RELEASE: HOLD = 1 is written. -/
def doPinHoldRelease (s : State) : State :=
  if !s.flag pgFlt FLT_PIN_CTL_HOLD then s
  else match s.hub.phase with
    | .lowMin => { s.setFld pgFlt FLT_PIN_CTL_HOLD 0 with hub := { s.hub with relPend := true } }
    | .low => pinHigh s
    | _ => s.setFld pgFlt FLT_PIN_CTL_HOLD 0

/-! ### The fault state (R432 to R437) -/

/-- FAULT_STATE_ENTRY: entry is complete. A CRST among the causes exits at once where it may. -/
def doFaultStateEntry (s : State) : State :=
  match s.hub.entries with
  | [] => s
  | r :: _ =>
    let crst := s.hub.crst
    let s := s.setFlds pgFlt [(FLT_FSTAT_FAULT, 1), (FLT_FSTAT_QUIET, 0), (FLT_FT_NS, s.time.ns), (FLT_FT_SEC, s.time.sec % 2 ^ 32)]
    let s : State := { s.bump pgFlt 0 with hub := { s.hub with entries := [], crst := false, withheld := false } }
    let s := queueEvent s { devEvent s 5 (s.reg pgFlt 0x108).toNat with ns := r.ns, sec := r.sec % 2 ^ 32 }
    let s := doCircuitsSend (elect (abandonAll s))
    if crst && exitAllowed s then exitReset s else s

/-- QUIET_EXPIRY. -/
def doQuietExpiry (s : State) : State :=
  if s.inFault && !s.flag pgFlt FLT_FSTAT_QUIET then autoExit (s.setFld pgFlt FLT_FSTAT_QUIET 1) else s

/-- FCTRL_EXIT_WRITE. -/
def doFctrlExitWrite (s : State) : State :=
  if s.inFault && s.flag pgFlt FLT_FSTAT_QUIET && !s.flag pgFlt FLT_FSTAT_LATCHED then exitReset s
  else s.setFld pgFlt FLT_FSTAT_EXIT_REF 1

/-- FCTRL_RCLR. -/
def doFctrlRclr (s : State) : State := autoExit (s.setFld pgFlt FLT_FSTAT_RCOUNT 0)

/-! ### Meanings -/

/-- ERROR_OCCURRENCE. -/
def execErrorOccurrence (page : BitVec 16) (src : Fin 32) (detail : BitVec 16) (s : State) : Res := .next (powered (doErrorOccurrence page src detail) s)

/-- ERR_FIRST_READ. -/
def execErrFirstRead (page : BitVec 16) (s : State) : Res := .next (powered (doErrFirstRead page) s)

/-- ERR_FIRST_CLEAR. -/
def execErrFirstClear (page : BitVec 16) (v : Word) (s : State) : Res := .next (powered (doErrFirstClear page v) s)

/-- ERR_ACTION_WRITE. -/
def execErrActionWrite (page : BitVec 16) (src : Fin 32) (v : Word) (s : State) : Res := .next (powered (doErrActionWrite page src v) s)

/-- ERR_INJECT_ARM. -/
def execErrInjectArm (page : BitVec 16) (v : Word) (s : State) : Res := .next (powered (doErrInjectArm page v) s)

/-- FAULT_HUB_REPORT. -/
def execFaultHubReport (s : State) : Res := .next (powered doFaultHubReport s)

/-- TRAP_TAKE. -/
def execTrapTake (s : State) : Res := .next (powered doTrapTake s)

/-- IRQ_HOLD_EXPIRY. -/
def execIrqHoldExpiry (page : BitVec 16) (src : Fin 32) (s : State) : Res := .next (powered (doIrqHoldExpiry page src) s)

/-- BLOCK_RESET. -/
def execBlockReset (c : CoreId) (cls : Fin 4) (s : State) : Res := .next (powered (doBlockReset c cls) s)

/-- ERR_N_ASSERT. -/
def execErrNAssert (s : State) : Res := .next (powered doErrNAssert s)

/-- ERR_N_MIN_EXPIRY. -/
def execErrNMinExpiry (s : State) : Res := .next (powered doErrNMinExpiry s)

/-- ERR_N_HIGH_EXPIRY. -/
def execErrNHighExpiry (s : State) : Res := .next (powered doErrNHighExpiry s)

/-- PIN_HOLD_RELEASE. -/
def execPinHoldRelease (s : State) : Res := .next (powered doPinHoldRelease s)

/-- FAULT_STATE_ENTRY. -/
def execFaultStateEntry (s : State) : Res := .next (powered doFaultStateEntry s)

/-- QUIET_EXPIRY. -/
def execQuietExpiry (s : State) : Res := .next (powered doQuietExpiry s)

/-- FCTRL_EXIT_WRITE. -/
def execFctrlExitWrite (s : State) : Res := .next (powered doFctrlExitWrite s)

/-- FCTRL_RCLR. -/
def execFctrlRclr (s : State) : Res := .next (powered doFctrlRclr s)

end Sys2Proof.Machine
end

