-- ==== Sys2Proof/Machine/Thermal.lean ====
section
/-!
DEFINITION. Temperature and power: sensors, thresholds, throttle steps, clamps and holds, the critical reaction, and the power states of
idle blocks (R447 to R466).
-/

namespace Sys2Proof.Machine

/-! ### Sensors and members (R447, R448, R451, R455) -/

/-- Class of a sensor; 5 for the outlet, which has no thresholds. -/
def sensorClass (n : Nat) : Nat :=
  if n < 72 then 0 else if n < 88 then 1 else if n < 104 then 2 else if n = 107 then 4 else if n = 108 then 5 else 3

/-- Does the part have the sensor. -/
def sensorFitted (f : Fuses) (n : Nat) : Bool :=
  if n < 72 then true
  else if n < 88 then f.part.plateMap.testBit (n - 72)
  else if n < 104 then f.part.stlMap.testBit ((n - 88) / 2)
  else decide (n < 113)

/-- Is the sensor monitored: the coolant sensors from 54 V on, every other from PWR_GOOD on. -/
def monitored (s : State) (n : Nat) : Bool :=
  sensorFitted s.fuses n && (if n = 107 ∨ n = 108 then s.pins.vin else s.pins.pwrGood)

/-- The member of a sensor. -/
def memberOf (n : Nat) : Option Nat :=
  if n < 72 then some (n / 9) else if n < 88 then some (n - 64) else if n < 104 then some (24 + (n - 88) / 2)
  else if n = 107 then some 33 else if n = 108 then none else some 32

/-- The compute dies a member maps to. -/
def memberDies (m : Nat) : List Nat :=
  if m < 8 then [m] else if m < 24 then [(m - 8) / 2] else if m < 32 then [m - 24] else List.range 8

/-- The class whose thresholds a member has. -/
def memberClass (m : Nat) : Nat := if m < 8 then 0 else if m < 24 then 1 else if m < 32 then 2 else if m = 32 then 3 else 4

/-- The highest reading of each member, with its sensor. -/
def memberTemps (s : State) : SMap (Int × Nat) :=
  s.thm.temps.foldl (fun m e =>
    match memberOf e.1 with
    | none => m
    | some k => match smFind m k with
      | some (t, _) => if t < e.2 then smInsert m k (e.2, e.1) else m
      | none => smInsert m k (e.2, e.1)) []

/-- A write to TCFG, TCFG2 or THR takes effect at the next sample (R467). -/
def latchThm (s : State) : State :=
  { s with thm := { s.thm with cfg := [0x100, 0x110, 0x120, 0x124, 0x128, 0x12C, 0x130].map (fun o => (o, s.reg pgThm o)) } }

/-- A field of TCFG, TCFG2 or THR in effect. -/
def thmFld (s : State) (f : Fld) : Nat := bits ((smFind s.thm.cfg f.off).getD (s.reg pgThm f.off)) f.hi f.lo

/-- A threshold of a member, in units of 0.125 °C. -/
def threshold (s : State) (f : Fld) (m : Nat) : Int := 8 * (thmFld s (f.at (4 * memberClass m)) : Nat)

/-- The hysteresis of a member's class, in units of 0.125 °C. -/
def hysteresis (s : State) (m : Nat) : Int := threshold s THM_THR_HYST m

/-! ### Events (R457) -/

/-- The payload of a thermal event and the event itself. -/
def thermalEvent (s : State) (code : Nat) : State :=
  let h := hottest s
  queueEvent s (devEvent s 6 (code + 2 ^ 8 * h.1 + 2 ^ 16 * wrapInt 12 h.2 + 2 ^ 32 * dieMap (fun d => (s.thmDie d).hot)
    + ((List.range 8).map (fun d => effStep s d * 2 ^ (40 + 3 * d))).sum))

/-- THROT_N follows the dies (R457). -/
def syncThrot (s : State) : State :=
  let want := (List.range 8).any (fun d => let x := s.thmDie d; x.hot || x.therm != 0 || x.clamp != 0)
  if want = s.pins.throtLow then s
  else
    let s : State := { s with pins := { s.pins with throtLow := want } }
    let s := if want then errOcc s pgThm 1 0 else s
    thermalEvent (s.setFld pgThm THM_TSTAT_REQ want.toNat) (if want then 1 else 2)

/-- The controller's registers and THROT_N after a change. -/
def settleThm (s : State) : State := showThm (syncThrot s) (s.flag pgThm THM_TSTAT_WARN)

/-! ### Critical temperature (R461) -/

/-- The critical reaction: CRIT_LOG, the source, and the rails off until PWR_EN falls, with ERR_N held low. -/
def critical (s : State) (n : Nat) (t : Int) : State :=
  let s := s.setFlds pgThm [(THM_CRIT_LOG_VALID, 1), (THM_CRIT_LOG_BROKEN, if smHas s.thm.broken n then 1 else 0),
    (THM_CRIT_LOG_SENSOR, n), (THM_CRIT_LOG_TEMP, wrapInt 12 t)]
  let s := powerDown (errOcc s pgThm 5 0) true
  { s with pins := { s.pins with lockout := true } }

/-! ### Thresholds (R452, R455, R456) -/

/-- WARN of a member. -/
def warnMember (s : State) (m : Nat) (t : Int) : State :=
  if threshold s THM_THR_WARN m ≤ t then
    if smHas s.thm.warned m then s
    else errOcc ({ s with thm := { s.thm with warned := smInsert s.thm.warned m () } }.bump pgThm 0) pgThm 0 0
  else if t < threshold s THM_THR_WARN m - hysteresis s m then
    { s with thm := { s.thm with warned := smErase s.thm.warned m } }
  else s

/-- Members mapped to a die, the power limit apart. -/
def dieMembers (ts : SMap (Int × Nat)) (d : Nat) : SMap (Int × Nat) := ts.filter (fun e => (memberDies e.1).contains d)

/-- The rules of a die whose members are as they are: hot, cool, and the start and stop of its grace (R456 rules 1, 2 and 4). -/
def dieRule (s : State) (ts : SMap (Int × Nat)) (d : Nat) : State :=
  let l := dieMembers ts d
  let hot := s.thm.plimHot || l.any (fun e => decide (threshold s THM_THR_THROT e.1 ≤ e.2.1))
  let cool := s.thm.plimCool && l.all (fun e =>
    decide (e.2.1 < threshold s THM_THR_THROT e.1 - hysteresis s e.1))
  s.modThmDie d (fun x => { x with
    hot := hot, cool := cool, grace := (x.grace && !cool) || (hot && !x.hot && x.therm == 0) })

/-- A member that reaches CRIT. -/
def newCrit (s : State) (ts : SMap (Int × Nat)) : Option (Nat × Int × Nat) :=
  ts.find? (fun e => decide (threshold s THM_THR_CRIT e.1 ≤ e.2.1) && !smHas s.thm.crit e.1)

/-- The thresholds compared with the readings. Occurrences of one sample are recorded by their source (R424): between those of WARN and
THROT_N and that of CRIT stand `rising` new excesses of RATE and `broken` sensors judged broken. -/
def evaluateWith (s : State) (rising broken : Nat) : State :=
  let ts := memberTemps s
  let s := ts.foldl (fun s e => warnMember s e.1 e.2.1) s
  let warn := ts.any (fun e => decide (threshold s THM_THR_WARN e.1 ≤ e.2.1))
  let s := s.setFld pgThm THM_TSTAT_WARN warn.toNat
  let s := (List.range 8).foldl (fun s d => dieRule s ts d) s
  let hit := newCrit s ts
  let atCrit : SMap Unit := (ts.filter (fun e => decide (threshold s THM_THR_CRIT e.1 ≤ e.2.1))).map (fun e => (e.1, ()))
  let s := settleThm { s with thm := { s.thm with crit := atCrit } }
  let s := (List.replicate rising 3 ++ List.replicate broken 4).foldl (fun s k => errOcc s pgThm k 0) s
  match hit with
  | some (_, t, n) => critical s n t
  | none => s

/-- The thresholds compared with readings that brought nothing else. -/
def evaluate (s : State) : State := evaluateWith s 0 0

/-! ### Rate of rise (R458) -/

/-- The clamp of a die begins, or is raised again. -/
def beginClamp (s : State) (d : Nat) : State :=
  let new := !(s.thmDie d).clamping
  let v := s.fld pgPwr PWR_PCTRL_CLAMP_STEP
  let s := s.modThmDie d (fun x => { x with clamping := true, clamp := v })
  if new then
    let s := (s.bump pgPwr 1).bump pgPwr 0
    thermalEvent { s with mbr := { s.mbr with enforced := s.mbr.enforced + 1 } } 4
  else s

/-- A transmit hold is ordered on Strelist positions of one side. -/
def beginHold (s : State) (ks : List Nat) : State :=
  let ks := ks.filter (fun k => s.fuses.part.stlMap.testBit k && !s.thm.holds.contains k)
  match ks with
  | [] => s
  | k :: _ =>
    let fresh := !s.thm.holds.any (fun j => j / 4 == k / 4)
    let s : State := { s with thm := { s.thm with holds := s.thm.holds ++ ks } }
    if fresh then thermalEvent (s.bump pgPwr 2) 6 else s

/-- A sensor whose RATE has come to exceed the limit (THM source 3, which the round records). -/
def excess (s : State) (n : Nat) : State :=
  if n < 72 then beginHold (beginClamp s (n / 9)) ((List.range 4).map (fun j => n / 9 / 4 * 4 + j))
  else beginHold (beginClamp s ((n - 88) / 2)) [(n - 88) / 2]

/-- RATE in units of 0.125 °C/ms: over the last 25 samples, 0 until there are as many and for a broken sensor (R449, R450, log
entry 58). -/
def rateOf (s : State) (n : Nat) (t : Int) : Int :=
  if (sensorClass n = 0 ∨ sensorClass n = 2) ∧ !smHas s.thm.broken n then
    match (s.thm.hist[24]?).bind (fun h => smFind h n) with
    | some t0 => (t - t0) * 4
    | none => 0
  else 0

/-! ### The commands of the sensors -/

/-- A sensor is judged broken (R450; THM source 4, which the round records). -/
def breakSensor (s : State) (n cause : Nat) : State :=
  if smHas s.thm.broken n || !monitored s n then s
  else
    { s with thm := { s.thm with
      broken := smInsert s.thm.broken n cause, temps := smInsert s.thm.temps n brokenTemp, rates := smErase s.thm.rates n
      excess := smErase s.thm.excess n } }

/-- Sensors judged broken since `s`. -/
def newBroken (s t : State) : Nat := t.thm.broken.length - s.thm.broken.length

/-- One sensor's sample. -/
def takeSample (s : State) (x : Sample) : State :=
  if !monitored s x.sensor || smHas s.thm.broken x.sensor then s
  else if x.temp < -320 ∨ 1000 < x.temp then breakSensor s x.sensor 2
  else { s with thm := { s.thm with temps := smInsert s.thm.temps x.sensor x.temp } }

/-- Rates of a round, and the reaction to each new excess, with their number. -/
def takeRates (s : State) : Nat × State :=
  let rates := s.thm.temps.map (fun e => (e.1, rateOf s e.1 e.2))
  let lim : Int := (thmFld s THM_TCFG_ROR_LIMIT : Nat)
  let high := rates.filter (fun e => decide (lim < e.2))
  let fresh := high.filter (fun e => !smHas s.thm.excess e.1)
  let s : State := { s with thm := { s.thm with
    rates := rates.filter (fun e => e.2 != 0), excess := high.map (fun e => (e.1, ())), hist := (s.thm.temps :: s.thm.hist).take 26 } }
  (fresh.length, fresh.foldl (fun s e => excess s e.1) s)

/-- SENSOR_SAMPLE: one round. -/
def doSensorSample (samples : List Sample) (s : State) : State :=
  if !s.pins.vin then s
  else
    let old := s
    let s := samples.foldl takeSample ((latchThm s).bump pgThm 1)
    let broken := newBroken old s
    let (rising, s) := takeRates s
    evaluateWith ((s.thm.temps.map (·.1)).foldl showSensor s) rising broken

/-- A sensor fails its self-check, or is silent. -/
def sensorFails (s : State) (sensor cause : Nat) : State :=
  let t := breakSensor s sensor cause
  evaluateWith (showSensor t sensor) 0 (newBroken s t)

/-- SENSOR_SELF_CHECK. -/
def doSensorSelfCheck (sensor : Fin 128) (pass : Bool) (s : State) : State := if pass then s else sensorFails s sensor 1

/-- SENSOR_SILENT_EXPIRY. -/
def doSensorSilentExpiry (sensor : Fin 128) (s : State) : State := sensorFails s sensor 3

/-! ### Enforcement (R456) -/

/-- THERM of a die rises by one. -/
def raiseTherm (s : State) (d : Nat) : State :=
  let s := (s.modThmDie d (fun x => { x with therm := x.therm + 1 })).bump pgPwr 0
  let s : State := { s with mbr := { s.mbr with enforced := s.mbr.enforced + 1 } }
  settleThm (thermalEvent (errOcc s pgThm 2 0) 3)

/-- GRACE_EXPIRY. -/
def doGraceExpiry (d : DieId) (s : State) : State :=
  if !(s.thmDie d).grace then s
  else
    let s := s.modThmDie d (fun x => { x with grace := false })
    if (s.thmDie d).hot then raiseTherm s d else settleThm s

/-- ENFORCE_STEP_EXPIRY. -/
def doEnforceStepExpiry (d : DieId) (s : State) : State :=
  let x := s.thmDie d
  if x.hot && x.therm != 0 && decide (x.therm < 7) then raiseTherm s d else s

/-- RELIEF_STEP_EXPIRY. -/
def doReliefStepExpiry (d : DieId) (s : State) : State :=
  let x := s.thmDie d
  if x.cool && x.therm != 0 then settleThm (thermalEvent (s.modThmDie d (fun x => { x with therm := x.therm - 1 })) 3) else s

/-- POWER_LIMIT_AVERAGE. -/
def doPowerLimitAverage (watts : BitVec 16) (s : State) : State :=
  if !s.pins.vin then s
  else
    let s := s.setFld pgPwr PWR_PIN_POWER watts.toNat
    if !s.pins.pwrGood then s
    else
      let lim := s.fld pgPwr PWR_PLIMIT_WATTS
      let hot := decide (lim < watts.toNat)
      let s := if hot && !s.thm.plimHot then errOcc s pgPwr 0 0 else s
      evaluate { s with thm := { s.thm with plimHot := hot, plimCool := decide (100 * watts.toNat < 95 * lim) } }

/-- The largest of the contributions to a die's step (R454). -/
def wantedStep (s : State) (d : Nat) : Nat :=
  max (max (s.thmDie d).therm (s.thmDie d).clamp) (s.fld pgPwr PWR_PCTRL_CAP_STEP)

/-- THROTTLE_STEP_CHANGE: the effective step follows; under a clamp shading of the die's arrays stops at once (R453, R466). -/
def doThrottleStepChange (d : DieId) (s : State) : State :=
  let s := s.setFld pgPwr (PWR_STEP_EFF.at (4 * d)) (wantedStep s d)
  if (s.thmDie d).clamp = 0 then s
  else
    (s.cores.filter (fun e => e.1 / 288 == d.val)).foldl (fun s e => (List.range 4).foldl (fun s a =>
      s.modArr e.1 a (fun r => { r with shade := .idle, density := 0 })) s) s

/-- CAP_STEP_WRITE (R470). -/
def doCapStepWrite (step : Fin 8) (s : State) : State := s.setFld pgPwr PWR_PCTRL_CAP_STEP step

/-! ### End of clamps and holds (R459, R460) -/

/-- Is the RATE of every sensor of a list below half the limit. -/
def ratesLow (s : State) (ns : List Nat) : Bool :=
  ns.all (fun n => decide (2 * (smFind s.thm.rates n).getD 0 < (thmFld s THM_TCFG_ROR_LIMIT : Nat)))

/-- HOLD_RELEASE_EXPIRY of a side. -/
def doHoldReleaseExpiry (south : Bool) (s : State) : State :=
  let side := if south then 1 else 0
  let held := s.thm.holds.filter (fun k => k / 4 == side)
  let ns := (List.range 36).map (fun j => 36 * side + j) ++ held.flatMap (fun k => [88 + 2 * k, 89 + 2 * k])
  if held.isEmpty || !ratesLow s ns then s
  else settleThm (thermalEvent { s with thm := { s.thm with holds := s.thm.holds.filter (fun k => k / 4 != side) } } 7)

/-- CLAMP_END_EXPIRY. -/
def doClampEndExpiry (d : DieId) (s : State) : State :=
  let ns := (List.range 9).map (fun j => 9 * d.val + j) ++ [88 + 2 * d.val, 89 + 2 * d.val]
  if !(s.thmDie d).clamping || !ratesLow s ns then s
  else settleThm (thermalEvent (s.modThmDie d (fun x => { x with clamping := false, clamp := x.clamp - 1 })) 5)

/-- CLAMP_RELIEF_STEP. -/
def doClampReliefStep (d : DieId) (s : State) : State :=
  let x := s.thmDie d
  if x.clamping || x.clamp == 0 then s else settleThm (s.modThmDie d (fun x => { x with clamp := x.clamp - 1 }))

/-- Is a hold ordered on the die of a Strelist instance. -/
def holdOrdered (s : State) (d : Nat) : Bool := s.thm.holds.contains (s.fuses.part.stlPos d)

/-- TRANSMIT_HOLD_ORDER: the order reaches the die (R265). -/
def doTransmitHoldOrder (d : StlId) (s : State) : State := if holdOrdered s d then holdDie s d else s

/-- TRANSMIT_HOLD_RELEASE (R265). -/
def doTransmitHoldRelease (d : StlId) (s : State) : State := if holdOrdered s d then s else releaseDie s d

/-! ### Power states (R462 to R465) -/

/-- A block with power states: an array, an engine of a core, an aquatint engine, a plate. -/
inductive Sleeper where
  | arr (c a : Nat)
  | eng (c cls : Nat)
  | aqt (e : Nat)
  | plt (k : Nat)

/-- The block of a page; `sub` names an array. -/
def sleeperOf (s : State) (page sub : Nat) : Option Sleeper :=
  match pageOf s.fuses.part page with
  | some (.arr, i) => some (.arr i sub)
  | some (.vec, i) => some (.eng i 1)
  | some (.dma, i) => some (.eng i 2)
  | some (.skm, i) => some (.eng i 3)
  | some (.aqt, i) => some (.aqt i)
  | some (.plt, i) => some (.plt i)
  | _ => none

/-- Idle conditions of R463. -/
def sleeperIdle (s : State) : Sleeper → Bool
  | .arr c a => ((s.core c).arr a).queue.isEmpty && ((s.core c).arr a).density == 0
  | .eng c cls => (blockInsts cls).all (fun i => (queueOf s c cls i).isEmpty)
  | .aqt e => (s.aqt e).queue.isEmpty && (s.aqt e).phase == .idle
  | .plt k => (s.plate k).wq.isEmpty

/-- The wake triggers of R464; a plate's request stands behind the command itself. -/
def sleeperWanted (s : State) : Sleeper → Bool
  | .arr c a =>
    (s.core c).window.any (fun e => descClass e.desc == 0 && (arraysOf (descInst e.desc)).contains a) || !((s.core c).arr a).queue.isEmpty
  | .eng c cls => (s.core c).window.any (fun e => descClass e.desc == cls) || (blockInsts cls).any (fun i => !(queueOf s c cls i).isEmpty)
  | .aqt e => !(s.aqt e).queue.isEmpty || (s.aqt e).due
  | .plt _ => false

def powerOf (s : State) : Sleeper → Nat
  | .arr c a => ((s.core c).arr a).power
  | .eng c cls => ((s.core c).eng cls 0).power
  | .aqt e => (s.aqt e).power
  | .plt k => (s.plate k).power

def wakingOf (s : State) : Sleeper → Bool
  | .arr c a => ((s.core c).arr a).waking
  | .eng c cls => ((s.core c).eng cls 0).waking
  | .aqt e => (s.aqt e).waking
  | .plt k => (s.plate k).waking

/-- The block's power state and its wake. -/
def setPower (s : State) (b : Sleeper) (p : Nat) (w : Bool) : State :=
  match b with
  | .arr c a => s.modArr c a (fun r => { r with power := p, waking := w })
  | .eng c cls => (blockInsts cls).foldl (fun s i => s.modEng c cls i (fun r => { r with power := p, waking := w })) s
  | .aqt e => s.modAqt e (fun r => { r with power := p, waking := w })
  | .plt k => s.setPlate k { s.plate k with power := p, waking := w }

/-- PG_LATTOL.STATE: of the four arrays the least deep (log entry 59). -/
def showPower (s : State) (page : Nat) (b : Sleeper) : State :=
  let v := match b with
    | .arr c _ => ((List.range 4).map (fun a => ((s.core c).arr a).power)).foldl min 4
    | _ => powerOf s b
  s.setFld page PG_LATTOL_STATE v

/-- POWER_STATE_ENTRY. An entry and a wake trigger together leave the block active. -/
def doPowerStateEntry (page : BitVec 16) (sub : ArrId) (s : State) : State :=
  match sleeperOf s page.toNat sub with
  | none => s
  | some b =>
    let tol := s.fld page.toNat PG_LATTOL_TOL
    if tol ≤ powerOf s b || wakingOf s b || !sleeperIdle s b || sleeperWanted s b then s
    else showPower (setPower s b tol false) page.toNat b

/-- POWER_STATE_WAKE. -/
def doPowerStateWake (page : BitVec 16) (sub : ArrId) (s : State) : State :=
  match sleeperOf s page.toNat sub with
  | none => s
  | some b =>
    let plate := match b with | .plt _ => true | _ => false
    if powerOf s b ≠ 0 && (plate || sleeperWanted s b) then setPower s b (powerOf s b) true else s

/-- What a block does once it is ready: an engine starts the command at its queue head; an aquatint engine that lost its
heaters recalibrates in full before its first command, after a parking with the identity of its line verified anew (R176, R463). A
plate that leaves retention runs its interface check, and channel `mute` does not answer it (R219, R465). -/
def awake (s : State) (b : Sleeper) (from_ : Nat) (mute : Option (Fin 64)) : State :=
  match b with
  | .eng c cls => (blockInsts cls).foldl (fun s i => startNext s c cls i) s
  | .aqt e => if 3 ≤ from_ then s.modAqt e (fun x => { x with recalFirst := x.resident, line := if from_ = 4 then 32 else x.line }) else s
  | .plt k => serveFull (if 3 ≤ from_ then (match mute with | some ch => losePlate s k 4 ch | none => s) else s) k
  | _ => s

/-- WAKE_READY. -/
def doWakeReady (page : BitVec 16) (part : WakePart) (s : State) : State :=
  let sub : ArrId := match part with | .array a => a | .plate _ | .block => 0
  let mute : Option (Fin 64) := match part with | .plate m => m | .array _ | .block => none
  match sleeperOf s page.toNat sub with
  | none => s
  | some b =>
    if !wakingOf s b then s
    else awake (showPower (setPower s b 0 false) page.toNat b) b (powerOf s b) mute

/-! ### Meanings -/

/-- SENSOR_SAMPLE. -/
def execSensorSample (samples : List Sample) (s : State) : Res := .next (inPageOrder s (doSensorSample samples s))

/-- SENSOR_SELF_CHECK. -/
def execSensorSelfCheck (sensor : Fin 128) (pass : Bool) (s : State) : Res := .next (inPageOrder s (doSensorSelfCheck sensor pass s))

/-- SENSOR_SILENT_EXPIRY. -/
def execSensorSilentExpiry (sensor : Fin 128) (s : State) : Res := .next (inPageOrder s (doSensorSilentExpiry sensor s))

/-- GRACE_EXPIRY. -/
def execGraceExpiry (d : DieId) (s : State) : Res := .next (powered (doGraceExpiry d) s)

/-- ENFORCE_STEP_EXPIRY. -/
def execEnforceStepExpiry (d : DieId) (s : State) : Res := .next (powered (doEnforceStepExpiry d) s)

/-- RELIEF_STEP_EXPIRY. -/
def execReliefStepExpiry (d : DieId) (s : State) : Res := .next (powered (doReliefStepExpiry d) s)

/-- POWER_LIMIT_AVERAGE. -/
def execPowerLimitAverage (watts : BitVec 16) (s : State) : Res := .next (inPageOrder s (doPowerLimitAverage watts s))

/-- THROTTLE_STEP_CHANGE. -/
def execThrottleStepChange (d : DieId) (s : State) : Res := .next (powered (doThrottleStepChange d) s)

/-- CAP_STEP_WRITE. -/
def execCapStepWrite (step : Fin 8) (s : State) : Res := .next (powered (doCapStepWrite step) s)

/-- HOLD_RELEASE_EXPIRY. -/
def execHoldReleaseExpiry (south : Bool) (s : State) : Res := .next (powered (doHoldReleaseExpiry south) s)

/-- CLAMP_END_EXPIRY. -/
def execClampEndExpiry (d : DieId) (s : State) : Res := .next (powered (doClampEndExpiry d) s)

/-- CLAMP_RELIEF_STEP. -/
def execClampReliefStep (d : DieId) (s : State) : Res := .next (powered (doClampReliefStep d) s)

/-- TRANSMIT_HOLD_ORDER. -/
def execTransmitHoldOrder (d : StlId) (s : State) : Res := .next (powered (doTransmitHoldOrder d) s)

/-- TRANSMIT_HOLD_RELEASE. -/
def execTransmitHoldRelease (d : StlId) (s : State) : Res := .next (powered (doTransmitHoldRelease d) s)

/-- POWER_STATE_ENTRY. -/
def execPowerStateEntry (page : BitVec 16) (sub : ArrId) (s : State) : Res := .next (powered (doPowerStateEntry page sub) s)

/-- POWER_STATE_WAKE. -/
def execPowerStateWake (page : BitVec 16) (sub : ArrId) (s : State) : Res := .next (powered (doPowerStateWake page sub) s)

/-- WAKE_READY. -/
def execWakeReady (page : BitVec 16) (part : WakePart) (s : State) : Res := .next (powered (doWakeReady page part) s)

end Sys2Proof.Machine
end

