-- ==== Sys2Proof/Machine/Startup.lean ====
section
/-!
DEFINITION. Power, the stages of start-up, the boot image, the measurement log and the module's pins (R494 to R505, R533 to R542).
-/

namespace Sys2Proof.Machine

/-! ### Stages, the log and the STARTUP event -/

def stage (s : State) : Nat := s.fld pgSec SEC_BSTAT_STAGE
def setStage (s : State) (n : Nat) : State := s.setFld pgSec SEC_BSTAT_STAGE n

/-- An entry of the measurement log: KIND and digest; MV follows (R505). -/
def appendLog (s : State) (kind : Nat) (d : List Byte) : State :=
  let sec := { s.sec with log := s.sec.log ++ [(kind, d)], mv := leBytes 64 (Config.shake 64 (s.sec.mv ++ d)) }
  ({ s with sec := sec }).setFld pgSec SEC_LOG_COUNT_COUNT sec.log.length

/-- The digest of an item. -/
def digest64 (b : List Byte) : List Byte := leBytes 64 (Config.shake 64 b)

/-- Has a die a qualified input (LIT of R498). -/
def dieQualified (s : State) (d : Nat) : Bool := s.flag (pgStl d) STL_LSTAT_A_QUAL || s.flag (pgStl d) STL_LSTAT_B_QUAL

/-- DATA of the STARTUP event (R498). -/
def startupData (s : State) (result reason : Nat) : Nat :=
  let lit := ((List.range s.fuses.part.dies).map (fun d => if dieQualified s d then 2 ^ s.fuses.part.stlPos d else 0)).sum
  result + 2 ^ 4 * reason + 2 ^ 8 * lit + 2 ^ 16 * s.sec.crit.toNat + 2 ^ 17 * s.fld pgSec SEC_BSTAT_WARM
    + 2 ^ 24 * s.fld pgFlt FLT_FSTAT_RCOUNT + 2 ^ 32 * s.fld pgSec SEC_SVN_RUN

def startupEvent (s : State) (result reason : Nat) : State := queueEvent s (devEvent s 9 (startupData s result reason))

/-- A start-up test has failed (R496). -/
def failStartup (s : State) : State := setStage s 7

/-- A block whose chapter names no source for a failed start-up test sends the device into the fault state: FCAUSE names its page, with
CLASS and SOURCE left free (R496, log entry 128). -/
def failUnnamed (s : State) (page : Nat) : State :=
  let (a, s) := s.freeNat 3
  let (b, s) := s.freeNat 32
  noteFault s { page := page, src := b, cls := a, merged := false, detail := 0, actions := 32, latch := false,
                ns := s.time.ns, sec := s.time.sec }

/-! ### The image (R499 to R501) -/

/-- A segment entry: TARGET, OFFSET, LENGTH, LOAD. -/
structure ImgSeg where
  target : Nat
  off : Nat
  len : Nat
  load : Nat
deriving DecidableEq, Repr

def segAt (b : List Byte) (e : Nat) : ImgSeg :=
  ⟨leAt b (96 + 16 * e) 1, leAt b (100 + 16 * e) 4, leAt b (104 + 16 * e) 4, leAt b (108 + 16 * e) 4⟩

def imageSegs (b : List Byte) : List ImgSeg := (List.range (leAt b 6 2)).map (segAt b)

/-- Do two byte ranges share a byte. -/
def rangesMeet (a n b m : Nat) : Bool := decide (0 < n ∧ 0 < m ∧ a < b + m ∧ b < a + n)

def segsClash (x y : ImgSeg) : Bool :=
  rangesMeet x.off x.len y.off y.len || (x.target == y.target && rangesMeet x.load x.len y.load y.len)

/-- Does no element clash with a later one. -/
def noClash : List ImgSeg → Bool
  | [] => true
  | x :: xs => xs.all (fun y => !segsClash x y) && noClash xs

/-- Check 1 of R501. -/
def headerOk (b : List Byte) : Bool :=
  let n := leAt b 6 2
  b.take 4 == [0x47, 0x31, 0x46, 0x57] && leAt b 4 1 == 1 && decide (1 ≤ n ∧ n ≤ 64) && decide (leAt b 8 4 ≤ 64)
    && b.length == 8192 + leAt b 16 4 && leAt b 20 4 == 0 && leAt b 88 8 == 0 && leAt b 6381 1811 == 0
    && leAt b (96 + 16 * n) (1024 - 16 * n) == 0 && (List.range n).all (fun e => leAt b (97 + 16 * e) 3 == 0)

/-- Check 4 of R501. -/
def imageSigned (b : List Byte) : Bool :=
  Config.mldsaVerify ((b.drop 1120).take 1952) (b.take 3072) (strBytes "MAELNY-G1-FW") ((b.drop 3072).take 3309)

/-- Check 7 of R501. -/
def segsOk (b : List Byte) : Bool :=
  let l := imageSegs b
  l.all (fun x => decide (1 ≤ x.target ∧ x.target ≤ 4) && decide (x.off + x.len ≤ leAt b 16 4)
    && decide (x.load + x.len ≤ Config.targetSize x.target)) && noClash l

/-- The REASON of the first check that fails, 0 when every check passes. -/
def imageReason (f : Fuses) (b : List Byte) : Nat :=
  let k := leAt b 5 1
  if !headerOk b then 1
  else if !(f.keyValid.getD k false) || f.keyRevoked.getD k true then 2
  else if leBytes 32 (Config.shake 32 ((b.drop 1120).take 1952)) ≠ f.keyDigest.getD k [] then 3
  else if !imageSigned b then 4
  else if digest64 (b.drop 8192) ≠ (b.drop 24).take 64 then 5
  else if leAt b 8 4 < f.svnMin then 6
  else if !segsOk b then 7
  else 0

/-- The partial or rejected image is discarded. -/
def dropImage (s : State) : State := { s with sec := { s.sec with owner := none, imgTotal := 0, ranges := [], img := [] } }

/-- The image in the buffer. -/
def bootImage (s : State) : List Byte := (List.range s.sec.imgTotal).map (smGet 0 s.sec.img)

/-- Signature counters: check 4 was reached. -/
def countVerify (s : State) (reason : Nat) : State :=
  if reason = 0 ∨ 4 < reason then s.bump pgSec 0 else if reason = 4 then s.bump pgSec 1 else s

/-- IMAGE_COMPLETE: STAGE 4. -/
def doImageComplete (s : State) : State :=
  if stage s ≠ 4 then s
  else
    let b := bootImage s
    let reason := imageReason s.fuses b
    let s := countVerify s reason
    if reason ≠ 0 then
      let s := (dropImage (s.setFld pgSec SEC_BSTAT_REASON reason)).bump pgSec 3
      startupEvent (setStage (errOcc s pgSec 0 0) 3) 4 reason
    else
      let body := b.drop 8192
      let segs := imageSegs b
      let bytesOf (x : ImgSeg) : List Byte := (body.drop x.off).take x.len
      let s := dropImage (appendLog s 3 (digest64 (b.take 3072)))
      let s := segs.foldl (fun s x => appendLog s 4 (digest64 (bytesOf x))) s
      let s := { s with sec := { s.sec with segs := segs.map (fun (x : ImgSeg) => (x.target, x.load, bytesOf x)) } }
      let s := (s.setFlds pgSec [(SEC_SVN_RUN, leAt b 8 4), (SEC_KEYSLOT_USED, leAt b 5 1)]).setFld pgEas EAS_ESTAT_FW_RUN 1
      setStage s 5

/-! ### Stages 1 to 3 -/

/-- FUSE_LOAD: fuses burnt since take effect, the log is empty and MV is zeros (R31, R502, R505). While MOD_RESET_N is low start-up holds
(R539). -/
def doFuseLoad (s : State) : State :=
  if !s.pins.pwrGood || s.pins.resetLow || stage s != 0 then s
  else
    let s := { s with
      fuses := { s.fuses with svnMin := s.fuses.svnBurnt }
      sec := { s.sec with log := [], mv := List.replicate 64 0, crit := s.flag pgThm THM_CRIT_LOG_VALID } }
    setStage s 1

/-- What entry 1 of the measurement log measures (R505). -/
def measuredFuses (s : State) : List Nat :=
  (List.range 40).map (fun i => (resetAt s.fuses pgDev (0x100 + 4 * i)).toNat)
    ++ [s.fuses.svnMin, boolMap s.fuses.keyValid, boolMap s.fuses.keyRevoked] ++ s.fuses.keyDigest.map leNat

/-- BOOT_ROM_SELF_TEST: STAGE 2 with log entries 0 and 1, then STAGE 3 and its event; a failed known-answer test stops
start-up (R494, R496). -/
def doBootRomSelfTest (shakeOk mldsaOk : Bool) (s : State) : State :=
  if stage s ≠ 1 then s
  else
    let s := s.setFlds pgSec [(SEC_SELFTEST_SHAKE_OK, shakeOk.toNat), (SEC_SELFTEST_MLDSA_OK, mldsaOk.toNat)]
    if shakeOk && mldsaOk then
      let s := appendLog (setStage s 2) 1 (leBytes 64 Config.bootRomDigest)
      let s := appendLog s 2 (leBytes 64 (Config.fuseDigest (measuredFuses s)))
      startupEvent (setStage s 3) 3 0
    else errOcc (failStartup s) pgSec 1 0

/-! ### The tests after STAGE 5 -/

/-- A test of start-up that comes as number `n`, with its failures recorded by `fail`. -/
def startupTest {α : Type} (s : State) (n : Nat) (failed : List α) (fail : State → α → State) (pass : State → State) : State :=
  if stage s ≠ 5 || s.sec.tests != n then s
  else
    match failed with
    | [] => pass { s with sec := { s.sec with tests := n + 1 } }
    | _ => failStartup (failed.foldl fail s)

/-- PLATE_TRAINING_DONE: `failed` lists plates. -/
def doPlateTrainingDone (failed : List Nat) (s : State) : State :=
  startupTest s 0 (failed.filter (platePresent s)) (fun s k => losePlate s k 4 0)
    (fun s => (List.range s.fuses.part.plates).foldl (fun s k => s.setFld (pgPlt k) PLT_PSTAT_READY 1) s)

/-- CORE_TEST_DONE: `failed` lists cores with the FLT source, 6 to 9, of the checker that found the fault, and the engine instance (R446). -/
def doCoreTestDone (failed : List (Nat × Fin 4 × Fin 16)) (s : State) : State :=
  startupTest s 1 failed (fun s x => errOcc s pgFlt (6 + x.2.1.val) (512 * (x.1 / 288) + x.1 % 288 + 4096 * x.2.2.val)) id

/-- FLT source of a bridge (R446). -/
def bridgeSource (n : Nat) : Nat := if n < 10 then 1 else if n < 40 then 2 else 3

/-- The light tests begin: every fibre runs the λ0 test, over the on-die loopback where no light comes in, and on outer planes (R264). -/
def lightTests (s : State) : State :=
  (allPlanes s).foldl (fun s p => testPlane s p (decide (48 ≤ p) || planeFld s p STL_PLANE_STAT_RX_LOS == 1)) s

/-- BRIDGE_TEST_DONE: `failed` lists bridge numbers. -/
def doBridgeTestDone (failed : List Nat) (s : State) : State :=
  startupTest s 2 failed (fun s n => errOcc s pgFlt (bridgeSource n) n) lightTests

/-- A plane that has passed the test over the shuffle comes up (R263, R264). -/
def planeTested (s : State) (p : Nat) : State :=
  if planeFitted s p then showCap (setPlaneFld s p STL_PLANE_STAT_UP 1) (planeDie p) (planeFibre p) else s

/-- Is the input that a die has selected qualified (R264, R497). -/
def selQualified (s : State) (d : Nat) : Bool := (s.die d).selected && s.flag (pgStl d) (qualFld (selB s d))

/-- Light tests of a die and its engines (R174, R264, R497). A die left dark selects no input, so that either may qualify again (R235). -/
def dieTested (shuffle loopback : List Nat) (engines : List (Nat × Bool × Nat)) (s : State) (d : Nat) : State :=
  let round := shuffle.filter (fun p => planePassed s p false)
  let ok := (diePlanes d).all (fun p => round.contains p || (loopback.contains p && planePassed s p true))
  let s := (List.range 8).foldl (fun s f => endLoop s d f) s
  if selQualified s d then
    let s := if ok then { s with sec := { s.sec with lit := s.sec.lit ++ [d] } } else s
    let s := ((diePlanes d).filter (fun p => round.contains p && decide (p < 48))).foldl planeTested s
    (engines.filter (fun x => x.1 / 2 == d)).foldl (fun s x => aqtTest s x.1 x.2.1 x.2.2) s
  else
    let s := (errOcc (s.setFld (pgStl d) STL_LSTAT_DARK 1) (pgStl d) 4 0).modDie d (fun x => { x with selected := false, switching := false })
    [2 * d, 2 * d + 1].foldl (fun s e => s.setFld (pgAqt e) AQT_SVC_CAUSE 4) s

/-- Pages of the dies and engines that failed an electrical test and are fitted (R494, R496). -/
def deadPages (s : State) (tests : StlTests) : List Nat :=
  (tests.deadDies.filter (· < s.fuses.part.dies)).map pgStl ++ (tests.deadXdma.filter (· < s.fuses.part.xdmas)).map pgXdm
    ++ (tests.deadColl.filter (· < s.fuses.part.colls)).map pgCol

/-- STRELIST_STARTUP_TEST: the planes that passed the λ0 test over the shuffle and over the on-die loopback, `engines` the outcome of each
aquatint engine's readmission test, which like the light tests stop no start-up, and the dies and engines that failed an electrical test,
which do (R494, R496). -/
def doStrelistStartupTest (tests : StlTests) (loopback : List Nat) (engines : List (Nat × Bool × Nat)) (s : State) : State :=
  startupTest s 3 (deadPages s tests) failUnnamed
    (fun s => (List.range s.fuses.part.dies).foldl (dieTested tests.shuffle loopback engines) s)

/-- SLOT_ID is sampled (R370). -/
def sampleSlot (s : State) : State :=
  let v := s.pins.slotId.toNat
  let ones := countIf (fun i => v.testBit i) (List.range 6)
  let (inj, s) := takeCrcInjection s pgMbr 5
  let s := s.setFld pgMbr MBR_MSTAT_INDEX (v % 32)
  if ones % 2 = 1 && !inj then s else errOcc (s.setFld pgMbr MBR_MSTAT_SLOT_ERR 1) pgMbr 5 0

/-- STARTUP_COMPLETE: STAGE 6; a die that has gone dark since its tests counts as dark (R498). -/
def doStartupComplete (s : State) : State :=
  if stage s ≠ 5 || s.sec.tests != 4 || s.inFault then s
  else
    let dies := List.range s.fuses.part.dies
    let s := (sampleSlot s).setFld pgMbr MBR_MSTAT_UP 1
    let s := dies.foldl (fun s d => s.setFld (pgStl d) STL_SCTRL_EN 1) s
    let ready := decide (s.sec.lit.length = s.fuses.part.dies) && dies.all (fun d => !s.flag (pgStl d) STL_LSTAT_DARK)
    let result := if ready then 1 else 2
    let s := appendLog s 6 (digest64 (leBytes 8 (startupData s result 0)))
    elect (bringUpPlan (startupEvent (setStage s 6) result 0) (allPlanes s) false)

/-- SVN_ADVANCE (R502). -/
def doSvnAdvance (s : State) : State :=
  let run := s.fld pgSec SEC_SVN_RUN
  if !s.flag pgMbr MBR_MSTAT_UP || decide (run ≤ s.fuses.svnBurnt) then errOcc (s.setFld pgSec SEC_SVN_CTL_REFUSED 1) pgSec 4 0
  else ({ s with fuses := { s.fuses with svnBurnt := run } }).setFld pgSec SEC_SVN_CTL_DONE 1

/-- HEARTBEAT_TICK (R529). -/
def doHeartbeatTick (s : State) : State :=
  if s.flag pgEas EAS_ESTAT_FW_RUN then s.setFld pgEas EAS_HEARTBEAT (s.fld pgEas EAS_HEARTBEAT + 1) else s

/-! ### Pins and power (R533 to R542) -/

/-- PIN.VIN: a voltage of the band, in units of 0.01 V, which no command gives (R470). -/
def showVin (s : State) (lo hi : Nat) : State :=
  let (v, s) := s.freeNat (hi - lo + 1)
  s.setFld pgPwr PWR_PIN_VIN (lo + v)

/-- VIN_PRESENT. -/
def doVinPresent (s : State) : State :=
  if s.pins.vin then s else showVin { s with pins := { s.pins with vin := true } } 4000 6000

/-- The load is removed where it is on. A power-down that locks the rails off is one of a module that was on or coming up (R536). -/
def loadOff (s : State) (lock : Bool) : State :=
  let off := lock && (s.pins.pwrGood || (s.pins.pwrEn && s.pins.mated))
  let s := if s.pins.pwrGood then powerDown s false else s
  { s with pins := { s.pins with lockout := s.pins.lockout || off } }

/-- 54 V is gone: the always-on domain goes off with the rails, and nothing is kept but the levels of the contacts, the lock of R536 and
the fuses (R533, R536, R541). -/
def inputGone (s : State) : State :=
  let s := (powerDown (loadOff s true) false).dropPages (fun _ => true)
  { s with thm := ThmSt.init, pins := { s.pins with vin := false } }

/-- PRSNT_N_BREAK: PWR_EN counts again once the module is mated (R542). -/
def doPrsntNBreak (s : State) : State := loadOff { s with pins := { s.pins with mated := false } } false

/-- PWR_EN acts, high, on a mated module: broken sensors, and what is at CRIT, are judged anew from this power-on (R450, R461). -/
def powerOn (s : State) : State :=
  if s.pins.pwrGood then s
  else
    let bad := s.thm.broken
    let s : State := { s with thm := { s.thm with
      broken := [], crit := [], temps := s.thm.temps.filter (fun e => !smHas bad e.1) } }
    showThm ((bad.map (·.1)).foldl showSensor s) (s.flag pgThm THM_TSTAT_WARN)

/-- PWR_EN_ASSERT: an unmated module ignores PWR_EN, whose level counts once it is mated again (R542). -/
def doPwrEnAssert (s : State) : State :=
  let s : State := { s with pins := { s.pins with pwrEn := true } }
  if s.pins.mated then powerOn s else s

/-- PRSNT_N_MATE: a PWR_EN that is high counts from the mate; the 100 ms stand behind the PWR_GOOD_ASSERT that follows (R542, log entry
127). -/
def doPrsntNMate (slot : BitVec 6) (s : State) : State :=
  let s : State := { s with pins := { s.pins with mated := true, slotId := slot } }
  if s.pins.pwrEn then powerOn s else s

/-- PWR_GOOD_ASSERT: the rails are in tolerance (R494, R536, R540, R542). -/
def doPwrGoodAssert (s : State) : State :=
  if s.pins.vin && s.pins.pwrEn && s.pins.mated && !s.pins.lockout then { s with pins := { s.pins with pwrGood := true } } else s

/-- PWR_EN_DEASSERT: power-down; a lockout ends and ERR_N is released (R461, R536, R541). An unmated module ignores it (R542). -/
def doPwrEnDeassert (s : State) : State :=
  let s : State := { s with pins := { s.pins with pwrEn := false } }
  if !s.pins.mated then s
  else
    let s := loadOff s false
    { s with pins := { s.pins with lockout := false, errLow := false } }

/-- INPUT_VOLTAGE_EXCURSION: the always-on domain records PWR source 1 before PWR_GOOD too (R447, R536). -/
def doInputVoltageExcursion (band : VinBand) (s : State) : State :=
  if !s.pins.vin then s
  else match band with
    | .normal => showVin s 4000 6000
    | .soft =>
      let (v, s) := s.freeNat 400
      let s := s.setFld pgPwr PWR_PIN_VIN (if v < 200 then 3800 + v else 5801 + v)
      errOcc s pgPwr 1 0
    | .softLong => loadOff s true
    | .hard =>
      let (v, s) := s.freeNat 4100
      loadOff (s.setFld pgPwr PWR_PIN_VIN (if v < 3800 then v else 2401 + v)) true
    | .absent => inputGone s

/-- MOD_RESET: the contact falls, or a low level of `lowNs` nanoseconds ends (R539). -/
def execModReset (edge : ResetEdge) (s : State) : Res :=
  match edge with
  | .fall => .next { s with pins := { s.pins with resetLow := true } }
  | .rise lowNs =>
    let t : State := { s with pins := { s.pins with resetLow := false } }
    if !s.pins.pwrGood ∨ lowNs < 1000 then .next t
    else if lowNs < 10000 then .fault .resetPulseUndefined
    else .next (moduleReset t)

/-! ### Meanings -/

/-- IMAGE_COMPLETE. -/
def execImageComplete (s : State) : Res := .next (powered doImageComplete s)

/-- FUSE_LOAD. -/
def execFuseLoad (s : State) : Res := .next (powered doFuseLoad s)

/-- BOOT_ROM_SELF_TEST. -/
def execBootRomSelfTest (shakeOk mldsaOk : Bool) (s : State) : Res := .next (powered (doBootRomSelfTest shakeOk mldsaOk) s)

/-- PLATE_TRAINING_DONE. -/
def execPlateTrainingDone (failed : List Nat) (s : State) : Res := .next (powered (doPlateTrainingDone failed) s)

/-- CORE_TEST_DONE. -/
def execCoreTestDone (failed : List (Nat × Fin 4 × Fin 16)) (s : State) : Res := .next (powered (doCoreTestDone failed) s)

/-- BRIDGE_TEST_DONE. -/
def execBridgeTestDone (failed : List Nat) (s : State) : Res := .next (powered (doBridgeTestDone failed) s)

/-- STRELIST_STARTUP_TEST. -/
def execStrelistStartupTest (tests : StlTests) (loopback : List Nat) (engines : List (Nat × Bool × Nat)) (s : State) : Res := .next (powered (doStrelistStartupTest tests loopback engines) s)

/-- STARTUP_COMPLETE. -/
def execStartupComplete (s : State) : Res := .next (powered doStartupComplete s)

/-- SVN_ADVANCE. -/
def execSvnAdvance (s : State) : Res := .next (powered doSvnAdvance s)

/-- HEARTBEAT_TICK. -/
def execHeartbeatTick (s : State) : Res := .next (powered doHeartbeatTick s)

/-- VIN_PRESENT. -/
def execVinPresent (s : State) : Res := .next (doVinPresent s)

/-- PRSNT_N_MATE. -/
def execPrsntNMate (slot : BitVec 6) (s : State) : Res := .next (doPrsntNMate slot s)

/-- PRSNT_N_BREAK. -/
def execPrsntNBreak (s : State) : Res := .next (doPrsntNBreak s)

/-- PWR_EN_ASSERT. -/
def execPwrEnAssert (s : State) : Res := .next (doPwrEnAssert s)

/-- PWR_GOOD_ASSERT. -/
def execPwrGoodAssert (s : State) : Res := .next (doPwrGoodAssert s)

/-- PWR_EN_DEASSERT. -/
def execPwrEnDeassert (s : State) : Res := .next (doPwrEnDeassert s)

/-- INPUT_VOLTAGE_EXCURSION. -/
def execInputVoltageExcursion (band : VinBand) (s : State) : Res := .next (doInputVoltageExcursion band s)

end Sys2Proof.Machine
end

