-- ==== Sys2Proof/Machine/Csr.lean ====
section
/-!
DEFINITION. Register access: the access codes and reserved encodings of R15 and R16, the page head (R514 to R520), counters (R27), claims
(R525 to R528), the write that each register makes happen, and the DBG page (R530, R531).
-/

namespace Sys2Proof.Machine

/-! ### What a register reads as where the machine, not the page, holds it -/

/-- Bit `i` of a word is `p i`. -/
def bitMap (n : Nat) (p : Nat → Bool) : Nat := (List.range n).foldl (fun a i => if p i then a + 2 ^ i else a) 0

/-- Does an array feed. -/
def feeding (s : State) (c a : Nat) : Bool := (((s.core c).arr a).queue.map s.cmd).any (fun x => x.sent != 0 && !x.ran)

/-- ARR.STAT but RELOAD_WAIT (R54): of a command that feeds and of columns still to drain. -/
def arrStat (s : State) (c : Nat) : Nat :=
  let q (a : Nat) : List Cmd := (((s.core c).arr a).queue.map s.cmd)
  let draining (a : Nat) : Bool := (nextDrain s c a).isSome
  let paired (a : Nat) : Bool := (q a).any (fun x => x.sent != 0 && decide (4 ≤ x.inst))
  bitMap 4 (feeding s c) + 2 ^ 4 * bitMap 4 draining + 2 ^ 12 * bitMap 4 paired

/-- The views of a Strelist die's lanes (R267): register `k` of plane `p`. A lane is ACTIVE when both its ends are (R254). -/
def laneView (s : State) (p k : Nat) : Nat :=
  let x (j : Nat) : LaneSt := s.lane (pairKey p j)
  if k = 0x04 then bitMap 32 (fun j => (x j).up)
  else if k = 0x08 then bitMap 32 (fun j => (x (mirror p j)).up)
  else if k = 0x0C then bitMap 32 (fun j => (x j).st == 8)
  else 256 * countIf (fun j => decide (1 ≤ (x j).st ∧ (x j).st ≤ 5)) (List.range 32) + countIf (fun j => (x j).up) (List.range 32)

/-- The tree entry MT_SEL names (R305). -/
def selTree (s : State) : Nat := s.fld pgFab FAB_MT_SEL_TREE
def treeView (s : State) (off : Nat) : Nat :=
  let x := s.tree (selTree s)
  if off = 0x108 then 2 ^ 31 * x.valid.toNat + 2 ^ 14 * (x.up % 2 ^ 14) + x.src % 2 ^ 14
  else if off = 0x10C then x.localMask.toNat
  else if off = 0x110 then x.relay.toNat
  else if off = 0x114 then x.outer.toNat
  else if off = 0x118 then x.cum
  else x.dropped % 2 ^ 16

/-- The group entry GT_SEL names (R367). -/
def selGroup (s : State) : Nat := s.fld (pgCol 0) COL_GT_SEL_GID
def groupView (s : State) (off : Nat) : Nat :=
  let x := s.group (selGroup s)
  if off = 0x20C then x.cfg.toNat else if off = 0x210 then x.shape.toNat else if off = 0x214 then x.mask.toNat
  else if off = 0x218 then x.rings.toNat else x.seq

/-- SSTAT (R491). -/
def sessView (s : State) : Nat :=
  2 ^ 16 * bitMap 16 (fun k => smHas s.host.sess k) + (match s.host.evSess with | some k => 16 + k % 16 | none => 0)

/-- A register that shows what another part of the state holds; none for the stored ones. -/
def viewWord (s : State) (t : PageType) (i off : Nat) : Option Nat :=
  match t with
  | .grv =>
    if 0x400 ≤ off ∧ off < 0x600 then some (bitMap 32 (fun b => s.flagPois i (32 * ((off - 0x400) / 4) + b)))
    else if 0x140 ≤ off ∧ off < 0x240 ∧ (off - 0x140) % 32 = 0x14 then
      some (putBits (s.reg (pgGrv i) off) 5 0 (inWindow s i ((off - 0x140) / 32))).toNat
    else none
  | .arr =>
    if off = 0x104 then some (((List.range 4).map (fun a => ((s.core i).arr a).density * 256 ^ a)).sum)
    else none
  | .aqt => if off = 0x104 then some (putBits (s.reg (pgAqt i) off) 14 8 (s.aqt i).queue.length).toNat else none
  | .stl =>
    if 0x140 ≤ off ∧ off < 0x240 ∧ [0x04, 0x08, 0x0C, 0x14].contains ((off - 0x140) % 32) then
      some (laneView s (planeOf i ((off - 0x140) / 32)) ((off - 0x140) % 32))
    else if i = 0 ∧ off = STL_ALLOC_STAT_LEADER.off then
      some (putBits (putBits (s.reg pgAlloc off) STL_ALLOC_STAT_IS_LEADER.hi STL_ALLOC_STAT_IS_LEADER.lo (isLeader s).toNat)
        STL_ALLOC_STAT_LEADER.hi STL_ALLOC_STAT_LEADER.lo ((leaderOf s).getD 0)).toNat
    else none
  | .fab =>
    if 0x108 ≤ off ∧ off < 0x120 then some (treeView s off)
    else if off = 0x120 then some (bitMap 32 (sheetUp s)) else none
  | .xdm =>
    if off = 0x100 then
      let q := smGet [] s.net.xdma i
      some (2 ^ 16 * min 512 ((q.map (outstanding s)).sum) + min 256 q.length)
    else none
  | .col =>
    if off = 0x100 then
      some (2 ^ 8 * (countIf (fun e => e.1 / 4 == i) s.coll.ctxs) + min 64 (collDepth s i))
    else if i = 0 ∧ 0x20C ≤ off ∧ off < 0x220 then some (groupView s off) else none
  | .mbr =>
    if off = 0x120 then
      some (((List.range 8).map (fun k => s.viewOf (8 * s.fld pgMbr MBR_VIEW_SEL_WORD + k) % 16 * 16 ^ k)).sum)
    else if 0x200 ≤ off ∧ off < 0x280 then
      some (putBits (s.reg pgMbr off) MBR_NBR_PLANES.hi MBR_NBR_PLANES.lo (nbrPlanes s ((off - 0x200) / 4))).toNat
    else none
  | .hpt => if off = 0x124 then some (sessView s) else none
  | _ => none

/-! ### Reading -/

/-- Counter of an offset of the counter area. -/
def counterOf (t : PageType) (off : Nat) : Option Nat :=
  if 0x040 ≤ off ∧ off < 0x080 ∧ (off - 0x040) / 8 < t.ncnt then some ((off - 0x040) / 8) else none

/-- Counters of cycles that the model does not count: SHADE_CYC, IDLE_CYC and BANK_WAIT of an array page, WAIT_CYC of a graver and
BUSY_CYC of an aquatint engine (R55, R158, R192). -/
def cycleCounter (s : State) (page i : Nat) : Bool :=
  match pageOf s.fuses.part page with
  | some (.arr, _) => decide (4 ≤ i) && decide (i ≤ 6)
  | some (.grv, _) => i == 3
  | some (.aqt, _) => i == 3
  | _ => false

/-- Such a counter has gone on by a free amount where it is read (log entry 26). -/
def passCycles (s : State) (page i : Nat) : State :=
  if cycleCounter s page i then
    let (n, s) := s.freeNat (2 ^ 64)
    s.bumpBy page i n
  else s

/-- A low read captures the counter whole (R27). -/
def readLow (s : State) (page i : Nat) : Word × State :=
  let s := passCycles s page i
  let v := s.counter page i
  (v.setWidth 32, { s with cap := smInsert s.cap (8 * page + i) v })

/-- A high read uses the capture up, or takes a fresh one. -/
def readHigh (s : State) (page i : Nat) : Word × State :=
  match smFind s.cap (8 * page + i) with
  | some v => ((v >>> 32).setWidth 32, { s with cap := smErase s.cap (8 * page + i) })
  | none =>
    let s := passCycles s page i
    ((s.counter page i >>> 32).setWidth 32, s)

/-- ARR.STAT. Whether an array that feeds waits under R41 or R42 is a free value (log entry 76). -/
def readArrStat (s : State) (c : Nat) : Word × State :=
  let (n, s) := s.freeNat 16
  (BitVec.ofNat 32 (arrStat s c + 2 ^ 8 * bitMap 4 (fun a => feeding s c a && n.testBit a)), s)

/-- NOW_SEC_LO and NOW_HI: the capture of the last read of NOW_NS, used up as R27 says, or the present time (R416, log entry
72). -/
def readNow (s : State) (k : Nat) : Word × State :=
  match smFind s.cap (8 * pgTim + k) with
  | some v => (v.setWidth 32, { s with cap := smErase s.cap (8 * pgTim + k) })
  | none => ((nowWord s k).setWidth 32, s)

/-- A register of a page the part has. -/
def readReg (s : State) (page : Nat) (t : PageType) (i off : Nat) : Word × State :=
  if off = 0x000 then (pgId t i, s)
  else if off = 0x004 then (pgFeat t, s)
  else if off = 0x02C then
    (s.reg page off, { s with hub := { s.hub with arrived := smErase s.hub.arrived page } })
  else if 0x080 ≤ off ∧ off < 0x100 then (s.reg page off, s)
  else match counterOf t off with
    | some k => if off % 8 = 0 then readLow s page k else readHigh s page k
    | none =>
      match t, off with
      | .tim, 0x120 => (BitVec.ofNat 32 s.time.ns, captureNow s)
      | .tim, 0x124 => readNow s 6
      | .tim, 0x128 => readNow s 7
      | .arr, 0x108 => readArrStat s i
      | _, _ =>
        match viewWord s t i off with
        | some n => (BitVec.ofNat 32 n, s)
        | none => if (regFind t i off).isSome then (s.reg page off, s) else (0, s)

/-- CSR fabric parity (R443): an access that fails it has no effect. A real failure was recorded as it occurred. -/
def fabricParity (s : State) : Bool × State :=
  if s.hub.csrBad then (true, { s with hub := { s.hub with csrBad := false } })
  else
    let (inj, s) := takeCrcInjection s pgFlt 10
    (inj, if inj then errOcc s pgFlt 10 0 else s)

/-- A CSR read: status of R141, value, and the state after it. -/
def csrRead (s : State) (page off : Nat) : Nat × Word × State :=
  match pageOf s.fuses.part page with
  | none => (3, 0, s)
  | some (t, i) =>
    let (bad, s) := fabricParity s
    if bad then (4, 0, s) else (0, readReg s page t i off)

/-! ### Claims (R525 to R528) -/

/-- A field of CLAIM[r]. -/
def claim (f : Fld) (r : Nat) : Fld := f.at (4 * r)
def claimHeld (s : State) (r : Nat) : Bool := s.flag pgEas (claim EAS_CLAIM_HELD r)
def claimOff (r : Nat) : Nat := 0x200 + 4 * r

/-- Kind and OWNER of a writer. -/
def writerKind : Writer → Nat
  | .session _ => 1 | .firmware => 3 | .device _ => 4
def writerOwner : Writer → Nat
  | .session k => k | .firmware => 0 | .device n => n

/-- Is the writer the holder of the resource. -/
def holdsClaim (s : State) (w : Writer) (r : Nat) : Bool :=
  claimHeld s r && s.fld pgEas (claim EAS_CLAIM_KIND r) == writerKind w && s.fld pgEas (claim EAS_CLAIM_OWNER r) == writerOwner w

/-- Resource of a register that a claim in force governs. -/
def governed (s : State) (t : PageType) (off : Nat) : Option Nat :=
  match t with
  | .tim =>
    if 0x180 ≤ off ∧ off < 0x1C0 ∧ off % 16 = 0 then
      (if claimHeld s ((off - 0x180) / 16) then some ((off - 0x180) / 16) else none)
    else if off = 0x140 ∧ claimHeld s 4 ∧ s.fld pgEas (claim EAS_CLAIM_FUNC 4) = 0 then some 4 else none
  | .dbg => if off = 0x100 ∧ claimHeld s 4 ∧ s.fld pgEas (claim EAS_CLAIM_FUNC 4) = 1 then some 4 else none
  | _ => none

/-- A refused claim write, or a refused write to a claimed register (R527). -/
def claimRefused (s : State) (page off r : Nat) : State :=
  (errOcc (s.bump pgEas 1) pgEas 1 r).noteReject page off false

/-- Is a request well formed (R525, R526, log entry 71). -/
def requestOk (w : Writer) (r : Nat) (v : Word) : Bool :=
  let kind := bits v 30 28
  let owner := bits v 27 14
  let func := bits v 13 12
  (if r < 5 then kind == writerKind w && owner == writerOwner w
    else kind == 2 && writerKind w != 4 && decide (owner / 512 < 8 ∧ owner % 512 < 288))
    && (func == 0 || (r == 4 && func == 1)) && !(bitAt v 0 && bitAt v 1)

/-- Does the present holder make the request. -/
def requestHolder (s : State) (r : Nat) (v : Word) : Bool :=
  claimHeld s r && s.fld pgEas (claim EAS_CLAIM_KIND r) == bits v 30 28 && s.fld pgEas (claim EAS_CLAIM_OWNER r) == bits v 27 14

/-- Is CLAIM[r] present: an engine the grade lacks has none (R525). -/
def claimPresent (s : State) (r : Nat) : Bool := decide (r < 5 ∨ r - 5 < s.fuses.part.aqts)

/-- The holder of a claim has changed, or what it does: PPS_OUT follows (R525). -/
def claimSettle (s : State) (r : Nat) : State := if r = 4 then settlePps s else s

/-- A write to CLAIM[r] (R527). Answers whether it was refused. -/
def claimWrite (s : State) (w : Writer) (r : Nat) (v : Word) : Bool × State :=
  let off := claimOff r
  if !claimPresent s r then (false, s)
  else if !requestOk w r v then (true, claimRefused s pgEas off r)
  else if bitAt v 0 then
    if !claimHeld s r then
      (false, claimSettle ((s.setReg pgEas off (BitVec.ofNat 32 (2 ^ 31 + 2 ^ 12 * bits v 30 12))).bump pgEas 0) r)
    else if requestHolder s r v then (false, claimSettle (s.setFld pgEas (claim EAS_CLAIM_FUNC r) (bits v 13 12)) r)
    else (true, claimRefused s pgEas off r)
  else if bitAt v 1 then
    if (if bitAt v 2 then writerKind w != 4 else requestHolder s r v) then
      (false, claimSettle (s.setFld pgEas (claim EAS_CLAIM_HELD r) 0) r)
    else (true, claimRefused s pgEas off r)
  else (false, s)

def doClaimAcquire (w : Writer) (r : Fin 21) (v : Word) (s : State) : State := (claimWrite s w r (putBits v 2 0 1)).2
def doClaimRelease (w : Writer) (r : Fin 21) (v : Word) (s : State) : State := (claimWrite s w r (putBits v 2 0 2)).2
def doClaimForceRelease (w : Writer) (r : Fin 21) (v : Word) (s : State) : State := (claimWrite s w r (putBits v 2 0 6)).2

/-! ### The DBG page (R530, R531) -/

/-- A strobe event reaches PPS_OUT while resource 4 carries the strobe; one that finds the pin high merges. -/
def strobe (s : State) : State :=
  if s.flag pgDbg DBG_DCTRL_STROBE_EN && strobeHeld s && !s.pins.ppsHigh then
    { s with pins := { s.pins with ppsHigh := true, strobeLeft := 1000 } }
  else s

def doDbgPulse (s : State) : State := if s.fld pgDbg DBG_DCTRL_STROBE_SRC = 0 then strobe s else s

/-- STROBE_SRC of an event; 4 for one that is no strobe event. -/
def strobeSrc : CapEvent → Nat
  | .softArm => 0 | .errN => 1 | .throtN => 2 | .epoch => 3 | .switchover => 4

def doDbgStrobe (ev : CapEvent) (s : State) : State :=
  if s.fld pgDbg DBG_DCTRL_STROBE_SRC = strobeSrc ev then strobe s else s

/-- DCTRL.DIE changes: the counters restart at the next sample. -/
def dbgDie (s : State) (d : Nat) : State :=
  if s.fld pgDbg DBG_DCTRL_DIE = d then s else { s.setFld pgDbg DBG_DCTRL_DIE d with dbgRestart := true }

/-- DBG_DIE_CHANGE: refused to anyone but the holder while the strobe is claimed (R525). -/
def doDbgDieChange (w : Writer) (d : DieId) (s : State) : State :=
  match governed s .dbg 0x100 with
  | some r => if holdsClaim s w r then dbgDie s d else claimRefused s pgDbg 0x100 r
  | none => dbgDie s d

/-- The events of the last microsecond are added; after a change of DIE the counters start at 0. -/
def doDbgCounterSample (flits blocked meshRetry bridgeRetry : Nat) (s : State) : State :=
  if s.dbgRestart then (List.range 4).foldl (fun s i => s.setCounter pgDbg i 0) { s with dbgRestart := false }
  else (((s.bumpBy pgDbg 0 flits).bumpBy pgDbg 1 blocked).bumpBy pgDbg 2 meshRetry).bumpBy pgDbg 3 bridgeRetry

/-! ### Writing -/

/-- A write of one register as it is put together: the new word, and whether a reserved encoding or a locked field stood in
it. -/
structure WrOut where
  word : Word
  refused : Bool
  locked : Bool
deriving DecidableEq, Repr

/-- Is a value not reserved on its own account (R16). -/
def valueOk (s : State) (t : PageType) (off : Nat) (f : FieldDef) (n : Nat) : Bool :=
  (f.ok.isEmpty || f.ok.any (fun r => decide (r.1 ≤ n ∧ n ≤ r.2)))
    && match t with
      | .thm => !(decide (0x120 ≤ off ∧ off < 0x134) && f.hi == 15) || decide (n ≤ bits (thrReset ((off - 0x120) / 4)) 15 8)
      | .pwr => off != 0x104 || decide (n ≤ s.fuses.part.tdp)
      | _ => true

/-- One field of a write (R15, R16, R519). -/
def writeField (s : State) (t : PageType) (off : Nat) (lock : Bool) (v : Word) (x : WrOut) (f : FieldDef) : WrOut :=
  let cur := bits x.word f.hi f.lo
  let n := bits v f.hi f.lo
  let take : WrOut := if valueOk s t off f n then { x with word := putBits x.word f.hi f.lo n } else { x with refused := true }
  match f.acc with
  | .ro | .wo => x
  | .w1c => { x with word := putBits x.word f.hi f.lo (cur - (cur &&& n)) }
  | .rw => take
  | .rwl => if lock then (if n = cur then x else { x with locked := true }) else take

/-- The fields named in a relation that a new word breaks (R16). -/
def brokenFields (s : State) (t : PageType) (off : Nat) (w : Word) : List (Nat × Nat) :=
  match t with
  | .plt => if off = 0x100 ∧ bits w 13 8 ≤ bits w 5 0 then [(13, 8), (5, 0)] else []
  | .hpt => if off = 0x118 ∧ bits w 15 8 ≤ bits w 7 0 then [(15, 8), (7, 0)] else []
  | .fab => if off = 0x100 ∧ bits w 27 16 ≤ bits w 7 0 then [(27, 16), (7, 0)] else []
  | .thm =>
    if 0x120 ≤ off ∧ off < 0x134 then
      (if bits w 23 16 < bits w 31 24 then [(31, 24), (23, 16)] else [])
        ++ (if bits w 15 8 ≤ bits w 23 16 then [(23, 16), (15, 8)] else [])
    else []
  | .mem =>
    let n := (off - 0x200) / 0x20
    if 0x200 ≤ off ∧ off < 0xA00 ∧ off % 0x20 = 0x08 ∧ w = 0 ∧ windowValid s n then [(31, 0)]
    else if 0x200 ≤ off ∧ off < 0xA00 ∧ off % 0x20 = 0x10 ∧ bitAt w 31 ∧ s.fld pgMem (MEM_WSIZE.at (0x20 * n)) = 0 then [(31, 31)]
    else []
  | _ => []

/-- Fields a write leaves unchanged in silence: QBASE and LOG2SIZE of a ring with EN = 1 (R132). -/
def frozenFields (s : State) (t : PageType) (i off : Nat) : List (Nat × Nat) :=
  match t with
  | .grv =>
    let q := (off - 0x140) / 32
    if 0x140 ≤ off ∧ off < 0x240 ∧ s.flag (pgGrv i) (qField GRV_QCTRL_EN q) then
      (if (off - 0x140) % 32 = 0 then [(15, 12)] else if (off - 0x140) % 32 = 4 then [(19, 6)] else [])
    else []
  | _ => []

/-- The old values of some fields put back. -/
def keepFields (old new : Word) (l : List (Nat × Nat)) : Word := l.foldl (fun w f => putBits w f.1 f.2 (bits old f.1 f.2)) new

/-- The word after its broken relations are put right, and whether one was broken. Fields put back can break another relation
of the register, which then keeps its fields as well; no register has more than two relations (R16). -/
def settleFields (s : State) (t : PageType) (off : Nat) (old : Word) : Nat → Word → Word × Bool
  | 0, w => (w, false)
  | n + 1, w =>
    match brokenFields s t off w with
    | [] => (w, false)
    | l => ((settleFields s t off old n (keepFields old w l)).1, true)

/-- A write to a register by its table row: its fields, the relations between them, and the page's record of what was not
applied. -/
def writeFields (s : State) (page : Nat) (t : PageType) (i off : Nat) (r : RegDef) (v : Word) : State :=
  let old := s.reg page off
  let x := r.fields.foldl (writeField s t off (s.flag page PG_CTRL_LOCK) v) ⟨old, false, false⟩
  let w := keepFields old x.word (frozenFields s t i off)
  let (w, broken) := settleFields s t off old 2 w
  let s := s.setReg page off w
  let s := if x.refused || broken then s.noteReject page off false else s
  if x.locked then s.noteReject page off true else s

/-- ERR_MASK: UF sources cannot be masked, reserved ones have no bit (R422). -/
def maskable (t : PageType) : Nat := bitMap 32 (fun i => match sourceOf t i with | some (cls, _, _) => cls != 2 | none => false)

/-- MT registers of the selected tree (R305). -/
def treeWrite (s : State) (off : Nat) (v : Word) : State :=
  let t := selTree s
  let x := s.tree t
  if off = 0x108 then
    if bitAt v 31 then treeValid s t (bits v 13 0) (bits v 27 14)
    else s.setTree t { x with valid := false, src := bits v 13 0, up := bits v 27 14 }
  else if off = 0x10C then s.setTree t { x with localMask := v }
  else if off = 0x110 then s.setTree t { x with relay := v }
  else if off = 0x114 then
    if 2 ^ s.fuses.part.outerPlanes ≤ bits v 15 0 then s.noteReject pgFab off false
    else s.setTree t { x with outer := v.setWidth 16 }
  else s

/-- GT registers of the selected group (R341, R367): ignored while VALID = 1, but for a write of VALID = 0. -/
def groupWrite (s : State) (off : Nat) (v : Word) : State :=
  let g := selGroup s
  let cfg := BitVec.ofNat 32 (2 ^ 24 * bits v 30 24 + 2 ^ 12 * bits v 21 12)
  if (s.group g).valid then
    if off = 0x20C ∧ !bitAt v 31 then
      let s := doGroupWithdraw (Fin.ofNat 256 g) s
      s.setGroup g { s.group g with cfg := cfg }
    else s
  else
    let x := s.group g
    if off = 0x20C then
      let s := s.setGroup g { x with cfg := cfg }
      if bitAt v 31 then doGroupValidate (Fin.ofNat 256 g) s else s
    else if off = 0x210 then
      let mOk := decide (bits v 25 16 ≤ 511)
      let qOk := decide (1 ≤ bits v 5 0 ∧ bits v 5 0 ≤ 32)
      let w := if mOk then putBits x.shape 25 16 (bits v 25 16) else x.shape
      let w := if qOk then putBits w 5 0 (bits v 5 0) else w
      let s := s.setGroup g { x with shape := w }
      if mOk && qOk then s else s.noteReject (pgCol 0) off false
    else if off = 0x214 then s.setGroup g { x with mask := v }
    else if off = 0x218 then s.setGroup g { x with rings := v }
    else s

/-- Registers whose write is an operation of its own in place of the table's field rules; none for the others. -/
def ownWrite (s : State) (page : Nat) (t : PageType) (i off : Nat) (v : Word) : Option State :=
  if off = 0x024 then some (s.setReg page off (BitVec.ofNat 32 (v.toNat &&& maskable t)))
  else if off = 0x028 then some (doErrInjectArm (BitVec.ofNat 16 page) v s)
  else if off = 0x02C then some (doErrFirstClear (BitVec.ofNat 16 page) v s)
  else if 0x080 ≤ off ∧ off < 0x100 then some (doErrActionWrite (BitVec.ofNat 16 page) (Fin.ofNat 32 ((off - 0x080) / 4)) v s)
  else match t with
    | .grv =>
      if 0x140 ≤ off ∧ off < 0x240 ∧ (off - 0x140) % 32 = 8 then some (ringDoorbell s i ((off - 0x140) / 32) (bits v 15 0))
      else if off = 0x114 then some (if bitAt v 0 then brkResume s i (bitAt v 1) else s)
      else if 0x400 ≤ off ∧ off < 0x600 then some (doFpoisonClear (Fin.ofNat 2304 i) (Fin.ofNat 128 ((off - 0x400) / 4)) v s)
      else none
    | .vec => if off = 0x100 then some (doSrSeedWrite (Fin.ofNat 2304 i) v s) else none
    | .fab => if 0x108 ≤ off ∧ off < 0x120 then some (treeWrite s off v) else none
    | .col => if i = 0 ∧ 0x20C ≤ off ∧ off < 0x220 then some (groupWrite s off v) else none
    | .flt => if off = 0x114 then some (if bitAt v 0 then doPinHoldRelease s else s) else none
    | _ => none

/-- A cleared ERR_STAT lets the next error of a plate or a core's SRAM place ERR_LOC anew (R221, R224). -/
def reopenLoc (s : State) (t : PageType) (i : Nat) : State :=
  match t with
  | .plt => { s with plateCodes := { s.plateCodes with loc := smErase s.plateCodes.loc i } }
  | .srm => { s with sramCodes := { s.sramCodes with loc := smErase s.sramCodes.loc i } }
  | _ => s

/-- What the written bits of a register make happen beside its fields. -/
def afterWrite (s : State) (page : Nat) (t : PageType) (i off : Nat) (v : Word) : State :=
  if off = 0x008 then
    (if bitAt v 1 then clearCounters s page else s)
  else if off = 0x020 ∧ s.reg page 0x020 = 0 then reopenLoc s t i
  else match t with
    | .grv =>
      if 0x140 ≤ off ∧ off < 0x240 ∧ (off - 0x140) % 32 = 0 ∧ bitAt v 1 then
        doQueueFlush (Fin.ofNat 2304 i) (Fin.ofNat 8 ((off - 0x140) / 32)) s
      else s
    | .aqt => if off = 0x114 ∧ bitAt v 0 then doAqtReadmitWrite (Fin.ofNat 16 i) s else s
    | .stl =>
      if off = 0x104 ∧ bitAt v 1 then doSelReqWrite (Fin.ofNat 8 i) s
      else if (off = STL_OPEER_VALID.off ∨ off = STL_OPEER_VALID.off + 4) ∧ bitAt v STL_OPEER_VALID.lo then
        circuitGone s i ((off - STL_OPEER_VALID.off) / 4)
      else s
    | .arr => if off = 0x100 ∧ !bitAt v 0 then stopShading s i else s
    | .key =>
      if 0x200 ≤ off ∧ off < 0x680 ∧ bitAt v 10 then
        let n := (off - 0x200) / 4
        doRingReadmitWrite (Fin.ofNat 8 i) (Fin.ofNat 8 (n / 36)) (Fin.ofNat 36 (n % 36)) s
      else s
    | .mem => if off = 0x100 ∧ bitAt v 0 then doWindowCommit s else s
    | .tim =>
      if off = 0x13C ∧ bitAt v 0 then doTimeSetGo s
      else if off = 0x140 then settlePps s
      else if 0x180 ≤ off ∧ off < 0x1C0 ∧ off % 16 = 0 ∧ bitAt v 0 then
        doCaptureEvent (Fin.ofNat 4 ((off - 0x180) / 16)) .softArm s
      else s
    | .flt =>
      if off = 0x100 then
        let s := if bitAt v 2 then s.setFld pgFlt FLT_FSTAT_RCOUNT 0 else s
        if bitAt v 1 then doFctrlExitWrite s else autoExit s
      else s
    | .sec => if off = 0x108 ∧ bitAt v 0 then doSvnAdvance s else s
    | .hpt => if off = HPT_HCTRL_PFC_EN.off then flushQueued s else s
    | .dbg => if off = 0x104 ∧ bitAt v 0 then doDbgPulse s else s
    | _ => s

/-- A register of a page the part has, written by `w`. Answers whether a claim refused it. -/
def writeReg (s : State) (w : Writer) (page : Nat) (t : PageType) (i off : Nat) (v : Word) : Bool × State :=
  match governed s t off with
  | some r =>
    if holdsClaim s w r then (false, applyReg s) else (true, claimRefused s page off r)
  | none =>
    if t = .eas ∧ 0x200 ≤ off ∧ off < 0x254 ∧ off % 4 = 0 then claimWrite s w ((off - 0x200) / 4) v
    else (false, applyReg s)
where
  applyReg (s : State) : State :=
    match ownWrite s page t i off v with
    | some s => s
    | none =>
      match regFind t i off with
      | none => s
      | some r =>
        let die := s.fld pgDbg DBG_DCTRL_DIE
        let s := afterWrite (writeFields s page t i off r v) page t i off v
        if t = .dbg ∧ s.fld pgDbg DBG_DCTRL_DIE ≠ die then { s with dbgRestart := true } else s

/-- A CSR write: status of R141 and the state after it. -/
def csrWrite (s : State) (w : Writer) (page off : Nat) (v : Word) : Nat × State :=
  match pageOf s.fuses.part page with
  | none => (3, s)
  | some (t, i) =>
    let (bad, s) := fabricParity s
    if bad then (4, s)
    else
      let (no, s) := writeReg s w page t i off v
      (if no then 0xA else 0, s)

def doCsrRegisterWrite (w : Writer) (page : BitVec 16) (off : BitVec 12) (v : Word) (s : State) : State :=
  (csrWrite s w page.toNat (off.toNat / 4 * 4) v).2

/-- CNT_CLR. -/
def doCntClr (page : BitVec 16) (s : State) : State := clearCounters s page.toNat

/-- PAGE_LOCK. -/
def doPageLock (page : BitVec 16) (s : State) : State :=
  if (pageOf s.fuses.part page.toNat).isSome then s.setFld page.toNat PG_CTRL_LOCK 1 else s

/-- Has the page this counter. -/
def hasCounter (s : State) (page i : Nat) : Bool :=
  match pageOf s.fuses.part page with
  | some (t, _) => decide (i < t.ncnt)
  | none => false

/-- COUNTER_LOW_READ. -/
def doCounterLowRead (page : BitVec 16) (i : Fin 8) (s : State) : State :=
  if hasCounter s page.toNat i then (readLow s page.toNat i).2 else s

/-- COUNTER_HIGH_READ. -/
def doCounterHighRead (page : BitVec 16) (i : Fin 8) (s : State) : State :=
  if hasCounter s page.toNat i then (readHigh s page.toNat i).2 else s

/-! ### CSR packets (R315, R318) -/

/-- Page and offset of a CSR address by its local offset (R521). -/
def csrPage (off : Nat) : Nat := if 0x200000000000 ≤ off then (off - 0x200000000000) / 0x1000 else 0xFFFF
def csrOff (off : Nat) : Nat := off % 0x1000 / 4 * 4

/-- The page of a CSR packet's address: none in another space (R308, R315). -/
def packetPage (addr : Nat) : Nat := if faSpace addr = 1 then csrPage (faOff addr) else 0xFFFF

/-- CSR_RD. -/
def csrRdPerform (s : State) (p : Packet) : Packet × State :=
  let (st, v, s) := csrRead s (packetPage p.addr) (csrOff (faOff p.addr))
  (rspPacket s p 0x12 st (st != 0) (leBytes 4 v.toNat), s)

def doCsrRdPacketReceive (s : State) : State := takeReq s 4 (fun _ => 4) csrRdPerform

/-- CSR_WR: to an absent address it is discarded and recorded (R315). -/
def csrWrPerform (s : State) (p : Packet) : State :=
  let (st, s) := csrWrite s (.device p.src) (packetPage p.addr) (csrOff (faOff p.addr)) (BitVec.ofNat 32 (leAt p.payload 0 4))
  if st = 3 then errOcc (s.bump pgMem 4) pgMem 0 0 else s

def doCsrWrPacketReceive (s : State) : State := takeSeq s 5 (fun s p _ => csrWrPerform s p)

/-! ### Meanings -/

/-- CLAIM_ACQUIRE. -/
def execClaimAcquire (w : Writer) (r : Fin 21) (v : Word) (s : State) : Res := .next (powered (doClaimAcquire w r v) s)

/-- CLAIM_RELEASE. -/
def execClaimRelease (w : Writer) (r : Fin 21) (v : Word) (s : State) : Res := .next (powered (doClaimRelease w r v) s)

/-- CLAIM_FORCE_RELEASE. -/
def execClaimForceRelease (w : Writer) (r : Fin 21) (v : Word) (s : State) : Res := .next (powered (doClaimForceRelease w r v) s)

/-- DBG_PULSE. -/
def execDbgPulse (s : State) : Res := .next (powered doDbgPulse s)

/-- DBG_STROBE. -/
def execDbgStrobe (ev : CapEvent) (s : State) : Res := .next (powered (doDbgStrobe ev) s)

/-- DBG_DIE_CHANGE. -/
def execDbgDieChange (w : Writer) (d : DieId) (s : State) : Res := .next (powered (doDbgDieChange w d) s)

/-- DBG_COUNTER_SAMPLE. -/
def execDbgCounterSample (flits blocked meshRetry bridgeRetry : Nat) (s : State) : Res := .next (powered (doDbgCounterSample flits blocked meshRetry bridgeRetry) s)

/-- CSR_REGISTER_WRITE. -/
def execCsrRegisterWrite (w : Writer) (page : BitVec 16) (off : BitVec 12) (v : Word) (s : State) : Res := .next (powered (doCsrRegisterWrite w page off v) s)

/-- CNT_CLR. -/
def execCntClr (page : BitVec 16) (s : State) : Res := .next (powered (doCntClr page) s)

/-- PAGE_LOCK. -/
def execPageLock (page : BitVec 16) (s : State) : Res := .next (powered (doPageLock page) s)

/-- COUNTER_LOW_READ. -/
def execCounterLowRead (page : BitVec 16) (i : Fin 8) (s : State) : Res := .next (powered (doCounterLowRead page i) s)

/-- COUNTER_HIGH_READ. -/
def execCounterHighRead (page : BitVec 16) (i : Fin 8) (s : State) : Res := .next (powered (doCounterHighRead page i) s)

/-- CSR_RD_PACKET_RECEIVE. -/
def execCsrRdPacketReceive (s : State) : Res := .next (powered doCsrRdPacketReceive s)

/-- CSR_WR_PACKET_RECEIVE. -/
def execCsrWrPacketReceive (s : State) : Res := .next (powered doCsrWrPacketReceive s)

end Sys2Proof.Machine
end

