-- ==== Sys2Proof/Machine/HostPort.lean ====
section
/-!
DEFINITION. The host port: received frames (R473 to R478), sessions and reliable delivery (R481 to R484), requests (R485, R486, R489,
R499, R507 to R510) and events (R487).
-/

namespace Sys2Proof.Machine

/-! ### The link -/

def hostLink (s : State) : Bool := s.pins.pwrGood && s.flag pgHpt HPT_LSTAT_LINK_UP

/-- HOST_LINK_UP: the link comes up when both ends transmit (R473). -/
def doHostLinkUp (s : State) : State :=
  s.setFlds pgHpt [(HPT_LSTAT_SIGNAL, 1), (HPT_LSTAT_ALIGNED, 1), (HPT_LSTAT_LINK_UP, 1)]

/-- HOST_LINK_DOWN: LINK_UP clears; what is left of the signal and the alignment depends on the cause (R491, R493). -/
def doHostLinkDown (s : State) : State :=
  if !s.flag pgHpt HPT_LSTAT_LINK_UP then s
  else
    let (a, s) := s.freeNat 2
    let (b, s) := s.freeNat 2
    let s := s.setFlds pgHpt [(HPT_LSTAT_LINK_UP, 0), (HPT_LSTAT_SIGNAL, a), (HPT_LSTAT_ALIGNED, b)]
    errOcc { s with host := { s.host with queued := [] } } pgHpt 1 0

/-! ### Sessions -/

/-- Events the host has acknowledged: `ack` is the lowest event SEQ not yet received (R478). -/
def ackEvents (s : State) (k ack : Nat) : State :=
  if s.host.evSess = some k ∧ !seqBefore s.host.evNext ack then
    { s with host := { s.host with unacked := s.host.unacked.filter (fun e => !seqBefore e.1 ack) } }
  else s

/-- Session `k` is the event session no longer: what it has not acknowledged waits again, before everything newer (R487). -/
def dropEvSess (s : State) : State :=
  { s with events := s.host.unacked.map (·.2) ++ s.events, host := { s.host with evSess := none, unacked := [], evNext := 0 } }

/-- A session closes (R481): its claims end (R528), its partial image is discarded (R499), and bundles it brought answer nobody. -/
def closeSession (s : State) (k : Nat) : State :=
  let s := { s with host := { s.host with sess := smErase s.host.sess k } }
  let s := (List.range 21).foldl (fun s r =>
    if claimHeld s r && s.fld pgEas (claim EAS_CLAIM_KIND r) == 1 && s.fld pgEas (claim EAS_CLAIM_OWNER r) == k then
      s.setFld pgEas (claim EAS_CLAIM_HELD r) 0 else s) s
  let s := if s.sec.owner = some k ∧ stage s = 3 then dropImage s else s
  let inbox := s.mbr.inbox.map (fun b => if b.session = k + 1 then { b with session := 0 } else b)
  let held := s.mbr.held.map (fun b => if b.session = k + 1 then { b with session := 0 } else b)
  let s : State := { s with mbr := { s.mbr with inbox := inbox, held := held } }
  pfcCheck (if s.host.evSess = some k then dropEvSess s else s)

/-- SESSION_IDLE_CLOSE. -/
def doSessionIdleClose (k : SessId) (s : State) : State :=
  if (s.sess k).isSome then errOcc (closeSession s k) pgHpt 5 0 else s

/-! ### OPEN and ACK -/

/-- The answer to an OPEN, to the source of its message (R477, R480). -/
def openAnswer (s : State) (src : HostSrc) (k seq : Nat) (x : SessSt) : State :=
  sendMct s src (mctBytes 1 3 0 k seq 0 x.incarn
    (leBytes 2 (s.fld pgMbr MBR_DEVNUM_NUMBER) ++ [BitVec.ofNat 8 x.events.toNat, 0, 0, 1, 0, 0]))

/-- A fresh INCARN: not zero and not the previous one of the session number, else free (R481). -/
def freshIncarn (s : State) (k : Nat) : Nat × State :=
  let prev := smGet 0 s.host.incarn k
  let (n, s) := s.freeNat (2 ^ 32 - 2)
  let v := if prev ≠ 0 ∧ prev ≤ n + 1 then n + 2 else n + 1
  (v, { s with host := { s.host with incarn := smSet 0 s.host.incarn k v } })

/-- OPEN, oldest first (R481, R487). -/
def openOne (s : State) (src : HostSrc) (seq nonce : Nat) (events : Bool) : State :=
  match s.host.sess.find? (fun e => sameSrc e.2.src src && e.2.nonce == nonce && !e.2.begun) with
  | some (k, x) => openAnswer s src k seq x
  | none =>
    match (List.range 16).find? (fun k => !smHas s.host.sess k) with
    | none => sendMct s src (mctBytes 1 3 0x81 0xFF seq 0 0 [])
    | some k =>
      let (incarn, s) := freshIncarn s k
      let x : SessSt := { src := src, nonce := nonce, incarn := incarn, events := events, begun := false, reqs := [],
                          ack := 0, got := [], next := 0, busy := false, cache := [] }
      let s := s.setSess k x
      let s := if events then
          let s := dropEvSess s
          { s with host := { s.host with evSess := some k } }
        else s
      openAnswer s src k seq x

def doOpenSession (s : State) : State :=
  match takeInq s (fun i => match i with | .opens a b c d => some (a, b, c, d) | _ => none) with
  | none => s
  | some ((src, seq, nonce, events), s) => openOne s src seq nonce events

/-- MCT_ACK. -/
def doMctAck (s : State) : State :=
  match takeInq s (fun i => match i with | .acks a b => some (a, b) | _ => none) with
  | none => s
  | some ((k, ack), s) => ackEvents s k ack

/-! ### Other protocols -/

/-- ARP_REQUEST (R475). -/
def doArpRequest (s : State) : State :=
  match takeInq s (fun i => match i with | .arp m a t => some (m, a, t) | _ => none) with
  | none => s
  | some ((mac, ip, t), s) =>
    if s.flag pgHpt HPT_HCTRL_IPV4_EN && ownIpv4 s != 0 && t == ownIpv4 s then sendEther s (arpReply s mac ip) else s

/-- NEIGHBOR_SOLICITATION (R475). -/
def doNeighborSolicitation (s : State) : State :=
  match takeInq s (fun i => match i with | .solicit m a t => some (m, a, t) | _ => none) with
  | none => s
  | some ((mac, ip, t), s) =>
    if s.flag pgHpt HPT_HCTRL_IPV6_EN && t == ownIpv6 s then sendEther s (advertisement s mac ip) else s

/-- PFC_FRAME_RECEIVE (R476). -/
def doPfcFrameReceive (s : State) : State :=
  match takeInq s (fun i => match i with | .pfc a b => some (a, b) | _ => none) with
  | none => s
  | some ((classes, times), s) =>
    let prio := s.fld pgHpt HPT_PFC_PRIO
    if s.flag pgHpt HPT_HCTRL_PFC_EN && classes.testBit prio then
      flushQueued { s with host := { s.host with paused := times.getD prio 0 != 0 } }
    else s

/-! ### Register requests (R485) -/

/-- A request's outcome: STATUS, response payload, state. -/
abbrev Answer := Nat × List Byte × State

def badForm (s : State) : Answer := (8, [], s)

/-- The common part of CSR_RD and CSR_WR: STATUS of a malformed request, or the local offset and COUNT. -/
def csrArgs (s : State) (b : List Byte) (extra : Nat → Nat) : Nat × Nat × Nat :=
  let a := leAt b 0 8
  let n := leAt b 8 2
  if b.length < 16 ∨ leAt b 10 6 ≠ 0 ∨ n = 0 ∨ 256 < n ∨ b.length ≠ 16 + extra n ∨ faSpace a ≠ 1 then (8, 0, 0)
  else if !s.isOwn (faDev a) then (3, 0, 0)
  else if faOff a % 4 ≠ 0 ∨ 4096 < faOff a % 4096 + 4 * n then (8, 0, 0)
  else (0, faOff a, n)

/-- Words read in ascending order; zeros from the failing word on. -/
def csrReadWords : Nat → State → Nat → Nat × List Byte × State
  | 0, s, _ => (0, [], s)
  | n + 1, s, off =>
    let (st, v, s) := csrRead s (csrPage off) (off % 4096)
    if st ≠ 0 then (st, List.replicate (4 * (n + 1)) 0, s)
    else
      let (st, bs, s) := csrReadWords n s (off + 4)
      (st, leBytes 4 v.toNat ++ bs, s)

def reqCsrRd (s : State) (b : List Byte) : Answer :=
  match csrArgs s b (fun _ => 0) with
  | (0, off, n) => csrReadWords n s off
  | (st, _, _) => (st, [], s)

/-- Words written in ascending order; none after a failing one. -/
def csrWriteWords (w : Writer) : List Nat → State → Nat → Nat × State
  | [], s, _ => (0, s)
  | v :: vs, s, off =>
    let (st, s) := csrWrite s w (csrPage off) (off % 4096) (BitVec.ofNat 32 v)
    if st ≠ 0 then (st, s) else csrWriteWords w vs s (off + 4)

def reqCsrWr (k : SessId) (s : State) (b : List Byte) : Answer :=
  match csrArgs s b (4 * ·) with
  | (0, off, n) =>
    let (st, s) := csrWriteWords (.session k) ((List.range n).map (fun i => leAt b (16 + 4 * i) 4)) s off
    (st, [], s)
  | (st, _, _) => (st, [], s)

def reqDoorbell (k : SessId) (s : State) (b : List Byte) : Answer :=
  let x := leAt b 0 2
  if b.length ≠ 8 ∨ 4096 ≤ x ∨ 8 ≤ leAt b 2 1 ∨ leAt b 3 1 ≠ 0 ∨ leAt b 6 2 ≠ 0 then badForm s
  else if 288 ≤ x % 512 then (3, [], s)
  else
    let (st, s) := csrWrite s (.session k) (pgGrv (288 * (x / 512) + x % 512)) (0x148 + 0x20 * leAt b 2 1) (BitVec.ofNat 32 (leAt b 4 2))
    (st, [], s)

/-! ### Memory requests (R486) -/

/-- STATUS of an address and length that cannot be served. -/
def memArgs (s : State) (a n : Nat) : Nat :=
  if faSpace a ≠ 0 ∧ faSpace a ≠ 2 then 8
  else if !s.isOwn (faDev a) then 3
  else if faSpace a = 0 then (if rangeExists s.fuses (faOff a) n then 0 else 3)
  else if faOff a % 4 ≠ 0 ∨ n % 4 ≠ 0 then 8
  else if (List.range (n / 4)).all (fun i => (flagOfOffset (faOff a + 4 * i)).isSome) then 0 else 3

/-- Flag counters loaded from the host. -/
def loadFlags (s : State) (off : Nat) (bs : List Byte) : State :=
  (List.range (bs.length / 4)).foldl (fun s i =>
    match flagOfOffset (off + 4 * i) with
    | some (c, f) => flagWrite s .host c f (BitVec.ofNat 32 (leAt bs (4 * i) 4))
    | none => s) s

/-- MEM_WR: its writes go the way of all that come over the mesh, and `ack` waits for them (R48, R484). -/
def reqMemWr (ack : Ack) (s : State) (b : List Byte) : Answer :=
  let a := leAt b 0 8
  let bs := b.drop 16
  if b.length < 17 ∨ 8192 < b.length ∨ leAt b 8 8 ≠ 0 then badForm s
  else match memArgs s a bs.length with
    | 0 => (0, [], if faSpace a = 0 then sendParts s none (fun _ => none) (some ack) (runParts [(some (faOff a), bs.length)] bs) false
        else loadFlags s (faOff a) bs)
    | st => (st, [], s)

/-- The poison map of a read: bit i for bytes 32i to 32i + 31 (R486). -/
def poisonMap (l : List RdFail) : Nat :=
  bitMap 256 (fun i => l.any (fun f => decide (f.pos / 32 ≤ i ∧ i ≤ (f.pos + f.len - 1) / 32)))

/-- The bytes with those of uncorrectable words zero. -/
def zeroBad (l : List RdFail) (bs : List Byte) : List Byte :=
  l.foldl (fun bs f => bs.take f.pos ++ List.replicate f.len 0 ++ bs.drop (f.pos + f.len)) bs

def reqMemRd (s : State) (b : List Byte) : Answer :=
  let a := leAt b 0 8
  let n := leAt b 8 4
  if b.length ≠ 16 ∨ n = 0 ∨ 8160 < n ∨ leAt b 12 4 ≠ 0 then badForm s
  else match memArgs s a n with
    | 0 =>
      if faSpace a = 2 then
        let l := (List.range (n / 4)).filterMap (fun i => flagOfOffset (faOff a + 4 * i))
        -- after the increments that reached the store before the read (R61)
        let s := l.foldl (fun s x => drainIncs s x.1) s
        (0, List.replicate 32 (0 : Byte) ++ l.flatMap (fun x => leBytes 4 (s.flagVal x.1 x.2).toNat), s)
      else
        let (r, s) := readEach true (faOff a) n s
        let s := recordFails s r
        (if r.bad.isEmpty then 0 else 4, leBytes 32 (poisonMap (r.bad ++ r.soft)) ++ zeroBad r.bad r.bytes, s)
    | st => (st, [], s)

/-! ### THROTTLE, BOOT, MEMBER (R489) -/

def reqThrottle (s : State) (b : List Byte) : Answer :=
  if b.length ≠ 8 ∨ 8 ≤ leAt b 0 8 then badForm s else (0, [], doCapStepWrite (Fin.ofNat 8 (leAt b 0 1)) s)

/-- Bytes placed in the image buffer. -/
def placeImage (s : State) (off : Nat) (bs : List Byte) : State :=
  { s with sec := { s.sec with
      img := (bs.mapIdx (fun i v => (off + i, v))).foldl (fun m e => smSet 0 m e.1 e.2) s.sec.img
      ranges := addRange s.sec.ranges off (off + bs.length) } }

/-- A BOOT fragment (R499). -/
def reqBoot (k : SessId) (s : State) (b : List Byte) : Answer :=
  let off := leAt b 0 4
  let total := leAt b 4 4
  let bs := b.drop 16
  if stage s ≠ 3 ∨ (s.sec.owner.isSome ∧ s.sec.owner ≠ some k.val) then (0x82, [], s)
  else if b.length < 17 ∨ 8192 < b.length ∨ leAt b 8 8 ≠ 0 then badForm s
  else if total < 8192 ∨ 33554432 < total ∨ (s.sec.owner.isSome ∧ total ≠ s.sec.imgTotal) ∨ total < off + bs.length then
    badForm (dropImage s)
  else
    let s := placeImage { s with sec := { s.sec with owner := some k.val, imgTotal := total } } off bs
    (0, [], if rangeLen s.sec.ranges = total then setStage s 4 else s)

/-! ### ATTEST (R504 to R510) -/

/-- SEC source 3 and the answer to a malformed request. -/
def badAttest (s : State) : Answer := (8, [], errOcc s pgSec 3 0)

/-- The report's bytes before the signature (R510). -/
def reportHead (s : State) (nonce : List Byte) : List Byte :=
  let b (n : Nat) : Byte := BitVec.ofNat 8 n
  ([0xA7, 1, b (stage s), b (s.fld pgSec SEC_BSTAT_WARM + 2 * s.fld pgFlt FLT_FSTAT_LATCHED + 4 * (!s.sec.trust.isEmpty).toNat)] : List Byte)
    ++ leBytes 4 (s.fld pgSec SEC_SVN_RUN) ++ nonce ++ s.fuses.idHash ++ s.sec.mv ++ leBytes 2 s.sec.log.length
    ++ [b s.fuses.svnBurnt, 0] ++ leBytes 4 (s.reg pgMbr 0x104).toNat ++ leBytes 4 (s.fld pgMbr MBR_MEPOCH)
    ++ leBytes 4 (s.fld pgSec SEC_TRUST) ++ leBytes 4 s.time.ns ++ leBytes 4 s.time.sec ++ List.replicate 8 0

def reqReport (s : State) (b : List Byte) : Answer :=
  if b.length ≠ 36 ∨ leAt b 1 3 ≠ 0 ∨ leAt b 0 1 ≠ 1 then badAttest s
  else if stage s < 2 then (0x82, [], s)
  else
    let m := reportHead s (b.drop 4)
    let (inj, s) := takeCrcInjection s pgSec 5
    let s := if inj then errOcc s pgSec 5 0 else s
    let sig := leBytes 3309 (Config.mldsaSign s.fuses.idSeed m (strBytes "MAELNY-G1-ATT") s.draw)
    (0, m ++ sig, { s.bump pgSec 2 with draw := s.draw + 1 })

/-- A measurement log entry's 72 bytes (R505). -/
def logBytes (i : Nat) (e : Nat × List Byte) : List Byte := leBytes 2 i ++ [BitVec.ofNat 8 e.1, 0, 0, 0, 0, 0] ++ e.2

def reqLog (s : State) (b : List Byte) : Answer :=
  if b.length ≠ 6 ∨ leAt b 1 3 ≠ 0 then badAttest s
  else if stage s < 2 then (0x82, [], s)
  else
    let first := leAt b 4 2
    let es := ((s.sec.log.mapIdx logBytes).drop first).take 100
    (0, leBytes 2 es.length ++ leBytes 2 s.sec.log.length ++ [0, 0, 0, 0] ++ es.flatten, s)

/-- The identity certificate (R504). -/
def certBytes (f : Fuses) : List Byte :=
  [0xC1, 1, BitVec.ofNat 8 f.part.code, 0] ++ leBytes 8 f.serial.toNat ++ leBytes 6 f.mac.toNat ++ List.replicate 6 0
    ++ f.idKey ++ (f.certSig ++ List.replicate 3309 0).take 3309

def reqCert (s : State) (b : List Byte) : Answer :=
  if b.length ≠ 4 ∨ leAt b 1 3 ≠ 0 then badAttest s
  else if stage s < 2 then (0x82, [], s)
  else (0, certBytes s.fuses, s)

/-- Is a trust set well formed (R506). -/
def trustOk (t : List Byte) : Bool :=
  leAt t 0 1 == 0xD3 && leAt t 1 1 == 1 && decide (1 ≤ trustN t ∧ trustN t ≤ 7) && decide (1 ≤ trustK t ∧ trustK t ≤ trustN t)
    && leAt t 4 4 != 0 && leAt t 8 8 == 0 && t.length == 16 + 1952 * trustN t

/-- A complete set is checked (R507): accepted with its measurement, or rejected. -/
def judgeTrust (s : State) (t : List Byte) : Answer :=
  let s := { s with sec := { s.sec with parts := [], nfrag := 0, total := 0 } }
  if !trustOk t then (8, [], errOcc s pgSec 2 0)
  else if 128 ≤ s.sec.log.length then (0x82, [], s)
  else
    let s := appendLog { s with sec := { s.sec with trust := t } } 5 (digest64 t)
    let s := s.setFlds pgSec [(SEC_TRUST, leAt t 4 4), (SEC_TRUST_CFG_VALID, 1), (SEC_TRUST_CFG_N, trustN t), (SEC_TRUST_CFG_K, trustK t)]
    (0, [], s.setFlds pgMbr [(MBR_QUORUM_N, trustN t), (MBR_QUORUM_K, trustK t)])

def reqTrust (s : State) (b : List Byte) : Answer :=
  let frag := leAt b 4 1
  let nfrag := leAt b 5 1
  let total := leAt b 8 4
  let bs := b.drop 16
  if b.length < 16 ∨ leAt b 1 3 ≠ 0 ∨ nfrag = 0 ∨ 2 < nfrag ∨ nfrag ≤ frag ∨ leAt b 6 2 ≠ 0 ∨ leAt b 12 4 ≠ 0
      ∨ total ≤ 8000 * (nfrag - 1) ∨ 8000 * nfrag < total ∨ bs.length ≠ min 8000 (total - 8000 * frag) then badAttest s
  else if stage s < 5 ∨ stage s = 7 ∨ !s.sec.trust.isEmpty ∨ viewValid s then (0x82, [], s)
  else
    let old := if s.sec.nfrag = nfrag ∧ s.sec.total = total then s.sec.parts else []
    let parts := smInsert old frag bs
    if parts.length = nfrag then judgeTrust s (parts.map (·.2)).flatten
    else (0, [], { s with sec := { s.sec with parts := parts, nfrag := nfrag, total := total } })

/-! ### Execution in SEQ order (R484) -/

/-- Has the session a MEM_WR whose writes are still in flight. -/
def SessSt.writing (x : SessSt) : Bool := x.reqs.any (fun e => seqBefore e.1 x.next)

/-- Is the next request of the session to start one that `want` accepts: while MEM_WRs are in flight only another MEM_WR starts (R484). -/
def nextReq (s : State) (k : Nat) (want : HostReq → Bool) : Option (SessSt × HostReq) :=
  match s.sess k with
  | none => none
  | some x =>
    if x.busy then none
    else match smFind x.reqs x.next with
      | some r => if want r && (r.typ == 0x20 || !x.writing) then some (x, r) else none
      | none => none

/-- The answer of a request; one that closed its own session is still answered. -/
def finishReq (s : State) (k : Nat) (x : SessSt) (r : HostReq) (a : Answer) : State :=
  if (a.2.2.sess k).isSome then respond a.2.2 k r.typ a.1 a.2.1
  else if s.pins.pwrGood then sendMct a.2.2 r.src (mctBytes r.typ 1 a.1 k x.next x.ack x.incarn a.2.1)
  else a.2.2

/-- The session's next request, if it is one that `want` accepts, is executed and answered. -/
def serve (s : State) (k : Nat) (want : HostReq → Bool) (f : State → List Byte → Answer) : State :=
  match nextReq s k want with
  | none => s
  | some (x, r) => finishReq s k x r (if stage s < 1 then (0x82, [], s) else f s r.bytes)

def isTyp (t : Nat) (r : HostReq) : Bool := r.typ == t
def isAttest (p : Nat → Bool) (r : HostReq) : Bool := r.typ == 0x41 && p (leAt r.bytes 0 1)

def doCsrRd (k : SessId) (s : State) : State := serve s k (isTyp 0x10) reqCsrRd
def doCsrWr (k : SessId) (s : State) : State := serve s k (isTyp 0x11) (reqCsrWr k)
def doDoorbell (k : SessId) (s : State) : State := serve s k (isTyp 0x12) (reqDoorbell k)
/-- MEM_WR: answered when its bytes are committed; the next MEM_WR may start before that (R484, R486). -/
def doMemWr (k : SessId) (s : State) : State :=
  match nextReq s k (isTyp 0x20) with
  | none => s
  | some (x, r) =>
    let ack : Ack := .host k x.incarn x.next
    let a : Answer := if stage s < 1 then (0x82, [], s) else reqMemWr ack s r.bytes
    if ackWaits a.2.2 ack then a.2.2.setSess k { x with next := (x.next + 1) % 2 ^ 32 } else finishReq s k x r a
def doMemRd (k : SessId) (s : State) : State := serve s k (isTyp 0x21) reqMemRd
def doThrottle (k : SessId) (s : State) : State := serve s k (isTyp 0x31) reqThrottle
def doBoot (k : SessId) (s : State) : State := serve s k (isTyp 0x40) (reqBoot k)

/-- ATTEST OP 1, and every OP that R509 reserves. -/
def doAttestReport (k : SessId) (s : State) : State := serve s k (isAttest (fun op => op < 2 || 4 < op)) reqReport
def doAttestLog (k : SessId) (s : State) : State := serve s k (isAttest (· == 2)) reqLog
def doAttestCert (k : SessId) (s : State) : State := serve s k (isAttest (· == 3)) reqCert
def doAttestTrust (k : SessId) (s : State) : State := serve s k (isAttest (· == 4)) reqTrust

/-- MEMBER: the bundle goes to verification, and the answer follows its outcome; without a trust set it is denied (R489,
R507). -/
def doMember (k : SessId) (s : State) : State :=
  match nextReq s k (isTyp 0x42) with
  | none => s
  | some (x, r) =>
    if s.sec.trust.isEmpty || decide (stage s < 1) then finishReq s k x r (0x82, [], s)
    else
      let s := (s.setSess k { x with busy := true }).bump pgMbr 0
      { s with mbr := { s.mbr with inbox := s.mbr.inbox ++ [⟨r.bytes, k + 1⟩] } }

/-- CLOSE: answered, then the session closes; it needs no stage (R482). -/
def doClose (k : SessId) (s : State) : State :=
  match nextReq s k (isTyp 2) with
  | none => s
  | some (_, r) => closeSession (respond s k 2 (if r.bytes.isEmpty then 0 else 8) []) k

/-! ### Received frames -/

/-- May a session's host read again what it has read (R483). -/
def readAgain (s : State) (k : Nat) (x : SessSt) (typ seq : Nat) (b : List Byte) : State :=
  let a : Answer := if stage s < 1 then (0x82, [], s) else if typ = 0x10 then reqCsrRd s b else reqMemRd s b
  sendMct a.2.2 x.src (mctBytes typ 1 a.1 k seq x.ack x.incarn a.2.1)

/-- ACK moves over the requests received without a gap. -/
def hostAck : Nat → Nat → List Nat → Nat
  | 0, a, _ => a
  | n + 1, a, got => if got.contains a then hostAck n ((a + 1) % 2 ^ 32) got else a

/-- A sequenced request of an open session (R483). -/
def takeRequest (s : State) (k : Nat) (x : SessSt) (typ seq : Nat) (b : List Byte) : State :=
  let d := (seq + 2 ^ 32 - x.ack) % 2 ^ 32
  if 256 ≤ d ∧ d < 2 ^ 31 then s.bump pgHpt 4
  else if smHas x.reqs seq then s
  else if d < 2 ^ 31 ∧ !x.got.contains seq then
    let got := seq :: x.got
    let ack := hostAck 257 x.ack got
    s.setSess k { x with
      begun := true, reqs := smInsert x.reqs seq ⟨typ, b, x.src⟩, ack := ack
      got := got.filter (fun n => (n + 2 ^ 32 - ack) % 2 ^ 32 < 2 ^ 31) }
  else if typ = 0x10 ∨ typ = 0x21 then readAgain s k x typ seq b
  else match x.cache.find? (fun r => r.seq == seq) with
    | some r => sendMct (s.bump pgHpt 6) x.src (mctBytes r.typ 1 r.status k seq x.ack x.incarn r.bytes)
    | none => s.bump pgHpt 4

/-- Types a host may send. -/
def hostTypes : List Nat := [0x01, 0x02, 0x03, 0x10, 0x11, 0x12, 0x20, 0x21, 0x31, 0x40, 0x41, 0x42]

/-- The header's fields hold no reserved encoding, and LEN agrees with the frame (R478, R480, R481). -/
def headerFits (b : List Byte) : Bool :=
  let typ := leAt b 1 1
  let unseq := typ == 1 || typ == 3
  leAt b 0 1 == 1 && hostTypes.contains typ && leAt b 2 1 == (if unseq then 2 else 0) && leAt b 3 1 == 0 && leAt b 5 1 == 0
    && b.length == 24 + leAt b 6 2 && decide (leAt b 6 2 ≤ 8192)
    && (if typ == 1 then leAt b 4 1 == 0xFF && leAt b 16 4 == 0 && leAt b 6 2 == 8 && decide (leAt b 24 4 < 2)
        else decide (leAt b 4 1 < 16))
    && (typ != 3 || leAt b 6 2 == 0)

/-- The CRC of a message (R478). -/
def mctCrcOk (b : List Byte) : Bool :=
  decide (24 ≤ b.length) && (crc32c (b.take 20 ++ [0, 0, 0, 0] ++ b.drop 24)).toNat == leAt b 20 4

/-- An MCT message (R478, R481). What a session sends goes to the addresses of the last message it accepted (R477). -/
def takeMct (s : State) (src : HostSrc) (b : List Byte) : State :=
  let (inj, s) := takeCrcInjection s pgHpt 3
  let typ := leAt b 1 1
  let k := leAt b 4 1
  if inj || !mctCrcOk b then errOcc (s.bump pgHpt 4) pgHpt 3 0
  else if !headerFits b then s.bump pgHpt 4
  else if typ = 1 then
    { s with host := { s.host with inq := s.host.inq ++ [.opens src (leAt b 8 4) (leAt b 28 4) ((leAt b 24 1).testBit 0)] } }
  else match s.sess k with
    | none => noSession s
    | some x =>
      if !sameSrc x.src src ∨ x.incarn ≠ leAt b 16 4 then noSession s
      else if typ = 3 then { s with host := { s.host with inq := s.host.inq ++ [.acks k (leAt b 12 4)] } }
      else takeRequest (ackEvents s k (leAt b 12 4)) k { x with src := src } typ (leAt b 8 4) (b.drop 24)
where
  noSession (s : State) : State :=
    sendMct s src (mctBytes (leAt b 1 1) (1 + leAt b 2 1) 0x80 (leAt b 4 1) (leAt b 8 4) 0 (leAt b 16 4) [])

/-- Bytes a frame takes of the receive buffer. -/
def bodySize : HostBody → Nat
  | .mct _ b => b.length
  | _ => 32

/-- The body of an accepted frame. -/
def takeBody (s : State) : HostBody → State
  | .mct src b => takeMct s src b
  | .arp m a t => wait s (.arp m a t)
  | .solicit m a t => wait s (.solicit m a t)
  | .ptp n p => wait s (.ptp n p s.time)
  | .pfc c l => wait s (.pfc c l)
  | .other => s
where
  wait (s : State) (i : HostIn) : State := { s with host := { s.host with inq := s.host.inq ++ [i] } }

/-- The receive buffer of 4 MiB (R476). -/
def rxBuffer : Nat := 4194304

/-- A frame with a correct FCS: discarded, or accepted where the buffer has room (R474, R476). -/
def takeFrameBody (s : State) (b : List Byte) : State :=
  match hostBody s b with
  | none => s.bump pgHpt 4
  | some x =>
    if rxBuffer < bufLevel s + bodySize x then (if s.flag pgHpt HPT_HCTRL_PFC_EN then s else errOcc s pgHpt 7 0)
    else pfcCheck (takeBody (s.bump pgHpt 0) x)

/-- HOST_FRAME_RECEIVE (R474, R492). -/
def doHostFrameReceive (fr : HostFrame) (s : State) : State :=
  if !hostLink s then s
  else
    let (inj0, s) := takeCrcInjection s pgHpt 0
    let (inj2, s) := takeCrcInjection s pgHpt 2
    let s := s.bumpBy pgHpt 2 fr.fecCorr
    if inj0 || fr.fecLost != 0 then errOcc (s.bumpBy pgHpt 3 (if inj0 then max 1 fr.fecLost else fr.fecLost)) pgHpt 0 0
    else if inj2 || !fcsOk fr.bytes then errOcc (s.bump pgHpt 4) pgHpt 2 0
    else takeFrameBody s fr.bytes

/-! ### Events (R487, R488) -/

/-- The 40 bytes of an EVENT. -/
def HostEvent.bytes (e : HostEvent) : List Byte :=
  [BitVec.ofNat 8 e.kind, 0] ++ leBytes 2 e.count ++ leBytes 4 e.ns ++ leBytes 4 e.sec ++ leBytes 4 e.origin ++ leBytes 8 e.data
    ++ (e.log ++ List.replicate 16 0).take 16

/-- An event on its way to the event session. -/
def sendEvent (s : State) (k : Nat) (x : SessSt) (seq : Nat) (e : HostEvent) : State :=
  sendMct s x.src (mctBytes 0x30 0 0 k seq x.ack x.incarn e.bytes)

/-- EVENT_MESSAGE_SEND. -/
def doEventMessageSend (s : State) : State :=
  match s.host.evSess, s.events with
  | some k, e :: rest =>
    match s.sess k with
    | none => s
    | some x =>
      if !(hostLink s && !mctPaused s) || decide (256 ≤ s.host.unacked.length) then s
      else
        let n := s.host.evNext
        sendEvent { s with
          events := rest, host := { s.host with unacked := s.host.unacked ++ [(n, e)], evNext := (n + 1) % 2 ^ 32 } } k x n e
  | _, _ => s

/-- EVENT_RESEND: the oldest event the host has not acknowledged. -/
def doEventResend (s : State) : State :=
  match s.host.evSess, s.host.unacked with
  | some k, (n, e) :: _ =>
    match s.sess k with
    | none => s
    | some x => if hostLink s && !mctPaused s then sendEvent (s.bump pgHpt 5) k x n e else s
  | _, _ => s

/-! ### Meanings -/

/-- HOST_LINK_UP. -/
def execHostLinkUp (s : State) : Res := .next (powered doHostLinkUp s)

/-- HOST_LINK_DOWN. -/
def execHostLinkDown (s : State) : Res := .next (powered doHostLinkDown s)

/-- SESSION_IDLE_CLOSE. -/
def execSessionIdleClose (k : SessId) (s : State) : Res := .next (powered (doSessionIdleClose k) s)

/-- OPEN. -/
def execOpenSession (s : State) : Res := .next (powered doOpenSession s)

/-- MCT_ACK. -/
def execMctAck (s : State) : Res := .next (powered doMctAck s)

/-- ARP_REQUEST. -/
def execArpRequest (s : State) : Res := .next (powered doArpRequest s)

/-- NEIGHBOR_SOLICITATION. -/
def execNeighborSolicitation (s : State) : Res := .next (powered doNeighborSolicitation s)

/-- PFC_FRAME_RECEIVE. -/
def execPfcFrameReceive (s : State) : Res := .next (powered doPfcFrameReceive s)

/-- CSR_RD. -/
def execCsrRd (k : SessId) (s : State) : Res := .next (powered (doCsrRd k) s)

/-- CSR_WR. -/
def execCsrWr (k : SessId) (s : State) : Res := .next (powered (doCsrWr k) s)

/-- DOORBELL. -/
def execDoorbell (k : SessId) (s : State) : Res := .next (powered (doDoorbell k) s)

/-- MEM_WR. -/
def execMemWr (k : SessId) (s : State) : Res := .next (powered (doMemWr k) s)

/-- MEM_RD. -/
def execMemRd (k : SessId) (s : State) : Res := .next (powered (doMemRd k) s)

/-- THROTTLE. -/
def execThrottle (k : SessId) (s : State) : Res := .next (powered (doThrottle k) s)

/-- BOOT. -/
def execBoot (k : SessId) (s : State) : Res := .next (powered (doBoot k) s)

/-- ATTEST_REPORT. -/
def execAttestReport (k : SessId) (s : State) : Res := .next (powered (doAttestReport k) s)

/-- ATTEST_LOG. -/
def execAttestLog (k : SessId) (s : State) : Res := .next (powered (doAttestLog k) s)

/-- ATTEST_CERT. -/
def execAttestCert (k : SessId) (s : State) : Res := .next (powered (doAttestCert k) s)

/-- ATTEST_TRUST. -/
def execAttestTrust (k : SessId) (s : State) : Res := .next (powered (doAttestTrust k) s)

/-- MEMBER. -/
def execMember (k : SessId) (s : State) : Res := .next (powered (doMember k) s)

/-- CLOSE. -/
def execClose (k : SessId) (s : State) : Res := .next (powered (doClose k) s)

/-- HOST_FRAME_RECEIVE. -/
def execHostFrameReceive (fr : HostFrame) (s : State) : Res := .next (powered (doHostFrameReceive fr) s)

/-- EVENT_MESSAGE_SEND. -/
def execEventMessageSend (s : State) : Res := .next (powered doEventMessageSend s)

/-- EVENT_RESEND. -/
def execEventResend (s : State) : Res := .next (powered doEventResend s)

end Sys2Proof.Machine
end

