-- ==== Sys2Proof/Machine/Dispatch.lean ====
section
/-!
DEFINITION. One arm for each command: a direct call of its meaning.
-/

namespace Sys2Proof.Machine

/-- The effect of a command on everything but the queue of waiting commands. -/
def exec (i : Instr) (s : State) : Host.Outcome State Fault Refusal :=
  match i with
  | .descriptorFetch c => Sys2Proof.Machine.execDescriptorFetch c s
  | .haltErrResume c q => Sys2Proof.Machine.execHaltErrResume c q s
  | .nop c => Sys2Proof.Machine.execNop c s
  | .flagSet c => Sys2Proof.Machine.execFlagSet c s
  | .trigger c => Sys2Proof.Machine.execTrigger c s
  | .event c => Sys2Proof.Machine.execEvent c s
  | .matmul c => Sys2Proof.Machine.execMatmul c s
  | .vew c => Sys2Proof.Machine.execVew c s
  | .vtr c => Sys2Proof.Machine.execVtr c s
  | .vred c => Sys2Proof.Machine.execVred c s
  | .vsmx c => Sys2Proof.Machine.execVsmx c s
  | .vcvt c => Sys2Proof.Machine.execVcvt c s
  | .vbq c => Sys2Proof.Machine.execVbq c s
  | .vls c => Sys2Proof.Machine.execVls c s
  | .copy c => Sys2Proof.Machine.execCopy c s
  | .fill c => Sys2Proof.Machine.execFill c s
  | .rget c => Sys2Proof.Machine.execRget c s
  | .rput c => Sys2Proof.Machine.execRput c s
  | .ratomic c => Sys2Proof.Machine.execRatomic c s
  | .select c => Sys2Proof.Machine.execSelect c s
  | .xcopy at_ => Sys2Proof.Machine.execXcopy at_ s
  | .xmcast at_ => Sys2Proof.Machine.execXmcast at_ s
  | .xmsig at_ => Sys2Proof.Machine.execXmsig at_ s
  | .cbarrier c => Sys2Proof.Machine.execCbarrier c s
  | .cbcast c => Sys2Proof.Machine.execCbcast c s
  | .callgather c => Sys2Proof.Machine.execCallgather c s
  | .credscat c => Sys2Proof.Machine.execCredscat c s
  | .callred c => Sys2Proof.Machine.execCallred c s
  | .calltoall c => Sys2Proof.Machine.execCalltoall c s
  | .aload at_ => Sys2Proof.Machine.execAload at_ s
  | .amul at_ => Sys2Proof.Machine.execAmul at_ s
  | .asketch at_ => Sys2Proof.Machine.execAsketch at_ s
  | .acal at_ => Sys2Proof.Machine.execAcal at_ s
  | .descriptorComplete c cls inst ahead => Sys2Proof.Machine.execDescriptorComplete c cls inst ahead s
  | .flagIncrementApply c => Sys2Proof.Machine.execFlagIncrementApply c s
  | .qtailWrite c q tail => Sys2Proof.Machine.execQtailWrite c q tail s
  | .queueFlush c q => Sys2Proof.Machine.execQueueFlush c q s
  | .flushComplete c q => Sys2Proof.Machine.execFlushComplete c q s
  | .stallTracerExpiry c => Sys2Proof.Machine.execStallTracerExpiry c s
  | .waitTimeout c q => Sys2Proof.Machine.execWaitTimeout c q s
  | .breakpointResume c => Sys2Proof.Machine.execBreakpointResume c s
  | .breakpointStep c => Sys2Proof.Machine.execBreakpointStep c s
  | .flagSpaceWrite origin c f v => Sys2Proof.Machine.execFlagSpaceWrite origin c f v s
  | .fpoisonClear c k mask => Sys2Proof.Machine.execFpoisonClear c k mask s
  | .arrayFeedStart c a => Sys2Proof.Machine.execArrayFeedStart c a s
  | .arrayColumnDrain c a => Sys2Proof.Machine.execArrayColumnDrain c a s
  | .burnisherBlockEnd c a => Sys2Proof.Machine.execBurnisherBlockEnd c a s
  | .shadeThreshExpiry c a => Sys2Proof.Machine.execShadeThreshExpiry c a s
  | .shadeRampStep c a => Sys2Proof.Machine.execShadeRampStep c a s
  | .inboundWriteCommit c => Sys2Proof.Machine.execInboundWriteCommit c s
  | .fetchComplete c e => Sys2Proof.Machine.execFetchComplete c e s
  | .mergeBufferEvict c line => Sys2Proof.Machine.execMergeBufferEvict c line s
  | .sramCorrectedWriteback c line => Sys2Proof.Machine.execSramCorrectedWriteback c line s
  | .sramScrubRead c line errs => Sys2Proof.Machine.execSramScrubRead c line errs s
  | .srSeedWrite c v => Sys2Proof.Machine.execSrSeedWrite c v s
  | .srSeedReload c => Sys2Proof.Machine.execSrSeedReload c s
  | .aqtHeaterSettleDone e identOk => Sys2Proof.Machine.execAqtHeaterSettleDone e identOk s
  | .aqtCalCheckDone e calErr => Sys2Proof.Machine.execAqtCalCheckDone e calErr s
  | .driftRecalDue e byPeriod => Sys2Proof.Machine.execDriftRecalDue e byPeriod s
  | .driftRecalStart e => Sys2Proof.Machine.execDriftRecalStart e s
  | .aqtLightLoss e inWindow => Sys2Proof.Machine.execAqtLightLoss e inWindow s
  | .aqtLightConfirm e => Sys2Proof.Machine.execAqtLightConfirm e s
  | .aqtSwitchoverRecal e => Sys2Proof.Machine.execAqtSwitchoverRecal e s
  | .aqtReadmitWrite e => Sys2Proof.Machine.execAqtReadmitWrite e s
  | .aqtReadmitTest e identOk calErr => Sys2Proof.Machine.execAqtReadmitTest e identOk calErr s
  | .aqtConfigApply e => Sys2Proof.Machine.execAqtConfigApply e s
  | .plateRead off errs => Sys2Proof.Machine.execPlateRead off errs s
  | .plateWrite off data poison => Sys2Proof.Machine.execPlateWrite off data poison s
  | .plateRefresh p ch refreshed answered => Sys2Proof.Machine.execPlateRefresh p ch refreshed answered s
  | .plateScrubRead off errs => Sys2Proof.Machine.execPlateScrubRead off errs s
  | .laneCountPeriodExpiry p => Sys2Proof.Machine.execLaneCountPeriodExpiry p s
  | .plateChannelTimeout p ch => Sys2Proof.Machine.execPlateChannelTimeout p ch s
  | .laserLoss d => Sys2Proof.Machine.execLaserLoss d s
  | .selectorSwitchDone d => Sys2Proof.Machine.execSelectorSwitchDone d s
  | .standbyToneCheckStep d inputB tone => Sys2Proof.Machine.execStandbyToneCheckStep d inputB tone s
  | .inputQualify d inputB => Sys2Proof.Machine.execInputQualify d inputB s
  | .standbyLightLoss d checkFailed => Sys2Proof.Machine.execStandbyLightLoss d checkFailed s
  | .selReqWrite d => Sys2Proof.Machine.execSelReqWrite d s
  | .dieDark d => Sys2Proof.Machine.execDieDark d s
  | .keylineLoopUpdate d f r track faulty => Sys2Proof.Machine.execKeylineLoopUpdate d f r track faulty s
  | .ringCapture d f r => Sys2Proof.Machine.execRingCapture d f r s
  | .ringLockLoss d f r => Sys2Proof.Machine.execRingLockLoss d f r s
  | .identityVerifyDone d f r strongest marginDb depth => Sys2Proof.Machine.execIdentityVerifyDone d f r strongest marginDb depth s
  | .periodicVerifyTimer d f r => Sys2Proof.Machine.execPeriodicVerifyTimer d f r s
  | .ringReadmitWrite d f r => Sys2Proof.Machine.execRingReadmitWrite d f r s
  | .epochBoundary tests => Sys2Proof.Machine.execEpochBoundary tests s
  | .allocReportReceive => Sys2Proof.Machine.execAllocReportReceive s
  | .reportWaitExpiry => Sys2Proof.Machine.execReportWaitExpiry s
  | .allocPlan => Sys2Proof.Machine.execAllocPlan s
  | .grantReceive => Sys2Proof.Machine.execGrantReceive s
  | .grantPrepare => Sys2Proof.Machine.execGrantPrepare s
  | .laneAbandon p k => Sys2Proof.Machine.execLaneAbandon p k s
  | .laneTuneDone p k => Sys2Proof.Machine.execLaneTuneDone p k s
  | .laneVerifyDone p k => Sys2Proof.Machine.execLaneVerifyDone p k s
  | .laneAlignDone p k => Sys2Proof.Machine.execLaneAlignDone p k s
  | .laneIdentDone p k => Sys2Proof.Machine.execLaneIdentDone p k s
  | .laneCheckDone p k => Sys2Proof.Machine.execLaneCheckDone p k s
  | .frameReceive p k fr => Sys2Proof.Machine.execFrameReceive p k fr s
  | .laneDegradeRemove p k => Sys2Proof.Machine.execLaneDegradeRemove p k s
  | .opeerValidClear d j => Sys2Proof.Machine.execOpeerValidClear d j s
  | .planeRxLos p => Sys2Proof.Machine.execPlaneRxLos p s
  | .transmitHoldOrder d => Sys2Proof.Machine.execTransmitHoldOrder d s
  | .transmitHoldRelease d => Sys2Proof.Machine.execTransmitHoldRelease d s
  | .opticalPowerSample d inA inB fibOut fibIn => Sys2Proof.Machine.execOpticalPowerSample d inA inB fibOut fibIn s
  | .linkCounterSample d f => Sys2Proof.Machine.execLinkCounterSample d f s
  | .linkUnitSend l p k => Sys2Proof.Machine.execLinkUnitSend l p k s
  | .linkUnitReceive => Sys2Proof.Machine.execLinkUnitReceive s
  | .linkRetransmit l lseq => Sys2Proof.Machine.execLinkRetransmit l lseq s
  | .linkReset l => Sys2Proof.Machine.execLinkReset l s
  | .sequencedPacketSend dst => Sys2Proof.Machine.execSequencedPacketSend dst s
  | .flaggedPacketRelease tree dst => Sys2Proof.Machine.execFlaggedPacketRelease tree dst s
  | .forwardPacket => Sys2Proof.Machine.execForwardPacket s
  | .transitMaxExpiry => Sys2Proof.Machine.execTransitMaxExpiry s
  | .storeReceive => Sys2Proof.Machine.execStoreReceive s
  | .loadReceive => Sys2Proof.Machine.execLoadReceive s
  | .atomicReceive => Sys2Proof.Machine.execAtomicReceive s
  | .csrRdPacketReceive => Sys2Proof.Machine.execCsrRdPacketReceive s
  | .csrWrPacketReceive => Sys2Proof.Machine.execCsrWrPacketReceive s
  | .ldataReceive => Sys2Proof.Machine.execLdataReceive s
  | .aresReceive => Sys2Proof.Machine.execAresReceive s
  | .csrDataReceive => Sys2Proof.Machine.execCsrDataReceive s
  | .putReceive => Sys2Proof.Machine.execPutReceive s
  | .pullReceive => Sys2Proof.Machine.execPullReceive s
  | .pullServe => Sys2Proof.Machine.execPullServe s
  | .sigReceive => Sys2Proof.Machine.execSigReceive s
  | .trigReceive => Sys2Proof.Machine.execTrigReceive s
  | .ackReceive => Sys2Proof.Machine.execAckReceive s
  | .ackSend src => Sys2Proof.Machine.execAckSend src s
  | .e2eRetransmit tree dst eseq => Sys2Proof.Machine.execE2eRetransmit tree dst eseq s
  | .mputReceive => Sys2Proof.Machine.execMputReceive s
  | .msigReceive => Sys2Proof.Machine.execMsigReceive s
  | .mackReceive => Sys2Proof.Machine.execMackReceive s
  | .mackSend tree => Sys2Proof.Machine.execMackSend tree s
  | .mtValidWrite tree src up => Sys2Proof.Machine.execMtValidWrite tree src up s
  | .windowCommit => Sys2Proof.Machine.execWindowCommit s
  | .windowCommitDone => Sys2Proof.Machine.execWindowCommitDone s
  | .requestTimeout c slot => Sys2Proof.Machine.execRequestTimeout c slot s
  | .pullTimeout pullId => Sys2Proof.Machine.execPullTimeout pullId s
  | .groupValidate g => Sys2Proof.Machine.execGroupValidate g s
  | .groupWithdraw g => Sys2Proof.Machine.execGroupWithdraw g s
  | .collStart e => Sys2Proof.Machine.execCollStart e s
  | .chunkDataSend e ctx peer => Sys2Proof.Machine.execChunkDataSend e ctx peer s
  | .chunkDataReceive => Sys2Proof.Machine.execChunkDataReceive s
  | .chunkGrantReceive => Sys2Proof.Machine.execChunkGrantReceive s
  | .chunkCackReceive => Sys2Proof.Machine.execChunkCackReceive s
  | .chunkHoldReceive => Sys2Proof.Machine.execChunkHoldReceive s
  | .chunkAbortReceive => Sys2Proof.Machine.execChunkAbortReceive s
  | .chunkResend e ctx peer => Sys2Proof.Machine.execChunkResend e ctx peer s
  | .collNoProgress e ctx => Sys2Proof.Machine.execCollNoProgress e ctx s
  | .abortResultPoison e ctx => Sys2Proof.Machine.execAbortResultPoison e ctx s
  | .lateWindowExpiry e => Sys2Proof.Machine.execLateWindowExpiry e s
  | .bundleVerify => Sys2Proof.Machine.execBundleVerify s
  | .changeCommand => Sys2Proof.Machine.execChangeCommand s
  | .policyCommand => Sys2Proof.Machine.execPolicyCommand s
  | .snapshotCommand => Sys2Proof.Machine.execSnapshotCommand s
  | .changeEffectApply => Sys2Proof.Machine.execChangeEffectApply s
  | .bundleFragmentReceive => Sys2Proof.Machine.execBundleFragmentReceive s
  | .cmdReqReceive => Sys2Proof.Machine.execCmdReqReceive s
  | .cmdReqTimer => Sys2Proof.Machine.execCmdReqTimer s
  | .staleTimer => Sys2Proof.Machine.execStaleTimer s
  | .circuitsSend => Sys2Proof.Machine.execCircuitsSend s
  | .circuitsReceive => Sys2Proof.Machine.execCircuitsReceive s
  | .circuitsAgeOut src => Sys2Proof.Machine.execCircuitsAgeOut src s
  | .healthScoreUpdate => Sys2Proof.Machine.execHealthScoreUpdate s
  | .healthEvent => Sys2Proof.Machine.execHealthEvent s
  | .aliveTick => Sys2Proof.Machine.execAliveTick s
  | .rootLivenessExpiry => Sys2Proof.Machine.execRootLivenessExpiry s
  | .holdoverEntry => Sys2Proof.Machine.execHoldoverEntry s
  | .timeLaneChange => Sys2Proof.Machine.execTimeLaneChange s
  | .lockAchieved => Sys2Proof.Machine.execLockAchieved s
  | .ocxoFail => Sys2Proof.Machine.execOcxoFail s
  | .timeSetGo => Sys2Proof.Machine.execTimeSetGo s
  | .timeSetApply => Sys2Proof.Machine.execTimeSetApply s
  | .ppsPulse rising => Sys2Proof.Machine.execPpsPulse rising s
  | .captureEvent slot ev => Sys2Proof.Machine.execCaptureEvent slot ev s
  | .nowNsRead => Sys2Proof.Machine.execNowNsRead s
  | .ptpSyncSend => Sys2Proof.Machine.execPtpSyncSend s
  | .ptpAnnounceSend => Sys2Proof.Machine.execPtpAnnounceSend s
  | .ptpDelayReqReceive => Sys2Proof.Machine.execPtpDelayReqReceive s
  | .errorOccurrence page src detail => Sys2Proof.Machine.execErrorOccurrence page src detail s
  | .faultHubReport => Sys2Proof.Machine.execFaultHubReport s
  | .trapTake => Sys2Proof.Machine.execTrapTake s
  | .blockReset c cls => Sys2Proof.Machine.execBlockReset c cls s
  | .errNAssert => Sys2Proof.Machine.execErrNAssert s
  | .errNMinExpiry => Sys2Proof.Machine.execErrNMinExpiry s
  | .errNHighExpiry => Sys2Proof.Machine.execErrNHighExpiry s
  | .pinHoldRelease => Sys2Proof.Machine.execPinHoldRelease s
  | .irqHoldExpiry page src => Sys2Proof.Machine.execIrqHoldExpiry page src s
  | .faultStateEntry => Sys2Proof.Machine.execFaultStateEntry s
  | .quietExpiry => Sys2Proof.Machine.execQuietExpiry s
  | .fctrlExitWrite => Sys2Proof.Machine.execFctrlExitWrite s
  | .fctrlRclr => Sys2Proof.Machine.execFctrlRclr s
  | .errFirstRead page => Sys2Proof.Machine.execErrFirstRead page s
  | .errFirstClear page v => Sys2Proof.Machine.execErrFirstClear page v s
  | .errActionWrite page src v => Sys2Proof.Machine.execErrActionWrite page src v s
  | .errInjectArm page v => Sys2Proof.Machine.execErrInjectArm page v s
  | .sensorSample samples => Sys2Proof.Machine.execSensorSample samples s
  | .sensorSelfCheck sensor pass => Sys2Proof.Machine.execSensorSelfCheck sensor pass s
  | .sensorSilentExpiry sensor => Sys2Proof.Machine.execSensorSilentExpiry sensor s
  | .graceExpiry d => Sys2Proof.Machine.execGraceExpiry d s
  | .enforceStepExpiry d => Sys2Proof.Machine.execEnforceStepExpiry d s
  | .reliefStepExpiry d => Sys2Proof.Machine.execReliefStepExpiry d s
  | .powerLimitAverage watts => Sys2Proof.Machine.execPowerLimitAverage watts s
  | .throttleStepChange d => Sys2Proof.Machine.execThrottleStepChange d s
  | .holdReleaseExpiry south => Sys2Proof.Machine.execHoldReleaseExpiry south s
  | .clampEndExpiry d => Sys2Proof.Machine.execClampEndExpiry d s
  | .clampReliefStep d => Sys2Proof.Machine.execClampReliefStep d s
  | .powerStateEntry page sub => Sys2Proof.Machine.execPowerStateEntry page sub s
  | .powerStateWake page sub => Sys2Proof.Machine.execPowerStateWake page sub s
  | .wakeReady page part => Sys2Proof.Machine.execWakeReady page part s
  | .capStepWrite step => Sys2Proof.Machine.execCapStepWrite step s
  | .hostFrameReceive fr => Sys2Proof.Machine.execHostFrameReceive fr s
  | .arpRequest => Sys2Proof.Machine.execArpRequest s
  | .neighborSolicitation => Sys2Proof.Machine.execNeighborSolicitation s
  | .pfcFrameReceive => Sys2Proof.Machine.execPfcFrameReceive s
  | .openSession => Sys2Proof.Machine.execOpenSession s
  | .close k => Sys2Proof.Machine.execClose k s
  | .mctAck => Sys2Proof.Machine.execMctAck s
  | .csrRd k => Sys2Proof.Machine.execCsrRd k s
  | .csrWr k => Sys2Proof.Machine.execCsrWr k s
  | .doorbell k => Sys2Proof.Machine.execDoorbell k s
  | .memWr k => Sys2Proof.Machine.execMemWr k s
  | .memRd k => Sys2Proof.Machine.execMemRd k s
  | .throttle k => Sys2Proof.Machine.execThrottle k s
  | .boot k => Sys2Proof.Machine.execBoot k s
  | .attestReport k => Sys2Proof.Machine.execAttestReport k s
  | .attestLog k => Sys2Proof.Machine.execAttestLog k s
  | .attestCert k => Sys2Proof.Machine.execAttestCert k s
  | .attestTrust k => Sys2Proof.Machine.execAttestTrust k s
  | .member k => Sys2Proof.Machine.execMember k s
  | .eventMessageSend => Sys2Proof.Machine.execEventMessageSend s
  | .eventResend => Sys2Proof.Machine.execEventResend s
  | .sessionIdleClose k => Sys2Proof.Machine.execSessionIdleClose k s
  | .hostLinkDown => Sys2Proof.Machine.execHostLinkDown s
  | .pwrEnAssert => Sys2Proof.Machine.execPwrEnAssert s
  | .pwrGoodAssert => Sys2Proof.Machine.execPwrGoodAssert s
  | .fuseLoad => Sys2Proof.Machine.execFuseLoad s
  | .bootRomSelfTest shakeOk mldsaOk => Sys2Proof.Machine.execBootRomSelfTest shakeOk mldsaOk s
  | .imageComplete => Sys2Proof.Machine.execImageComplete s
  | .plateTrainingDone failed => Sys2Proof.Machine.execPlateTrainingDone failed s
  | .coreTestDone failed => Sys2Proof.Machine.execCoreTestDone failed s
  | .bridgeTestDone failed => Sys2Proof.Machine.execBridgeTestDone failed s
  | .strelistStartupTest shuffle loopback engines => Sys2Proof.Machine.execStrelistStartupTest shuffle loopback engines s
  | .startupComplete => Sys2Proof.Machine.execStartupComplete s
  | .svnAdvance => Sys2Proof.Machine.execSvnAdvance s
  | .modReset lowNs => Sys2Proof.Machine.execModReset lowNs s
  | .pwrEnDeassert => Sys2Proof.Machine.execPwrEnDeassert s
  | .prsntNMate slot => Sys2Proof.Machine.execPrsntNMate slot s
  | .prsntNBreak => Sys2Proof.Machine.execPrsntNBreak s
  | .inputVoltageExcursion band => Sys2Proof.Machine.execInputVoltageExcursion band s
  | .claimAcquire w r v => Sys2Proof.Machine.execClaimAcquire w r v s
  | .claimRelease w r v => Sys2Proof.Machine.execClaimRelease w r v s
  | .claimForceRelease w r v => Sys2Proof.Machine.execClaimForceRelease w r v s
  | .cntClr page => Sys2Proof.Machine.execCntClr page s
  | .pageLock page => Sys2Proof.Machine.execPageLock page s
  | .counterLowRead page ix => Sys2Proof.Machine.execCounterLowRead page ix s
  | .counterHighRead page ix => Sys2Proof.Machine.execCounterHighRead page ix s
  | .csrRegisterWrite w page off v => Sys2Proof.Machine.execCsrRegisterWrite w page off v s
  | .dbgPulse => Sys2Proof.Machine.execDbgPulse s
  | .dbgStrobe ev => Sys2Proof.Machine.execDbgStrobe ev s
  | .dbgDieChange w d => Sys2Proof.Machine.execDbgDieChange w d s
  | .dbgCounterSample flits blocked meshRetry bridgeRetry => Sys2Proof.Machine.execDbgCounterSample flits blocked meshRetry bridgeRetry s
  | .heartbeatTick => Sys2Proof.Machine.execHeartbeatTick s
  | .hostLinkUp => Sys2Proof.Machine.execHostLinkUp s
  | .vinPresent => Sys2Proof.Machine.execVinPresent s
  | .arrayGapBegin c a => Sys2Proof.Machine.execArrayGapBegin c a s

end Sys2Proof.Machine
end

