-- ==== Sys2Proof/Machine/Lanes.lean ====
section
/-!
DEFINITION. The frames this device sends (R254, R257, R258, R274, R275, R401): one every 100 ns on each lane that transmits.
-/

namespace Sys2Proof.Machine

/-- May a transmit ring of a die modulate: the die has light, no transmit hold is in force, and the ring is locked and verified (R232,
R238, R239, R265). -/
def modulates (s : State) (d f r : Nat) : Bool := dieLit s d && !s.flag (pgStl d) STL_HOLD_STAT_HELD && ringReady s d f r

/-- Does a lane pair send frames: from ALIGN to ACTIVE, and so in the test of a quarantined pair (R254, R256). -/
def transmits (s : State) (key : Nat) (x : LaneSt) : Bool :=
  let d := planeDie (key / 32)
  let f := planeFibre (key / 32)
  decide (3 ≤ x.step) && decide (x.step ≤ 6)
    && (match ringOn s d f false (key % 32) with | some r => modulates s d f r | none => false)

/-- Have 64 consecutive frames of the peer passed R255 (IDENT_OK). -/
def LaneSt.identOk (x : LaneSt) : Bool := x.step == 5 || x.step == 6 || (x.step == 4 && decide (64 ≤ x.good))

/-- The head of the next frame of a lane. -/
def ownHead (s : State) (key : Nat) (x : LaneSt) : Head :=
  { fseq := x.fseq, srcDev := s.ownDev, plane := key / 32, line := key % 32, epoch := curEpoch s, lstate := x.st, identOk := x.identOk,
    hold := x.st == 7, hcrcOk := true }

def toStamp (t : Time) : Stamp := ⟨t.sec, t.ns, t.frac⟩

/-- The ALIVE this device announces: its own count as root, else that of its parent (R402). -/
def ownAlive (s : State) : Nat :=
  if s.flag pgTim TIM_TSTAT_ROOT then s.tim.alive
  else match (s.lane (parentKey s)).sync with
    | some (t, _) => if s.flag pgTim TIM_PARENT_VALID then t.alive else 0
    | none => 0

/-- TSYNC of a frame that departs now on plane `p`: its own departure where it is stamped, else that of the last stamped frame (R401).
To the stamps it reports this device adds half of the plane's ASYM (R405, log entry 54). -/
def ownSync (s : State) (p : Nat) (x : LaneSt) : TSync :=
  let t := (if stamped s x.fseq then s.time else x.txT).moved (halfAsym s p)
  { txT := toStamp t, rxT := toStamp (x.rxT.moved (halfAsym s p)), rxFseq := x.rxFseq, secHi := t.sec / 2 ^ 18, root := s.fld pgTim TIM_ROOT_DEV
    valid := s.flag pgTim TIM_ROOT_VALID, prio := s.fld pgTim TIM_ROOT_PRIO, hops := s.fld pgTim TIM_TSTAT_HOPS, alive := ownAlive s
    locked := s.flag pgTim TIM_TSTAT_LOCKED, holdover := s.flag pgTim TIM_TSTAT_HOLDOVER
    circ := s.flag pgTim TIM_PARENT_VALID && decide (48 ≤ s.fld pgTim TIM_PARENT_PLANE) }

/-- The LCTL of a frame on a link, its FIRST apart: what this end has received and freed (R275). -/
def LinkSt.report (x : LinkSt) (first : Nat) : LCtl :=
  { first := first, ackNext := x.ackNext, ackMap := x.ackMap, credit := x.freed, cseq := (x.cseqTx + 1) % 2 ^ 32 }

/-- The lane has sent a frame. -/
def LaneSt.sentFrame (x : LaneSt) (stamp : Option Time) (txq : List Byte) (txNext : Nat) : LaneSt :=
  { x with fseq := (x.fseq + 1) % 2 ^ 32, txT := stamp.getD x.txT, txq := txq, txNext := txNext }

/-- A frame leaves on a lane pair: a training frame before ACTIVE, else one that carries the lane's transmit queue. -/
def sendFrame (s : State) (key : Nat) : State :=
  let x := s.lane key
  if !transmits s key x then s
  else
    let l := linkOf s key
    let stamp := if stamped s x.fseq then some s.time else none
    let put (c : LCtl) (pkt : List Byte) : OutMsg := outFrame (key / 32) (key % 32) (frameBytes (ownHead s key x) c (ownSync s (key / 32) x) pkt)
    if x.st = 6 then
      let (first, pkt, txq, txNext) := nextPkt x.txq x.txNext
      let c := (s.link l).report first
      let s := { s with out := s.out ++ [put c pkt] }
      (s.modLink l (fun y => { y with cseqTx := c.cseq })).modLane key (fun x => x.sentFrame stamp txq txNext)
    else
      ({ s with out := s.out ++ [put LCtl.idle (List.replicate 2500 0)] }).modLane key (fun x => x.sentFrame stamp [] 0)

/-- The head of a training frame of a test. Lane 0 of an outer plane shows its step; a test on λ0 is no lane pair, and the spec gives its
frames no state (R261, R263, log entry 129). -/
def loopFrameHead (s : State) (p : Nat) (x : LoopSt) : Head :=
  { ownHead s (pairKey p x.line) x.lane with
    lstate := if x.line = 0 then Config.loopState x.lane.fseq else if x.lane.good < 64 then 4 else 5
    identOk := decide (64 ≤ x.lane.good) }

/-- A training frame of a test leaves (R261, R263, R264). -/
def sendLoop (s : State) (d f : Nat) : State :=
  match s.loop d f with
  | none => s
  | some x =>
    if !modulates s d f x.tx then s
    else
      let p := planeOf d f
      let stamp := if stamped s x.lane.fseq then some s.time else none
      let b := frameBytes (loopFrameHead s p x) LCtl.idle (ownSync s p x.lane) (List.replicate 2500 0)
      { s with out := s.out ++ [outFrame p x.line b] }.setLoop d f { x with lane := x.lane.sentFrame stamp [] 0 }

/-- The frames of 100 ns: those of the lane pairs, and those of the tests. -/
def sendFrames (s : State) : State :=
  let s := (s.lanes.map (·.1)).foldl sendFrame s
  s.dies.foldl (fun s e => (e.2.loops.map (·.1)).foldl (fun s f => sendLoop s e.1 f) s) s

end Sys2Proof.Machine
end

