-- ==== Sys2Proof/Machine/Tick.lean ====
section
/-!
DEFINITION. What passes with time alone (log entry 4): one nanosecond of fabric time (R399), the debug strobe's pulse (R530) and the
two counters of the PWR page that count time (R472), the plates' write queues (R202), and the frames that leave (R257).
-/

namespace Sys2Proof.Machine

/-- A nanosecond of the time unit's clock: fabric time goes on at its rate correction (R399, R406). -/
def timeTick (s : State) : State :=
  { s with time := nextTime s, tim := { s.tim with acc := rateNs s % 100000000000, clock := s.tim.clock + 1 } }

/-- Has fabric time passed a multiple of `n` ns since `old`. -/
def passed (n : Nat) (old new : Time) : Bool := old.ns / n != new.ns / n

/-- A strobe pulse nears its end (R530). -/
def strobeTick (p : Pins) : Pins :=
  if p.strobeLeft = 0 then p
  else { p with strobeLeft := p.strobeLeft - 1, ppsHigh := decide (p.strobeLeft ≠ 1) && p.ppsHigh }

/-- A nanosecond of the always-on domain, which runs from 54 V on (R447): THROT_US counts at each microsecond with THROT_N low, ENERGY at
each millisecond (R471). -/
def countTime (s : State) : State :=
  if !s.pins.vin then s
  else
    let n := (s.thm.clock + 1) % 1000000
    let s : State := { s with thm := { s.thm with clock := n } }
    let s := if n % 1000 = 0 ∧ s.pins.throtLow then s.bump pgPwr 3 else s
    if n = 0 then s.bumpBy pgPwr 4 (s.fld pgPwr PWR_PIN_POWER) else s

/-- With no command at hand no read waits, so the plates serve their queued writes (R202, log entry 98). -/
def settleWrites (s : State) : State := (s.plates.map (·.1)).foldl drainWrites s

/-- Is a frame that a lane now sends a stamped one (R401). -/
def sendsStamped (s : State) : Bool := s.lanes.any (fun e => transmits s e.1 e.2 && stamped s e.2.fseq)

/-- A frame takes 100 ns (R257); a device elects its root and parent at each stamped frame (R403). -/
def laneTick (old : Time) (s : State) : State :=
  if passed 100 old s.time then
    if sendsStamped s then elect (sendFrames s) else sendFrames s
  else s

/-- One nanosecond; without the rails only the always-on domain has a clock, without 54 V nothing has. -/
def idleTick (s : State) : State :=
  if s.pins.pwrGood then laneTick s.time (settleWrites (countTime (settlePps { timeTick s with pins := strobeTick s.pins }))) else countTime s

end Sys2Proof.Machine
end

