-- ==== Sys2Proof/Safety.lean ====
section
/-!
DEFINITION. What claims about the device use: a run that goes on, the canonical form of a state's stores, and the frames commands
are held to.
-/

namespace Sys2Proof.Safety

open Sys2Proof.Machine

/-- The command answers a next state, and that state has the property. -/
def After (i : Instr) (s : State) (P : State → Prop) : Prop := ∃ t, exec i s = .next t ∧ P t

/-- Every byte of memory reads as before. -/
def SameMemory (s t : State) : Prop := ∀ a, memByte t.mem a = memByte s.mem a

/-- Every flag and every poison bit is as before. -/
def SameFlags (s t : State) : Prop := ∀ c f, t.flagVal c f = s.flagVal c f ∧ t.flagPois c f = s.flagPois c f

/-- Every register word that `but` does not name is as before. -/
def SameRegs (s t : State) (but : Nat → Nat → Prop) : Prop := ∀ p o, ¬ but p o → t.reg p o = s.reg p o

/-- The word of a field. -/
def WordOf (page : Nat) (f : Fld) (p o : Nat) : Prop := regKey p o = regKey page f.off

/-- Memory and flags are as before. -/
def Quiet (s t : State) : Prop := SameMemory s t ∧ SameFlags s t

/-- The words an error occurrence on a page may write: ERR_STAT, ERR_FIRST and ERR_MERGED (R424). -/
def ErrHead (page p o : Nat) : Prop :=
  regKey p o = regKey page 0x020 ∨ regKey p o = regKey page 0x02C ∨ regKey p o = regKey page 0x030

/-- Source `src` of a page shows in ERR_STAT. -/
def Recorded (s : State) (page src : Nat) : Prop := bitAt (s.reg page 0x020) src = true

/-- Every flag but one, of the cores and flags there are, is as before. -/
def OtherFlags (s t : State) (c f : Nat) : Prop :=
  ∀ (d : CoreId) (g : FlagId), ¬ (d.val = c ∧ g.val = f) → t.flagVal d g = s.flagVal d g ∧ t.flagPois d g = s.flagPois d g

/-- No error injection is armed on a page (R439). -/
def NoInjection (s : State) (page : Nat) : Prop := s.flag page ERR_INJECT_ARM = false

/-- The graver of core `c` is about to issue the entry `e`, a well-formed descriptor of opcode `op`: the entry is its choice (R135), no
breakpoint meets it (R153), no single step runs (R154), no parity injection waits for the window table, and the checks of R547 that
do not depend on the opcode find no failure. -/
structure Issues (s : State) (c : Nat) (e : WinEntry) (op : Nat) : Prop where
  power : s.pins.pwrGood = true
  choice : candidate s c = some e
  good : e.bad = none
  opcode : descOpcode e.desc = op
  inst : descInst e.desc < classInstances (descClass e.desc)
  brk : brkCause s c e = none
  step : (s.core c).stepping = false
  parity : NoInjection s pgMem
  common : commonVerdict s c e = none
  sigs : sigVerdict s c e.desc = none

/-- The state in which an entry that issues reaches its engine: it has left the window and ISSUED has counted it. -/
def issued (s : State) (c : Nat) (e : WinEntry) : State := (leaveWindow s c e).bump (pgGrv c) 0

/-- From state `s` the entry `e` of core `c` has issued and waits as a command, the last of every queue it names (R36, R134). -/
structure Entered (s t : State) (c : Nat) (e : WinEntry) : Prop where
  counted : t.counter (pgGrv c) 0 = s.counter (pgGrv c) 0 + 1
  left : ∀ y ∈ (t.core c).window, y.seq ≠ e.seq
  next : t.nextCmd = s.nextCmd + 1
  desc : (t.cmd s.nextCmd).desc = e.desc
  place : (t.cmd s.nextCmd).core = c ∧ (t.cmd s.nextCmd).ring = e.ring ∧ (t.cmd s.nextCmd).idx = e.idx
  queues : ∀ u ∈ unitsOf e.desc, queueOf t c u.1 u.2 = queueOf s c u.1 u.2 ++ [s.nextCmd]

/-- The command `id` of core `c`, of engine class `cls`, waits at the head of an engine's queue `q` and starts: it is listed, has neither
run nor failed, and no injection waits at a checker of its way. -/
structure Starts (s : State) (c cls id : Nat) (q : List Nat) : Prop where
  head : q.head? = some id
  listed : smHas s.cmds id = true
  fresh : (s.cmd id).ran = false
  status : (s.cmd id).status = 0
  core : (s.cmd id).core = c
  cls : (s.cmd id).cls = cls
  checkers : NoInjection s pgFlt

/-- What the vector unit takes from its queue: it is active and no reload of its generators waits (R94). -/
structure VecStarts (s : State) (c id : Nat) : Prop extends Starts s c 1 id (s.core c).vec.queue where
  power : (s.core c).vec.power = 0
  seed : (s.core c).seedPend = false
  parity : NoInjection s (pgVec c)

/-- The last thing that changed the stores between `v` and `t` was that command `id` wrote `bs` over its operand `i` (R125, R144). -/
def Stores (v t : State) (id i : Nat) (bs : List Byte) : Prop :=
  ∃ u, u.mem = v.mem ∧ u.sramCodes = v.sramCodes ∧ u.plateCodes = v.plateCodes ∧ (u.cmd id).desc = (v.cmd id).desc
    ∧ (u.cmd id).pats = (v.cmd id).pats ∧ (u.cmd id).status = (v.cmd id).status
    ∧ t.mem = (emitSlot u id i bs).mem ∧ t.sramCodes = (emitSlot u id i bs).sramCodes ∧ t.plateCodes = (emitSlot u id i bs).plateCodes

/-- The bytes of a vector unit's output of `n` elements: each value converted to the format of operand 2 under CVT without a draw, and
zeros after the last (R90, R93, R146). -/
def outBytes (x : Cmd) (n : Nat) (vals : List Machine.Num) : List Byte :=
  let f := patFmt (patAt x.pats 2)
  let cvt := opParam x.desc 2
  packBits (elemBits f) (vals.map (fun v => (encodeElem (kindOf f) (cvt % 4) 0 (cvt.testBit 2) v).1) ++ List.replicate (n - vals.length) 0)

/-- A flag's counter after increments in the order in which they came. -/
def flagAfter (f : Nat) (v : Word) (l : List FlagInc) : Word :=
  l.foldl (fun v i => if i.flag = f then (if i.set then BitVec.ofNat 32 i.inc else v + BitVec.ofNat 32 i.inc) else v) v

/-- An aquatint engine of the part takes the command at the head of its queue (R167, R168). -/
structure AqtTakes (s : State) (e : AqtId) (id op : Nat) : Prop where
  power : s.pins.pwrGood = true
  head : (aqtWaiting s e).head? = some id
  free : aqtFree s e = true
  due : (s.aqt e).due = false
  recal : (s.aqt e).recalFirst = false
  opcode : descOpcode (s.cmd id).desc = op
  listed : smHas s.cmds id = true

/-- `x` is the first element of `l` that `want` accepts, and `rest` is what stands in `l` beside it. -/
def FirstIn {α : Type} (want : α → Bool) (l : List α) (x : α) (rest : List α) : Prop :=
  ∃ pre post, l = pre ++ x :: post ∧ rest = pre ++ post ∧ want x = true ∧ ∀ y ∈ pre, want y = false

/-- The state once the received packet `r` has left the buffers, its credits have returned (R286) and PKT_RX has counted it (R306). -/
def consumed (s : State) (r : RxPkt) (rest : List RxPkt) : State := (freeRx { s with net := { s.net with rxq := rest } } r).bump pgFab 1

/-- A packet of a kind is the next to be performed: the device runs, and it is the oldest of its kind in the buffers. -/
structure Arrives (s : State) (kind : Nat) (r : RxPkt) (rest : List RxPkt) : Prop where
  power : s.pins.pwrGood = true
  first : FirstIn (fun x => x.pkt.kind == kind) s.net.rxq r rest

/-- A chunk of a member of its group is the next of its type to be taken, and belongs to the running collective at `key`. -/
structure ChunkOf (s : State) (type : Nat) (r : RxPkt) (rest : List RxPkt) (edge key : Nat) (c : CollCtx) : Prop where
  power : s.pins.pwrGood = true
  first : FirstIn (fun x => x.pkt.kind == 0x30 && (chunkType x.pkt == type)) s.net.rxq r rest
  valid : (s.group (chunkGid r.pkt)).valid = true
  member : edgeOfLink s (s.group (chunkGid r.pkt)) r.link = some edge
  runs : ctxOf s (chunkGid r.pkt) r.pkt.seq = some (key, c)
  ctx : s.ctx key = some c

/-- No member is at its CRIT threshold, and every reading is that of a sensor (R447, R452). -/
structure Cool (s : State) : Prop where
  sensors : ∀ e ∈ s.thm.temps, e.1 < 128
  below : ∀ e ∈ s.thm.temps, ∀ m, memberOf e.1 = some m → e.2 < threshold s THM_THR_CRIT m

/-- The kinds of frame that wait for their own command. -/
def inKind : HostIn → Nat
  | .opens _ _ _ _ => 0 | .acks _ _ => 1 | .arp _ _ _ => 2 | .solicit _ _ _ => 3 | .ptp _ _ _ => 4 | .pfc _ _ => 5

/-- `i` is the oldest waiting frame of its kind, and `rest` the others. -/
def OldestIn (s : State) (i : HostIn) (rest : List HostIn) : Prop :=
  ∃ pre post, s.host.inq = pre ++ i :: post ∧ rest = pre ++ post ∧ ∀ j ∈ pre, inKind j ≠ inKind i

/-- The requests of session `k` that are answered at once: command, the requests it takes, and what it answers. -/
def servedRows (k : SessId) : List (Instr × (HostReq → Bool) × (State → List Byte → Answer)) :=
  [(.csrRd k, isTyp 0x10, reqCsrRd), (.csrWr k, isTyp 0x11, reqCsrWr k), (.doorbell k, isTyp 0x12, reqDoorbell k),
   (.memRd k, isTyp 0x21, reqMemRd), (.throttle k, isTyp 0x31, reqThrottle), (.boot k, isTyp 0x40, reqBoot k),
   (.attestReport k, isAttest (fun op => op < 2 || 4 < op), reqReport), (.attestLog k, isAttest (· == 2), reqLog),
   (.attestCert k, isAttest (· == 3), reqCert), (.attestTrust k, isAttest (· == 4), reqTrust)]

/-! ### The device as a whole -/

/-- The stores are in canonical form: what an unlisted byte, counter or flag reads as is not listed, and keys rise. -/
structure Canonical (s : State) : Prop where
  mem : Memory.wf s.mem = true
  cnt : smWf 0 s.cnt = true
  flags : smWf 0 s.flags = true

/-- The commands that store to no byte of memory, whatever the state: the moments and messages of the light, the lanes, membership, time, start-up and the
host port that move no data, and the writes of flags and registers that are rules of one register. -/
def keepsMemory : Instr → Bool
  | .haltErrResume _ _ | .flagIncrementApply _ | .qtailWrite _ _ _ | .queueFlush _ _ | .flushComplete _ _ | .breakpointResume _
  | .breakpointStep _ | .flagSpaceWrite _ _ _ _ | .fpoisonClear _ _ _ | .shadeThreshExpiry _ _ | .shadeRampStep _ _
  | .fetchComplete _ _ | .mergeBufferEvict _ _ | .sramCorrectedWriteback _ _ | .srSeedWrite _ _
  | .srSeedReload _ | .aqtHeaterSettleDone _ _ | .aqtCalCheckDone _ _ | .driftRecalDue _ _ | .driftRecalStart _
  | .aqtLightLoss _ _ | .aqtLightConfirm _ | .aqtSwitchoverRecal _ | .aqtReadmitWrite _ | .aqtReadmitTest _ _ _
  | .aqtConfigApply _ | .plateRefresh _ _ _ _ | .laneCountPeriodExpiry _ | .plateChannelTimeout _ _ | .laserLoss _
  | .selectorSwitchDone _ | .standbyToneCheckStep _ _ _ | .inputQualify _ _ | .standbyLightLoss _ _ | .selReqWrite _ | .dieDark _
  | .keylineLoopUpdate _ _ _ _ _ | .ringCapture _ _ _ | .ringLockLoss _ _ _ | .identityVerifyDone _ _ _ _ _ _
  | .periodicVerifyTimer _ _ _ | .ringReadmitWrite _ _ _ | .epochBoundary _ | .allocReportReceive | .reportWaitExpiry
  | .allocPlan | .grantReceive | .grantPrepare | .laneAbandon _ _ | .laneTuneDone _ _ | .laneVerifyDone _ _ | .laneAlignDone _ _
  | .laneIdentDone _ _ | .laneCheckDone _ _  | .laneDegradeRemove _ _ | .opeerValidClear _ _ | .planeRxLos _
  | .transmitHoldOrder _ | .transmitHoldRelease _ | .opticalPowerSample _ _ _ _ _ | .linkCounterSample _ _ | .linkUnitSend _ _ _
  | .linkUnitReceive | .linkRetransmit _ _ | .linkReset _ | .forwardPacket | .transitMaxExpiry | .csrRdPacketReceive
  | .pullReceive | .pullServe | .sigReceive | .trigReceive | .ackReceive | .ackSend _ | .mackSend _ | .mtValidWrite _ _ _
  | .windowCommit | .windowCommitDone | .pullTimeout _ | .groupValidate _ | .groupWithdraw _
  | .chunkGrantReceive | .chunkCackReceive | .chunkHoldReceive | .chunkAbortReceive | .chunkResend _ _ _ | .collNoProgress _ _
  | .abortResultPoison _ _ | .lateWindowExpiry _ | .bundleVerify | .policyCommand | .bundleFragmentReceive | .cmdReqReceive
  | .cmdReqTimer | .staleTimer | .circuitsSend | .circuitsReceive | .circuitsAgeOut _ | .healthScoreUpdate | .healthEvent
  | .aliveTick | .rootLivenessExpiry | .holdoverEntry | .timeLaneChange | .lockAchieved | .ocxoFail | .timeSetGo
  | .ppsPulse _ | .captureEvent _ _ | .nowNsRead | .ptpSyncSend | .ptpAnnounceSend | .ptpDelayReqReceive | .errorOccurrence _ _ _
  | .trapTake | .errNAssert | .errNMinExpiry | .errNHighExpiry | .pinHoldRelease | .irqHoldExpiry _ _ | .errFirstRead _
  | .errFirstClear _ _ | .errActionWrite _ _ _ | .errInjectArm _ _ | .graceExpiry _ | .enforceStepExpiry _ | .reliefStepExpiry _
  | .throttleStepChange _ | .holdReleaseExpiry _ | .clampEndExpiry _ | .clampReliefStep _ | .powerStateEntry _ _
  | .powerStateWake _ _ | .capStepWrite _ | .arpRequest | .neighborSolicitation | .pfcFrameReceive | .openSession | .close _
  | .mctAck | .csrRd _ | .throttle _ | .boot _ | .attestReport _ | .attestLog _ | .attestCert _ | .attestTrust _ | .member _
  | .eventMessageSend | .eventResend | .sessionIdleClose _ | .hostLinkDown | .pwrEnAssert | .pwrGoodAssert | .fuseLoad
  | .bootRomSelfTest _ _ | .imageComplete | .plateTrainingDone _ | .coreTestDone _ | .bridgeTestDone _
  | .strelistStartupTest _ _ _ | .startupComplete | .svnAdvance | .prsntNMate _ | .claimAcquire _ _ _ | .claimRelease _ _ _
  | .claimForceRelease _ _ _ | .cntClr _ | .pageLock _ | .counterLowRead _ _ | .counterHighRead _ _ | .dbgPulse | .dbgStrobe _
  | .dbgDieChange _ _ | .dbgCounterSample _ _ _ _ | .heartbeatTick | .hostLinkUp | .vinPresent | .arrayGapBegin _ _ => true
  | .descriptorFetch _ | .nop _ | .flagSet _ | .trigger _ | .event _ | .matmul _ | .vew _ | .vtr _ | .vred _ | .vsmx _ | .vcvt _
  | .vbq _ | .vls _ | .copy _ | .fill _ | .rget _ | .rput _ | .ratomic _ | .select _ | .xcopy _ | .xmcast _ | .xmsig _
  | .cbarrier _ | .cbcast _ | .callgather _ | .credscat _ | .callred _ | .calltoall _ | .aload _ | .amul _ | .asketch _ | .acal _
  | .descriptorComplete _ _ _ _ | .stallTracerExpiry _ | .waitTimeout _ _ | .arrayFeedStart _ _ | .arrayColumnDrain _ _
  | .inboundWriteCommit _ | .burnisherBlockEnd _ _ | .sramScrubRead _ _ _ | .plateRead _ _ | .plateWrite _ _ _ | .plateScrubRead _ _
  | .sequencedPacketSend _ | .flaggedPacketRelease _ _ | .storeReceive | .loadReceive | .atomicReceive | .csrWrPacketReceive
  | .ldataReceive | .aresReceive | .csrDataReceive | .putReceive | .e2eRetransmit _ _ _ | .mputReceive | .msigReceive
  | .mackReceive | .requestTimeout _ _ | .collStart _ | .chunkDataSend _ _ _ | .chunkDataReceive | .changeCommand | .snapshotCommand
  | .changeEffectApply | .faultHubReport | .blockReset _ _ | .faultStateEntry | .quietExpiry | .fctrlExitWrite | .fctrlRclr
  | .sensorSample _ | .sensorSelfCheck _ _ | .sensorSilentExpiry _ | .powerLimitAverage _ | .wakeReady _ _ | .hostFrameReceive _
  | .csrWr _ | .doorbell _ | .memWr _ | .memRd _ | .modReset _ | .pwrEnDeassert | .prsntNBreak | .inputVoltageExcursion _
  | .frameReceive _ _ _ | .timeSetApply
  | .csrRegisterWrite _ _ _ _ => false

/-- The commands that write no flag and no poison bit of a flag, whatever the state. -/
def keepsFlags : Instr → Bool
  | .descriptorFetch _ | .haltErrResume _ _ | .qtailWrite _ _ _ | .queueFlush _ _ | .flushComplete _ _ | .breakpointResume _
  | .breakpointStep _ | .arrayFeedStart _ _ | .arrayColumnDrain _ _ | .burnisherBlockEnd _ _ | .shadeThreshExpiry _ _
  | .shadeRampStep _ _ | .inboundWriteCommit _ | .fetchComplete _ _ | .mergeBufferEvict _ _ | .sramCorrectedWriteback _ _
  | .sramScrubRead _ _ _ | .srSeedWrite _ _ | .srSeedReload _ | .aqtHeaterSettleDone _ _ | .aqtCalCheckDone _ _
  | .driftRecalDue _ _ | .driftRecalStart _ | .aqtLightLoss _ _ | .aqtLightConfirm _ | .aqtSwitchoverRecal _ | .aqtReadmitWrite _
  | .aqtReadmitTest _ _ _ | .aqtConfigApply _ | .plateRead _ _ | .plateWrite _ _ _ | .plateRefresh _ _ _ _ | .plateScrubRead _ _
  | .laneCountPeriodExpiry _ | .plateChannelTimeout _ _ | .laserLoss _ | .selectorSwitchDone _ | .standbyToneCheckStep _ _ _
  | .inputQualify _ _ | .standbyLightLoss _ _ | .selReqWrite _ | .dieDark _ | .keylineLoopUpdate _ _ _ _ _ | .ringCapture _ _ _
  | .ringLockLoss _ _ _ | .identityVerifyDone _ _ _ _ _ _ | .periodicVerifyTimer _ _ _ | .ringReadmitWrite _ _ _
  | .epochBoundary _ | .allocReportReceive | .reportWaitExpiry | .allocPlan | .grantReceive | .grantPrepare | .laneAbandon _ _
  | .laneTuneDone _ _ | .laneVerifyDone _ _ | .laneAlignDone _ _ | .laneIdentDone _ _ | .laneCheckDone _ _ 
  | .laneDegradeRemove _ _ | .opeerValidClear _ _ | .planeRxLos _ | .transmitHoldOrder _ | .transmitHoldRelease _
  | .opticalPowerSample _ _ _ _ _ | .linkCounterSample _ _ | .linkUnitSend _ _ _ | .linkUnitReceive | .linkRetransmit _ _
  | .linkReset _ | .sequencedPacketSend _ | .forwardPacket | .transitMaxExpiry | .atomicReceive
  | .csrRdPacketReceive | .ldataReceive | .aresReceive | .csrDataReceive | .putReceive | .pullReceive | .pullServe | .trigReceive
  | .ackReceive | .ackSend _ | .e2eRetransmit _ _ _ | .mackSend _ | .mtValidWrite _ _ _ | .windowCommit | .windowCommitDone
  | .requestTimeout _ _ | .pullTimeout _ | .groupValidate _ | .groupWithdraw _ | .collStart _ | .chunkDataSend _ _ _
  | .chunkDataReceive | .chunkGrantReceive | .chunkCackReceive | .chunkHoldReceive | .chunkAbortReceive | .chunkResend _ _ _
  | .collNoProgress _ _ | .abortResultPoison _ _ | .lateWindowExpiry _ | .bundleVerify | .policyCommand | .bundleFragmentReceive
  | .cmdReqReceive | .cmdReqTimer | .staleTimer | .circuitsSend | .circuitsReceive | .circuitsAgeOut _ | .healthScoreUpdate
  | .healthEvent | .aliveTick | .rootLivenessExpiry | .holdoverEntry | .timeLaneChange | .lockAchieved | .ocxoFail | .timeSetGo
  | .ppsPulse _ | .captureEvent _ _ | .nowNsRead | .ptpSyncSend | .ptpAnnounceSend | .ptpDelayReqReceive
  | .trapTake | .errNAssert | .errNMinExpiry | .errNHighExpiry | .pinHoldRelease | .irqHoldExpiry _ _ | .errFirstRead _
  | .errFirstClear _ _ | .errActionWrite _ _ _ | .errInjectArm _ _ | .graceExpiry _ | .enforceStepExpiry _ | .reliefStepExpiry _
  | .throttleStepChange _ | .holdReleaseExpiry _ | .clampEndExpiry _ | .clampReliefStep _ | .powerStateEntry _ _
  | .powerStateWake _ _ | .wakeReady _ _ | .capStepWrite _ | .arpRequest | .neighborSolicitation
  | .pfcFrameReceive | .openSession | .close _ | .mctAck | .csrRd _ | .throttle _ | .boot _ | .attestReport _
  | .attestLog _ | .attestCert _ | .attestTrust _ | .member _ | .eventMessageSend | .eventResend | .sessionIdleClose _
  | .hostLinkDown | .pwrEnAssert | .pwrGoodAssert | .fuseLoad | .bootRomSelfTest _ _ | .imageComplete | .plateTrainingDone _
  | .coreTestDone _ | .bridgeTestDone _ | .strelistStartupTest _ _ _ | .startupComplete | .svnAdvance | .prsntNMate _
  | .claimAcquire _ _ _ | .claimRelease _ _ _ | .claimForceRelease _ _ _ | .cntClr _ | .pageLock _ | .counterLowRead _ _
  | .counterHighRead _ _ | .dbgPulse | .dbgStrobe _ | .dbgDieChange _ _ | .dbgCounterSample _ _ _ _ | .heartbeatTick
  | .hostLinkUp | .vinPresent | .arrayGapBegin _ _ => true
  | .nop _ | .flagSet _ | .trigger _ | .event _ | .matmul _ | .vew _ | .vtr _ | .vred _ | .vsmx _ | .vcvt _ | .vbq _ | .vls _
  | .copy _ | .fill _ | .rget _ | .rput _ | .ratomic _ | .select _ | .xcopy _ | .xmcast _ | .xmsig _ | .cbarrier _ | .cbcast _
  | .callgather _ | .credscat _ | .callred _ | .calltoall _ | .aload _ | .amul _ | .asketch _ | .acal _
  | .descriptorComplete _ _ _ _ | .flagIncrementApply _ | .stallTracerExpiry _ | .waitTimeout _ _ | .flagSpaceWrite _ _ _ _
  | .fpoisonClear _ _ _ | .flaggedPacketRelease _ _ | .storeReceive | .loadReceive | .csrWrPacketReceive | .sigReceive | .mputReceive
  | .msigReceive | .mackReceive | .changeCommand | .snapshotCommand | .changeEffectApply | .errorOccurrence _ _ _
  | .faultHubReport | .blockReset _ _ | .faultStateEntry | .quietExpiry | .fctrlExitWrite | .fctrlRclr | .sensorSample _
  | .sensorSelfCheck _ _ | .sensorSilentExpiry _ | .powerLimitAverage _ | .hostFrameReceive _ | .csrWr _ | .doorbell _ | .memWr _
  | .memRd _ | .modReset _ | .frameReceive _ _ _ | .timeSetApply
  | .pwrEnDeassert | .prsntNBreak | .inputVoltageExcursion _ | .csrRegisterWrite _ _ _ _ => false

/-- The commands of the pins, the input and the sensors, which do not need the power good signal. -/
def worksUnpowered : Instr → Bool
  | .vinPresent | .prsntNMate _ | .prsntNBreak | .pwrEnAssert | .pwrGoodAssert | .pwrEnDeassert | .inputVoltageExcursion _
  | .sensorSample _ | .sensorSelfCheck _ _ | .sensorSilentExpiry _ | .powerLimitAverage _ | .modReset _ => true
  | _ => false

/-- What the gravers do: fetches, issues of every opcode, timeouts and completions. -/
def graverWork (c : CoreId) : List Instr :=
  [.descriptorFetch c, .nop c, .flagSet c, .trigger c, .event c, .matmul c, .vew c, .vtr c, .vred c, .vsmx c, .vcvt c, .vbq c, .vls c,
   .copy c, .fill c, .rget c, .rput c, .ratomic c, .select c, .xcopy (.issue c), .xmcast (.issue c), .xmsig (.issue c), .cbarrier c,
   .cbcast c, .callgather c, .credscat c, .callred c, .calltoall c, .aload (.issue c), .amul (.issue c), .asketch (.issue c),
   .acal (.issue c)]

end Sys2Proof.Safety
end

