-- ==== Sys2Proof/Certificates/Slice0/Obligations.lean ====
section
/-!
DEFINITION. The statements about the device. `After i s P` says that command `i` answers a next state, and that it has property `P`;
each docstring names the rules of the spec that its clauses follow, and the log entries whose choice of the model they rest on.
-/

open Sys2Proof Sys2Proof.Machine Sys2Proof.Safety

/-! ### The device as a whole -/

/-- For every command c and state s, a step with c at the front of the queue is exec of c on s with the queue's rest. -/
def Obligations.StepRunsFront : Prop :=
  ∀ (c : Instr) (rest : List Instr) (s : State),
    step { s with pending := c :: rest } = exec c { s with pending := rest }

/-- With an empty queue a step changes nothing without 54 V at the input; without the rails it moves the always-on clock and the two PWR
counters of time alone: THROT_US at each microsecond with THROT_N low, ENERGY by PIN.POWER at each millisecond. With the rails fabric
time advances one nanosecond at the time unit's rate correction (exactly one where that is 0), while memory and flags stay; the lanes, the
links' LCTL numbers and what leaves the device change each 100 ns alone. Where no stamped frame then leaves, so that no election runs,
registers, cores and commands stay, frames and nothing else leave, the counters of time count as without the rails, and every other
counter but the plates' stays. The tick is the model's choice. (R257, R399, R403, R447, R471, R472) Rests also on the model's own reading
or choice in log entries 4, 51, 98. -/
def Obligations.EmptyQueueTicks : Prop :=
  ∀ s : State, s.pending = [] →
    let n := (s.thm.clock + 1) % 1000000
    let microsecond := s.pins.vin = true ∧ n % 1000 = 0 ∧ s.pins.throtLow = true
    let millisecond := s.pins.vin = true ∧ n = 0
    let countsTime (t : State) : Prop :=
      t.counter pgPwr 3 = s.counter pgPwr 3 + (if microsecond then 1 else 0)
        ∧ t.counter pgPwr 4 = s.counter pgPwr 4 + (if millisecond then BitVec.ofNat 64 (s.fld pgPwr PWR_PIN_POWER) else 0)
    (s.pins.pwrGood = false → s.pins.vin = false → step s = .next s)
    ∧ (s.pins.pwrGood = false → s.pins.vin = true → ∃ t, step s = .next t ∧ countsTime t
        ∧ t = { s with thm := { s.thm with clock := n }, cnt := t.cnt }
        ∧ ∀ p (i : Fin 8), ¬ (p = pgPwr ∧ (i.val = 3 ∨ i.val = 4)) → t.counter p i = s.counter p i)
    ∧ (s.pins.pwrGood = true →
      let elects := passed 100 s.time (nextTime s) && sendsStamped s;
      ∃ t, step s = .next t ∧ Quiet s t ∧ t.pending = [] ∧ t.time = nextTime s ∧ (s.fld pgTim TIM_FREQ = 0 → s.tim.acc = 0 → t.time = s.time.moved 65536)
      ∧ (passed 100 s.time (nextTime s) = false → t.net = s.net ∧ t.lanes = s.lanes ∧ t.out = s.out)
      ∧ (elects = false → t.csr = s.csr ∧ t.cores = s.cores ∧ t.cmds = s.cmds ∧ t.net = { s.net with links := t.net.links }
          ∧ (∃ l, t.out = s.out ++ l ∧ ∀ m ∈ l, ∃ p k b v, m = .frame p k b v)
          ∧ (∀ p (i : Fin 8), (∀ k : PlateId, p ≠ pgPlt k) → ¬ (p = pgPwr ∧ (i.val = 3 ∨ i.val = 4)) → t.counter p i = s.counter p i)
          ∧ countsTime t))

/-- State.reset waits for no command, holds no memory, flags, commands, cores or events, has no power, STAGE 0, no fault state and
DEVNUM 0x3FFF not valid; on every page of the part ERR_STAT, ERR_MASK, ERR_INJECT, ERR_FIRST and ERR_MERGED read 0, LOCK is clear, and
each source's action word shows its class in [14:13] and its class's reaction bits in [5:0]. (R420, R421, R422, R423) That reset finds no
power at the pins, nothing sent, no command waiting, and neither memory, flags, commands nor events, is the model's choice (log entries 1, 5, 13, 87, 88). -/
def Obligations.ResetState : Prop :=
  let s := State.reset
  s.pending = [] ∧ s.mem = [] ∧ s.flags = [] ∧ s.fpois = [] ∧ s.cmds = [] ∧ s.cores = [] ∧ s.events = [] ∧ s.out = [] ∧ s.pins.pwrGood = false
  ∧ stage s = 0 ∧ s.inFault = false ∧ s.fld pgMbr MBR_DEVNUM_NUMBER = 0x3FFF ∧ s.flag pgMbr MBR_DEVNUM_VALID = false
  ∧ (∀ p t i, pageOf s.fuses.part p = some (t, i) →
      s.reg p 0x020 = 0 ∧ s.reg p 0x024 = 0 ∧ s.reg p 0x028 = 0 ∧ s.reg p 0x02C = 0 ∧ s.reg p 0x030 = 0 ∧ s.flag p PG_CTRL_LOCK = false
      ∧ ∀ (k : Fin 32) cls chk latch, sourceOf t k = some (cls, chk, latch) →
          bits (s.reg p (actionOff k)) 14 13 = cls
          ∧ bits (s.reg p (actionOff k)) 5 0 = (if cls = 0 then 0x00 else if cls = 1 then 0x01 else if cls = 2 then 0x33 else 0x03))

/-- From every state whose memory, counters and flags are in canonical form (keys rising, nothing listed that reads as unlisted does),
a step that answers a next state leaves them in canonical form. -/
def Obligations.StoresStayCanonical : Prop :=
  ∀ s t : State, Canonical s → step s = .next t → Canonical t

/-- Memory, counters and flags of State.reset are in canonical form. -/
def Obligations.ResetIsCanonical : Prop :=
  Canonical State.reset

/-- From a canonical state, every command that answers a next state leaves the queue of waiting commands as it is, and all fuses but
those of SVN_MIN. (R30, R502) -/
def Obligations.FusesAndQueueStay : Prop :=
  ∀ (c : Instr) (s t : State), Canonical s → exec c s = .next t →
    t.pending = s.pending ∧ { t.fuses with svnMin := s.fuses.svnMin, svnBurnt := s.fuses.svnBurnt } = s.fuses

/-- From a canonical state, each command that keepsMemory names leaves memory as it was, and each that keepsFlags names leaves every
flag and its poison bit as they were.
A received frame and a time set touch memory and flags only through the membership effects that a step of fabric time passes: where
no change is pending, both leave every byte of memory, every flag and every poison bit as they were. (R254, R407, R411) Rests also on the
model's own reading or choice in log entry 131. -/
def Obligations.QuietCommands : Prop :=
  (∀ (c : Instr) (s t : State), Canonical s → exec c s = .next t →
      (keepsMemory c = true → t.mem = s.mem) ∧ (keepsFlags c = true → t.flags = s.flags ∧ t.fpois = s.fpois))
  ∧ (∀ (i : Instr) (s : State), s.mbr.pend = [] →
      (i = .timeSetApply ∨ ∃ p k f, i = .frameReceive p k f) →
      After i s (fun t => t.mem = s.mem ∧ t.flags = s.flags ∧ t.fpois = s.fpois))

/-- No command is ever refused; a command faults exactly when it is a rise of MOD_RESET_N that ends a low level of 1,000 to 9,999 ns
while PWR_GOOD is released; a shorter level changes nothing but the contact, and so does its fall. (R539) -/
def Obligations.OnlyModResetStops : Prop :=
  (∀ (c : Instr) (s : State), (∀ r, exec c s ≠ .refused r)
    ∧ ((∃ f, exec c s = .fault f) ↔ ∃ n, c = .modReset (.rise n) ∧ 1000 ≤ n ∧ n < 10000 ∧ s.pins.pwrGood = true))
  ∧ (∀ (n : Nat) (s : State),
    (n < 1000 → exec (.modReset (.rise n)) s = .next { s with pins := { s.pins with resetLow := false } })
    ∧ (1000 ≤ n → n < 10000 → s.pins.pwrGood = true → exec (.modReset (.rise n)) s = .fault .resetPulseUndefined)
    ∧ exec (.modReset .fall) s = .next { s with pins := { s.pins with resetLow := true } })

/-- While PWR_GOOD is not released, every command but those of the pins (MOD_RESET_N among them), the input voltage, the sensors and the
power average leaves the state as it is. (R494, R533) Rests also on the model's own reading or choice in log entry 63. -/
def Obligations.NoPowerNoEffect : Prop :=
  ∀ (c : Instr) (s : State), s.pins.pwrGood = false → worksUnpowered c = false → exec c s = .next s

/-- In the fault state a descriptor fetch, the issue of any opcode, a wait timeout and a completion leave the state as it is. (R433,
R434) -/
def Obligations.NothingIssuesInFault : Prop :=
  ∀ (c : CoreId) (s : State), s.inFault = true →
    (∀ i ∈ graverWork c, exec i s = .next s)
    ∧ (∀ q, exec (.waitTimeout c q) s = .next s)
    ∧ (∀ cls inst ahead, exec (.descriptorComplete c cls inst ahead) s = .next s)

/-! ### The graver -/

/-- A doorbell moves TAIL when it neither moves it back nor overfills the ring, and otherwise is GRV source 7 alone; a fetch advances
FETCH by one and puts the entry, its bytes as read and the pattern slots that could not be read, into the window; HALT_ERR clears
alone; a flush is accepted of a disabled ring only and shows in FLUSH_PEND alone, and its completion takes the ring's entries out of
the window and sets HEAD and FETCH to TAIL. (R129 to R134) -/
def Obligations.RingsAdvance : Prop :=
  (∀ (c : CoreId) (q : RingId) (tail : BitVec 16) (s : State), s.pins.pwrGood = true →
      let used := (tail.toNat + 65536 - qHead s c q) % 65536
      let moved := (tail.toNat + 65536 - qTail s c q) % 65536
      After (.qtailWrite c q tail) s (fun t => Quiet s t ∧ t.cores = s.cores
        ∧ (used ≤ ringSize s c q ∧ moved ≤ used →
            qTail t c q = tail.toNat ∧ SameRegs s t (WordOf (pgGrv c) (qField GRV_QTAIL_TAIL q)))
        ∧ (ringSize s c q < used ∨ used < moved → Recorded t (pgGrv c) 7 ∧ SameRegs s t (ErrHead (pgGrv c)))))
  ∧ (∀ (c : CoreId) (q : Nat) (s : State),
      let r := readRun false (⟨[], [], []⟩, s.modCore c (fun x => { x with rr := q })) (descAddr s c q (qFetch s c q)) 64
      let p := readPats r.2 c r.1.bytes (r.2.fld (pgGrv c) GRV_PAT_CFG_COUNT)
      s.pins.pwrGood = true → s.running = true → (s.core c).window.length < 32 → fetchRing s c = some q →
      NoInjection s (pgGrv c) → NoInjection s pgFlt → r.1.bad = [] →
      After (.descriptorFetch c) s (fun t =>
        t.fld (pgGrv c) (qField GRV_QHEAD_FETCH q) = (qFetch s c q + 1) % 65536
          ∧ ∃ e, (t.core c).window.getLast? = some e ∧ e.ring = q ∧ e.idx = qFetch s c q ∧ e.desc = r.1.bytes ∧ e.pats = p.1
              ∧ e.unread = p.2.1))
  ∧ (∀ (c : CoreId) (q : RingId) (s : State), s.pins.pwrGood = true →
      After (.haltErrResume c q) s (fun t =>
        t.flag (pgGrv c) (qField GRV_QSTAT_HALT_ERR q) = false
          ∧ SameRegs s t (WordOf (pgGrv c) (qField GRV_QSTAT_HALT_ERR q)) ∧ SameMemory s t ∧ SameFlags s t ∧ t.cores = s.cores))
  ∧ (∀ (c : CoreId) (q : RingId) (s : State), s.pins.pwrGood = true →
      let en := s.flag (pgGrv c) (qField GRV_QCTRL_EN q)
      let pend := s.flag (pgGrv c) (qField GRV_QSTAT_FLUSH_PEND q)
      After (.queueFlush c q) s (fun t => Quiet s t ∧ t.cores = s.cores
        ∧ SameRegs s t (WordOf (pgGrv c) (qField GRV_QSTAT_FLUSH_PEND q))
        ∧ t.flag (pgGrv c) (qField GRV_QSTAT_FLUSH_PEND q) = (pend || !en))
      ∧ (pend = true → ringBusy s c q = false → After (.flushComplete c q) s (fun t => Quiet s t
        ∧ (∀ e ∈ (t.core c).window, e.ring ≠ q) ∧ (∀ e ∈ (s.core c).window, e.ring ≠ q → e ∈ (t.core c).window)
        ∧ qHead t c q = qTail s c q ∧ qFetch t c q = qTail s c q ∧ qTail t c q = qTail s c q
        ∧ t.flag (pgGrv c) (qField GRV_QSTAT_FLUSH_PEND q) = false
        ∧ SameRegs s t (fun p o => WordOf (pgGrv c) (qField GRV_QHEAD_HEAD q) p o ∨ WordOf (pgGrv c) (qField GRV_QSTAT_FLUSH_PEND q) p o))))

/-- A flag-space write loads the counter and clears its poison, or is refused with GRV source 6 below LOCAL_LIMIT when it comes from
outside; a write to FPOISON clears exactly the bits of its mask; a cycle of the flag store applies the oldest four increments in order,
poison with them; every other flag, all memory and all registers stay. (R61, R137, R139, R140) Rests also on the model's own reading or
choice in log entry 17. -/
def Obligations.FlagsChange : Prop :=
  (∀ (o : FlagFrom) (c : CoreId) (f : FlagId) (v : Word) (s : State),
      s.pins.pwrGood = true → NoInjection s (pgGrv c) → (s.core c).finc = [] →
      After (.flagSpaceWrite o c f v) s (fun t => SameMemory s t
        ∧ (o = .outside ∧ f.val < s.fld (pgGrv c) GRV_GCTRL_LOCAL_LIMIT →
            SameFlags s t ∧ Recorded t (pgGrv c) 6 ∧ SameRegs s t (ErrHead (pgGrv c)))
        ∧ (o ≠ .outside ∨ s.fld (pgGrv c) GRV_GCTRL_LOCAL_LIMIT ≤ f.val →
            t.flagVal c f = v ∧ t.flagPois c f = false ∧ OtherFlags s t c f ∧ t.csr = s.csr)))
  ∧ (∀ (c : CoreId) (k : Fin 128) (mask : Word) (s : State), s.pins.pwrGood = true →
      After (.fpoisonClear c k mask) s (fun t => SameMemory s t ∧ t.flags = s.flags ∧ t.csr = s.csr
        ∧ (∀ b : Fin 32, t.flagPois c (32 * k + b) = (s.flagPois c (32 * k + b) && !bitAt mask b))
        ∧ (∀ (d : CoreId) (g : FlagId), ¬ (d = c ∧ g.val / 32 = k) → t.flagPois d g = s.flagPois d g)))
  ∧ (∀ (c : CoreId) (s : State), s.pins.pwrGood = true → NoInjection s (pgGrv c) → (∀ i ∈ (s.core c).finc, i.flag < 4096) →
      After (.flagIncrementApply c) s (fun t => SameMemory s t ∧ t.csr = s.csr
        ∧ (t.core c).finc = (s.core c).finc.drop 4
        ∧ (∀ f : FlagId, t.flagVal c f = flagAfter f (s.flagVal c f) ((s.core c).finc.take 4)
            ∧ t.flagPois c f = (s.flagPois c f || ((s.core c).finc.take 4).any (fun i => i.flag == f.val && i.poison)))
        ∧ (∀ (d : CoreId) (f : FlagId), d ≠ c → t.flagVal d f = s.flagVal d f ∧ t.flagPois d f = s.flagPois d f)))

/-- NOP, the array opcode, the three XDMA, the six COLL and the four AQT opcodes: the entry that is the graver's choice and fails no
check leaves the window, counts in ISSUED and stands last in every queue of its units, and memory, flags and registers stay. (R36,
R134, R135, R185, R325, R345, R547) -/
def Obligations.OpcodesEnterQueues : Prop :=
  ∀ (c : CoreId) (s : State) (e : WinEntry),
    ∀ x ∈ ([(.nop c, 0x00, none), (.matmul c, 0x10, checkMatmul s c e),
        (.xcopy (.issue c), 0x40, checkXcopy s c e), (.xmcast (.issue c), 0x41, checkXmcast s c e), (.xmsig (.issue c), 0x42, checkXmsig s c e),
        (.cbarrier c, 0x50, checkColl s e), (.cbcast c, 0x51, checkColl s e), (.callgather c, 0x52, checkColl s e),
        (.credscat c, 0x53, checkColl s e), (.callred c, 0x54, checkColl s e), (.calltoall c, 0x55, checkColl s e),
        (.aload (.issue c), 0x60, checkAload s e), (.amul (.issue c), 0x61, checkStream s e),
        (.asketch (.issue c), 0x62, checkStream s e), (.acal (.issue c), 0x63, none)] : List (Instr × Nat × Option Verdict)),
      Issues s c e x.2.1 → x.2.2 = none →
      After x.1 s (fun t => Entered s t c e ∧ Quiet s t ∧ t.csr = s.csr ∧ t.out = s.out)

/-- The entry that issues and passes its checks has entered its queue, and the step is the start of that engine on the queue, which runs
the command at its head. What an element-wise VEW, VTR, VRED, VSMX, VCVT, VBQ, COPY, FILL and SELECT write to their output, VLS to the
local store, and the packets that RGET, RPUT and RATOMIC send, are stated for commands whose operands read without a failure. The
functions of R96 have values only within a bound, so that VTR and VSMX write some value of the function. (R36, R54, R60, R62, R64, R65,
R81, R90, R95, R96, R119, R120, R134, R316 to R319, R546, R547) Rests also on the model's own reading or choice in log entries 20, 22, 118. -/
def Obligations.EnginesStart : Prop :=
  (∀ (c : CoreId) (s : State) (e : WinEntry),
      ∀ x ∈ ([(.vew c, 0x20, checkVec s c e, startVec), (.vtr c, 0x21, checkVec s c e, startVec), (.vred c, 0x22, checkVec s c e, startVec),
          (.vsmx c, 0x23, checkVec s c e, startVec), (.vcvt c, 0x24, checkVec s c e, startVec), (.vbq c, 0x25, checkVec s c e, startVec),
          (.vls c, 0x26, checkVec s c e, startVec),
          (.copy c, 0x30, checkCopy s e, fun t c => startDma t c (descInst e.desc)), (.fill c, 0x31, checkFill s e, fun t c => startDma t c (descInst e.desc)),
          (.rget c, 0x32, checkRemote s c e 0 .r, fun t c => startDma t c (descInst e.desc)),
          (.rput c, 0x33, checkRemote s c e 1 .w, fun t c => startDma t c (descInst e.desc)),
          (.ratomic c, 0x34, checkRatomic s c e, fun t c => startDma t c (descInst e.desc)),
          (.select c, 0x38, checkSelect s c e, startSkm)] : List (Instr × Nat × Option Verdict × (State → Nat → State))),
        Issues s c e x.2.1 → x.2.2.1 = none →
        ∃ u, Entered s u c e ∧ Quiet s u ∧ u.csr = s.csr ∧ exec x.1 s = .next (stepHalt (x.2.2.2 u c) c e))
  ∧ (∀ (c : CoreId) (s : State) (id : Nat), VecStarts s c id →
      let x := s.cmd id
      let n := countOf x.pats 0
      let nr := rowLen x.desc
      let a := vecInput s x 0
      let t := startVec s c
      let xs := a.1.vals.take n
      let rows := (pieces (n + 1) nr a.1.vals).take (n / nr)
      (a.1.fails = [] → opParam x.desc 2 % 4 ≠ 2 →
        (descOpcode x.desc = 0x20 →
          let fn := opParam x.desc 0 % 32
          let b := if vewLocal x.desc then localB a.2 x n else if hasPat x.pats 1 then vecInput a.2 x 1 else (VIn.none_, a.2)
          let d := if fn = 3 ∨ fn = 10 then vecInput b.2 x 2 else (VIn.none_, b.2)
          b.1.fails = [] → d.1.fails = [] →
          ∀ f ∈ ([(0, fun p q _ => fAdd p q), (1, fun p q _ => fSub p q), (2, fun p q _ => fMul p q), (3, fun p q r => fMa p q r),
              (4, fun p q _ => fMin p q), (5, fun p q _ => fMax p q), (6, fun p _ _ => p.abs),
              (7, fun p q _ => if p.gt q then .one else .zero), (8, fun p q _ => if p.ge q then .one else .zero),
              (9, fun p q _ => if p.eq q then .one else .zero), (10, fun p q r => if r.eq .zero then q else p)]
              : List (Nat × (Machine.Num → Machine.Num → Machine.Num → Machine.Num))), fn = f.1 →
            SameFlags s t ∧ Stores d.2 t id 2 (outBytes x n ((List.range n).map (fun i =>
              f.2 (a.1.vals.getD i .zero) (b.1.vals.getD i .zero) (d.1.vals.getD i .zero)))))
        ∧ (descOpcode x.desc = 0x21 →
          ∀ f ∈ ([(0, tExp2), (1, tLog2), (2, tRecip), (3, tRsqrt), (4, tTanh), (5, tSigmoid)] : List (Nat × (State → Machine.Num → Machine.Num × State))),
            opParam x.desc 0 % 8 = f.1 →
            SameFlags s t ∧ ∃ ys, ys.length = xs.length ∧ (∀ i, i < xs.length → ∃ u, ys.getD i .zero = (f.2 u (xs.getD i .zero)).1)
              ∧ Stores a.2 t id 2 (outBytes x n ys))
        ∧ (descOpcode x.desc = 0x22 →
          ∀ f ∈ ([(0, fun r => (reduceWith fAdd r).1), (1, fun r => (reduceWith fMax r).1),
              (2, fun r => (reduceWith fAdd (r.map (fun v => fMul v v))).1)] : List (Nat × (List Machine.Num → Machine.Num))), opParam x.desc 0 % 4 = f.1 →
            SameFlags s t ∧ Stores a.2 t id 2 (outBytes x (n / nr) (rows.map f.2)))
        ∧ (descOpcode x.desc = 0x23 →
          let has := hasPat x.pats 1
          let r := if has then readSlot a.2 x 1 0 else (⟨[], [], []⟩, a.2)
          let m (i : Nat) : Machine.Num := if has then f32 (leAt r.1.bytes (8 * i) 4) else .inf true
          let sum (i : Nat) : Machine.Num := if has then f32 (leAt r.1.bytes (8 * i + 4) 4) else .zero
          let row (i : Nat) : List Machine.Num := rows.getD i []
          let m' (i : Nat) : Machine.Num := fMax (m i) (reduceWith fMax (row i)).1
          r.1.bad = [] → r.1.soft = [] →
          SameFlags s t ∧ ∃ (ys : List (List Machine.Num)) (sums : List Machine.Num) (w : State), ys.length = rows.length ∧ sums.length = rows.length
            ∧ (∀ i, i < rows.length → (ys.getD i []).length = (row i).length
              ∧ (∀ j, j < (row i).length → ∃ u, (ys.getD i []).getD j .zero = (tExp2 u (fSub ((row i).getD j .zero) (m' i))).1)
              ∧ ∃ u, sums.getD i .zero = fMa (sum i) (tExp2 u (fSub (m i) (m' i))).1 (reduceWith fAdd (ys.getD i [])).1)
            ∧ (has = false → w = r.2)
            ∧ (has = true → Stores r.2 w id 1 ((List.range rows.length).flatMap (fun i => leBytes 4 (toF32 (m' i)) ++ leBytes 4 (toF32 (sums.getD i .zero)))
                ++ List.replicate (8 * (n / nr) - 8 * rows.length) 0))
            ∧ Stores w t id 2 (outBytes x n ys.flatten))
        ∧ (descOpcode x.desc = 0x24 →
          let i32 := patFmt (patAt x.pats 0) == 5
          let ys := (if i32 then a.1.exact else a.1.vals).take n
          SameFlags s t ∧ Stores a.2 t id 2 (outBytes x n
            (if i32 && patFmt (patAt x.pats 2) == 4 then ys.map (fun v => v.scale (-(natBits (opParam x.desc 2) 8 4 : Nat))) else ys)))
        ∧ (descOpcode x.desc = 0x25 →
          let e := patAt x.pats 2
          let f := patFmt e
          let bs := (pieces (n + 1) 32 a.1.vals).map (fun b => quantBlock f (opParam x.desc 2 % 4) 0 b [])
          a.1.vals.length = n → n % 32 = 0 →
          SameFlags s t ∧ Stores a.2 t id 2 ((pieces (bs.length + 1) (rowOf e / 32) (bs.map (fun b => (b.1, b.2.1)))).flatMap (rowRecord f (rowOf e)))))
      ∧ (let r := readSlot s x 0 0
        let off := 256 * (opParam x.desc 0 % 64)
        descOpcode x.desc = 0x26 → r.1.bad = [] → r.1.soft = [] →
          SameFlags s t ∧ t.mem = r.2.mem
            ∧ (t.core c).ls = memStore (s.core c).ls off ((r.1.bytes.take (patLen (patAt x.pats 0))).take (16384 - off))))
  ∧ (∀ (c : CoreId) (inst : Fin 2) (s : State) (id : Nat), Starts s c 2 id ((s.core c).eng 2 inst).queue → ((s.core c).eng 2 inst).power = 0 →
      NoInjection s (pgDma c) →
      let x := s.cmd id
      let t := startDma s c inst
      (descOpcode x.desc = 0x30 →
        let r := readSlot s x 0 (moveLen x.desc x.pats [0, 1])
        r.1.bad = [] → r.1.soft = [] → SameFlags s t ∧ Stores r.2 t id 1 r.1.bytes)
      ∧ (descOpcode x.desc = 0x31 → SameFlags s t ∧ Stores s t id 1
          ((List.range (moveLen x.desc x.pats [1])).map (fun i => (leBytes 8 (descOp x.desc 0)).getD (i % 8) 0)))
      ∧ (hasPat x.pats 0 = false → hasPat x.pats 1 = false →
        let n := moveLen x.desc x.pats [0, 1]
        let src := faOff (descOp x.desc 0)
        let dst := faOff (descOp x.desc 1)
        let sent (dev : Nat) (l : List TxPkt) : Prop := (t.txDst dev).wait = (s.txDst dev).wait ++ l ∧ (t.cmd id).left = (s.cmd id).left + l.length
          ∧ ∀ p ∈ l, p.pkt.dst = dev ∧ p.pkt.src = s.ownDev ∧ p.pkt.payload = [] ∧ ∃ pos len, p.org = .rls c 256 id pos len
        (descOpcode x.desc = 0x32 → faSpace (descOp x.desc 0) ≠ 1 → s.fencedDetail (faDev (descOp x.desc 0)) = none →
          let dev := faDev (descOp x.desc 0)
          Quiet s t ∧ t.csr = s.csr ∧ (t.cmd id).oruns = [(some dst, n)] ∧ ∃ l, sent dev l
            ∧ l.map (fun p => (p.pkt.kind, p.pkt.addr, p.pkt.aux, p.org)) = (cutRange 256 (n + 1) src n).map (fun p =>
                (2, mkFa (faSpace (descOp x.desc 0)) dev p.1, p.2, .rls c 256 id (p.1 - src) p.2)))
        ∧ (descOpcode x.desc = 0x33 → faSpace (descOp x.desc 1) ≠ 1 → s.fencedDetail (faDev (descOp x.desc 1)) = none →
          let dev := faDev (descOp x.desc 1)
          Quiet s t ∧ t.csr = s.csr ∧ ∃ l, sent dev l
            ∧ l.map (fun p => (p.pkt.kind, p.pkt.addr, p.runs)) = (cutRange 256 (n + 1) dst n).map (fun p =>
                (1, mkFa (faSpace (descOp x.desc 1)) dev p.1, sliceRuns [(some src, n)] (p.1 - dst) p.2)))
        ∧ (descOpcode x.desc = 0x34 → s.fencedDetail (faDev (descOp x.desc 0)) = none →
          let dev := faDev (descOp x.desc 0)
          let r := (readRuns (ctlPoisonPass x.desc) [(some dst, 16)] s).1
          r.bad = [] → r.soft = [] → SameFlags s t ∧ (t.cmd id).oruns = [(some (dst + 16), 8)] ∧ (t.cmd id).left = (s.cmd id).left + 1
            ∧ ∃ p, (t.txDst dev).wait = (s.txDst dev).wait ++ [p] ∧ p.pkt.kind = 3 ∧ p.pkt.addr = mkFa 0 dev src ∧ p.pkt.aux = descOp x.desc 2 % 32
              ∧ p.pkt.payload = r.bytes ∧ p.pkt.flagged = (descOp x.desc 2).testBit 5 ∧ p.org = .rls c 256 id 0 8)))
  ∧ (∀ (c : CoreId) (s : State) (id : Nat), Starts s c 3 id (s.core c).skm.queue → (s.core c).skm.power = 0 → NoInjection s (pgSkm c) →
      let x := s.cmd id
      let q := readSlot s x 1 0
      let k := readSlot q.2 x 0 0
      let t := startSkm s c
      let nq := patLen (patAt x.pats 1) / 8
      let l := selLimit x.desc x.pats
      let sink := natBits (opParam x.desc 2) 9 0
      let recent := natBits (opParam x.desc 2) 19 10
      let keys := (List.range (selKeys x.pats)).map (fun i => leAt k.1.bytes (8 * i) 8)
      let blocks := pieces (keys.length + 1) (selBlk x.desc) keys
      let score (j b : Nat) : Nat :=
        let sims := (blocks.getD b []).map (fun key => 64 - popcount (leAt q.1.bytes (8 * j) 8 ^^^ key))
        if (opParam x.desc 1).testBit 13 then sims.sum else sims.foldl max 0
      descOpcode x.desc = 0x38 → sink + recent ≤ natBits (opParam x.desc 1) 9 0 + 1 →
      q.1.bad = [] → q.1.soft = [] → k.1.bad = [] → k.1.soft = [] →
      SameFlags s t ∧ ∃ ls : List (List Nat), ls.length = nq ∧ Stores k.2 t id 2 (ls.flatMap listBytes)
        ∧ ∀ j, j < nq → let sel := ls.getD j []
            sel.Pairwise (· < ·) ∧ sel.length = min l blocks.length ∧ (∀ b ∈ sel, b < blocks.length)
            ∧ (∀ b, b < blocks.length → b < sink ∨ blocks.length ≤ b + recent → b ∈ sel)
            ∧ ∀ b b', b ∈ sel → sink ≤ b → b + recent < blocks.length → b' < blocks.length → b' ∉ sel →
                score j b' < score j b ∨ (score j b' = score j b ∧ b' < b))

/-- The three CTL opcodes enter and act when they issue; FLAG_SET loads its flag and clears its poison when asked; EVENT puts its
64-bit value and origin into the event queue; TRIGGER rings a local ring's doorbell; a CTL command that has acted is complete, and with
a status other than OK its TAG shows in LAST_TAG and its source is recorded. (R116, R117, R131, R141, R143) Rests also on the model's
own reading or choice in log entry 8. -/
def Obligations.CtlOpcodesRun : Prop :=
  (∀ (c : CoreId) (s : State) (e : WinEntry),
      (Issues s c e 0x01 → ∃ u, Entered s u c e ∧ Quiet s u ∧ u.csr = s.csr ∧ (u.core c).finc = (s.core c).finc
          ∧ exec (.flagSet c) s = .next (stepHalt (flagSetAct c u e) c e))
      ∧ (Issues s c e 0x03 → ∃ u, Entered s u c e ∧ Quiet s u ∧ u.csr = s.csr ∧ u.events = s.events ∧ u.host = s.host
          ∧ exec (.event c) s = .next (stepHalt (eventAct c u e) c e))
      ∧ (Issues s c e 0x02 → checkTrigger s c e = none → ∃ u, Entered s u c e ∧ Quiet s u ∧ u.csr = s.csr ∧ u.net = s.net
          ∧ exec (.trigger c) s = .next (stepHalt (triggerAct u e s.nextCmd) c e)))
  ∧ (∀ (c : CoreId) (s : State) (e : WinEntry),
      (NoInjection s (pgGrv c) → (s.core c).finc = [] →
        let t := flagSetAct c s e
        let x := descOp e.desc 0
        SameMemory s t ∧ t.csr = s.csr ∧ OtherFlags s t c (natBits x 11 0)
          ∧ t.flagVal c (natBits x 11 0) = BitVec.ofNat 32 (natBits x 63 32)
          ∧ t.flagPois c (natBits x 11 0) = (s.flagPois c (natBits x 11 0) && !x.testBit 12))
      ∧ (countIf (fun x => !x.keeps) (s.events ++ s.host.unacked.map (·.2)) < 4032 →
        ∃ v, eventAct c s e = { s with events := s.events ++ [v] } ∧ v.kind = 2 ∧ v.data = descOp e.desc 0
          ∧ v.origin = originOf c e.ring (descTag e.desc) ∧ v.ns = s.time.ns)
      ∧ (∀ d q id, s.isOwn (faDev (descOp e.desc 0)) = true → qtailOf (faOff (descOp e.desc 0)) = some (d, q) →
        triggerAct s e id = ringDoorbell s d q (descOp e.desc 1 % 65536)))
  ∧ (∀ (c : CoreId) (inst : Fin 32) (ahead id : Nat) (s : State), s.running = true →
      (s.core c).ctl.find? (fun id => (s.cmd id).ran && (s.cmd id).left == 0) = some id →
      (s.cmd id).core = c → (s.cmd id).ring < 8 →
      After (.descriptorComplete c 7 inst ahead) s (fun t => smHas t.cmds id = false
        ∧ ((s.cmd id).status ≠ 0 → t.fld (pgGrv c) (qField GRV_QSTAT_LAST_TAG (s.cmd id).ring) = descTag (s.cmd id).desc)
        ∧ ∀ src, (s.cmd id).status ≠ 0 → (s.cmd id).src = none → grvSource (s.cmd id).status = some src → Recorded t (pgGrv c) src))

/-- The stall tracer completes the oldest entry of each enabled ring that has one, with its waits in STALL_REC and GRV source 2; a wait
timeout completes the oldest entry with an unmet wait, GRV source 3; a resume ends the halt of every ring, with a single step when
asked, which leaves a step that other rings still owe. (R151, R152, R154) -/
def Obligations.GraverTimersAct : Prop :=
  (∀ (c : CoreId) (s : State), s.pins.pwrGood = true → stallCond s c = true → (s.core c).window.Pairwise (fun x y => x.seq ≠ y.seq) →
      After (.stallTracerExpiry c) s (fun t => ∀ (q : RingId) (e : WinEntry),
        s.flag (pgGrv c) (qField GRV_QCTRL_EN q) = true → oldestOf s c q = some e →
          (∀ w : Fin 4, t.fld (pgGrv c) (stallRec q w) = descWait e.desc w)
            ∧ bitAt (t.reg (pgGrv c) 0x118) q = true
            ∧ t.fld (pgGrv c) (qField GRV_QSTAT_LAST_TAG q) = descTag e.desc
            ∧ Recorded t (pgGrv c) 2))
  ∧ (∀ (c : CoreId) (q : RingId) (s : State) (e : WinEntry), s.running = true → s.fld (pgGrv c) (qField GRV_QCTRL_TMO q) ≠ 0 →
      s.flag (pgGrv c) (qField GRV_QSTAT_HALT_BRK q) = false →
      (s.core c).window.find? (fun e => e.ring == q.val && !waitsMet e) = some e →
      After (.waitTimeout c q) s (fun t =>
        t.fld (pgGrv c) (qField GRV_QSTAT_LAST_TAG q) = descTag e.desc ∧ Recorded t (pgGrv c) 3))
  ∧ (∀ (c : CoreId) (s : State), s.pins.pwrGood = true → s.flag (pgGrv c) GRV_BRK_STAT_HIT = true →
      ∀ x ∈ ([(.breakpointResume c, false), (.breakpointStep c, true)] : List (Instr × Bool)),
      After x.1 s (fun t => Quiet s t ∧ t.flag (pgGrv c) GRV_BRK_STAT_HIT = false
        ∧ (∀ q : RingId, t.flag (pgGrv c) (qField GRV_QSTAT_HALT_BRK q) = false)
        ∧ (t.core c).window = (s.core c).window ∧ (t.core c).stepping = (x.2 || (s.core c).stepping)
        ∧ (x.2 = false → (t.core c).stepRings = (s.core c).stepRings)
        ∧ (x.2 = true → ∀ q : RingId, q.val ∈ (t.core c).stepRings ↔ s.flag (pgGrv c) (qField GRV_QSTAT_HALT_BRK q) = true
            ∨ ((s.core c).stepping = true ∧ q.val ∈ (s.core c).stepRings))
        ∧ SameRegs s t (fun p o => WordOf (pgGrv c) GRV_BRK_STAT_HIT p o ∨ ∃ q : RingId, WordOf (pgGrv c) (qField GRV_QSTAT_HALT_BRK q) p o)))

/-! ### The arrays and core memory -/

/-- A queued array command whose arrays are free, awake and need no ramp-up starts to feed; without compression its feed ends and the
gap of its arrays begins, with compression it waits for its weight blocks; and a column of a K-tile accumulates each of its 16 entries
from that token's products, and no other entry. (R40, R44, R45, R84 to R88) -/
def Obligations.ArraysFeed : Prop :=
  (∀ (c : CoreId) (a : ArrId) (s : State) (id : Nat), s.running = true → smHas s.cmds id = true → (s.cmd id).core = c →
      nextFeed s c a = some id → (s.cmd id).sent = 0 →
      (s.cmd id).inst = descInst (s.cmd id).desc → (s.cmd id).inst < 6 →
      (∀ b ∈ arraysOf (s.cmd id).inst, nextFeed s c b = some id ∧ ((s.core c).arr b).power = 0) → rampNeeded s id = false →
      After (.arrayFeedStart c a) s (fun t =>
        let m := matOf (s.cmd id).desc (s.cmd id).pats
        (t.cmd id).sent = 1 ∧ (t.cmd id).desc = (s.cmd id).desc
          ∧ (m.comp = false → (t.cmd id).ran = true
              ∧ ∀ b ∈ arraysOf (s.cmd id).inst, ((t.core c).arr b).gap = true)
          ∧ (m.comp = true → (t.cmd id).left = patLen (patAt (s.cmd id).pats 1) / 4096 ∧ (t.cmd id).ran = (s.cmd id).ran)
          ∧ ∀ b ∈ arraysOf (s.cmd id).inst, ((t.core c).arr b).shade = .idle ∧ ((t.core c).arr b).density = 0))
  ∧ (∀ (m : Mat) (buf : List Byte) (b j : Nat) (col : Fin 128) (p : Piece) (vals : SMap Word),
      (∀ t : Fin 16, smGet 0 (feedColumn m buf b j col p vals) (128 * t + col) =
        accumulate m (smGet 0 vals (128 * t + col)) p (stationAt m buf b t j p.mask).1 (stationAt m buf b t j p.mask).2)
      ∧ (∀ k, (k % 128 ≠ col ∨ 2048 ≤ k) → smGet 0 (feedColumn m buf b j col p vals) k = smGet 0 vals k))

/-- A column whose final update is available drains; the end of a weight block is counted, and the last one ends the feed, as does one
from which zero columns are fed; a gap begins shading at full density, THRESH ends it or ramps it down, and a ramp step moves the
density by a quarter, no higher than the cap. (R45, R53, R101, R105, R466) -/
def Obligations.ArraysDrainAndShade : Prop :=
  (∀ (c : CoreId) (a : ArrId) (s : State) (id k : Nat), s.running = true → smHas s.cmds id = true → nextDrain s c a = some (id, k) →
      After (.arrayColumnDrain c a) s (fun t => SameFlags s t ∧ (t.cmd id).desc = (s.cmd id).desc
        ∧ (if k = 0 then (t.cmd id).drained = (s.cmd id).drained + 1 ∧ (t.cmd id).drainedOdd = (s.cmd id).drainedOdd
           else (t.cmd id).drainedOdd = (s.cmd id).drainedOdd + 1 ∧ (t.cmd id).drained = (s.cmd id).drained)))
  ∧ (∀ (c : CoreId) (a : ArrId) (s : State) (id : Nat), s.running = true → smHas s.cmds id = true → nextFeed s c a = some id →
      (matOf (s.cmd id).desc (s.cmd id).pats).comp = true → (s.cmd id).sent ≠ 0 → (s.cmd id).left ≠ 0 →
      After (.burnisherBlockEnd c a) s (fun t => SameFlags s t
        ∧ (t.cmd id).blocks = (s.cmd id).blocks + 1
        ∧ ((s.cmd id).left = 1 → (t.cmd id).ran = true) ∧ ((t.cmd id).zero = true → (t.cmd id).ran = true)
        ∧ ((t.cmd id).ran = true → (t.cmd id).left = 0)
        ∧ ((t.cmd id).ran = false → (t.cmd id).left = (s.cmd id).left - 1 ∧ 1 < (s.cmd id).left)))
  ∧ (∀ (c : CoreId) (a : ArrId) (s : State), s.pins.pwrGood = true →
      let r := (s.core c).arr a
      (r.gap = true → s.flag (pgArr c) ARR_SHADE_CTRL_EN = true → r.power = 0 → clampStep s (c / 288) = 0 → windowNames s c a = true →
          s.fld (pgArr c) ARR_SHADE_CTRL_THRESH ≠ 0 →
        After (.arrayGapBegin c a) s (fun t => Quiet s t ∧ t.csr = s.csr ∧ (t.core c).arr a = { r with gap := false, shade := .full, density := 4 }))
      ∧ (r.shade = .full →
        After (.shadeThreshExpiry c a) s (fun t => Quiet s t ∧ t.csr = s.csr ∧ (t.core c).arr a =
          if s.flag (pgArr c) ARR_SHADE_CTRL_RAMP_DOWN then { r with shade := .down, density := r.density - 1 }
          else { r with shade := .idle, density := 0 }))
      ∧ (r.shade = .down → 1 < r.density →
        After (.shadeRampStep c a) s (fun t => Quiet s t ∧ t.csr = s.csr ∧ (t.core c).arr a = { r with density := r.density - 1 }))
      ∧ (r.shade = .down → r.density = 1 →
        After (.shadeRampStep c a) s (fun t => Quiet s t ∧ t.csr = s.csr ∧ (t.core c).arr a = { r with density := 0, shade := .idle }))
      ∧ (r.shade = .up → r.density < shadeCap s c →
        After (.shadeRampStep c a) s (fun t => Quiet s t ∧ t.csr = s.csr ∧ (t.core c).arr a = { r with density := r.density + 1 })))

/-- A completed fetch commits before any other tracked write, which is the oldest that is no fetch; its tracker range frees, the write
that waits first at the mesh port enters the tracker with its bytes, and a packet whose last write has committed is committed; a
fetch's completion marks the oldest tracked fetch of its engine; a merge line leaves its buffer; a corrected line is written back good;
a seed written takes effect in every lane at the next boundary. (R48, R49, R94, R215, R216) That the oldest other write commits next, and
that a waiting write brings its bytes when it enters the tracker, is the model's choice (log entries 7, 36). -/
def Obligations.CoreStores : Prop :=
  (∀ (c : CoreId) (s : State) (pre post : List InRange) (r : InRange), s.pins.pwrGood = true →
      (s.core c).inbound = pre ++ r :: post →
      let first := (r.done = true ∧ ∀ x ∈ pre, x.done = false)
        ∨ (r.fetched = false ∧ (∀ x ∈ (s.core c).inbound.take 64, x.done = false) ∧ ∀ x ∈ pre, x.fetched = true)
      (first → (s.core c).inbound.length ≤ 64 →
        ∃ u, Quiet s u ∧ u.csr = s.csr ∧ (u.core c).inbound = pre ++ post
          ∧ exec (.inboundWriteCommit c) s = .next (match r.ack with
              | none => u
              | some a => if ackWaits u a then u else commitAck u a))
      ∧ (∀ w, first → pre.length < 64 → r.ack = none → (pre ++ post)[63]? = some w →
        ∃ u, Quiet s u ∧ u.csr = s.csr ∧ (u.core c).inbound = (pre ++ post).set 63 { w with parts := [] }
          ∧ exec (.inboundWriteCommit c) s = .next (putParts w.parts w.pois u))
      ∧ (∀ g : Fin 2, pre.length < 64 → r.fetched = true → r.done = false → r.eng = g → (∀ x ∈ pre, ¬ (x.fetched = true ∧ x.done = false ∧ x.eng = g)) →
        After (.fetchComplete c g) s (fun t => Quiet s t ∧ t.csr = s.csr ∧ (t.core c).inbound = pre ++ { r with done := true } :: post)))
  ∧ (∀ (c : CoreId) (line : Fin 32768) (v : Word) (s : State), s.pins.pwrGood = true →
      After (.mergeBufferEvict c line) s (fun t => Quiet s t ∧ t.csr = s.csr
        ∧ ∀ l : Nat, l ∈ (t.core c).merge ↔ l ∈ (s.core c).merge ∧ l ≠ line)
      ∧ (smHas (s.core c).wback line = true →
        After (.sramCorrectedWriteback c line) s (fun t => Quiet s t ∧ t.csr = s.csr
          ∧ smHas (t.core c).wback line = false ∧ smGet [] t.sramCodes.errs (32768 * c + line) = []
          ∧ t.sramCodes.pois = s.sramCodes.pois))
      ∧ After (.srSeedWrite c v) s (fun t => Quiet s t ∧ t.reg (pgVec c) 0x100 = v ∧ SameRegs s t (WordOf (pgVec c) VEC_SR_SEED)
          ∧ (t.core c).seedPend = true ∧ (t.core c).gens = (s.core c).gens)
      ∧ ((s.core c).seedPend = true →
        After (.srSeedReload c) s (fun t => Quiet s t ∧ t.csr = s.csr ∧ (t.core c).seedPend = false
          ∧ ∀ l : Fin 64, smFind (t.core c).gens l = some (laneSeed (s.reg (pgVec c) 0x100) l))))

/-- A scrub read of a good SRAM line counts towards the pass and changes nothing else; a plate read of a good codeword changes nothing
but its counter and, of a plate that slept, its power state; a scrub read of a good plate codeword counts there too and towards the pass;
with scrubbing off a period's end restarts the lanes' counts. (R211, R217 to R219, R222, R464) That the wait for a sleeping plate lies within the reading command is the model's choice (log entry 124). -/
def Obligations.ScrubsAndReadsCount : Prop :=
  (∀ (c : CoreId) (line : Fin 32768) (s : State), s.pins.pwrGood = true → s.flag (pgSrm c) SRM_SCFG_EN = true →
      NoInjection s (pgSrm c) → smGet [] s.sramCodes.errs (32768 * c + line) = [] →
      After (.sramScrubRead c line []) s (fun t => Quiet s t ∧ t.csr = s.csr ∧ t.sramCodes = s.sramCodes
        ∧ (if (smInsert (s.core c).scrubbed line ()).length = 32768
           then (t.core c).scrubbed = [] ∧ t.counter (pgSrm c) 2 = s.counter (pgSrm c) 2 + 1
           else (t.core c).scrubbed = smInsert (s.core c).scrubbed line () ∧ t.cnt = s.cnt)))
  ∧ (∀ (off : Nat) (s : State), s.pins.pwrGood = true → isPlate s.fuses off = true → NoInjection s (pgPlt (plateOf s.fuses off)) →
      s.flag (pgPlt (plateOf s.fuses off)) PLT_PSTAT_LOST = false → smGet [] s.plateCodes.errs (off / 64) = [] →
      After (.plateRead off []) s (fun t => Quiet s t ∧ t.plateCodes = s.plateCodes ∧ (t.plate (plateOf s.fuses off)).power = 0
        ∧ ((s.plate (plateOf s.fuses off)).power = 0 → t.csr = s.csr)
        ∧ SameRegs s t (WordOf (pgPlt (plateOf s.fuses off)) PG_LATTOL_STATE)
        ∧ t.counter (pgPlt (plateOf s.fuses off)) 0 = s.counter (pgPlt (plateOf s.fuses off)) 0 + 1))
  ∧ (∀ (p : PlateId) (off : Nat) (s : State), s.pins.pwrGood = true → isPlate s.fuses off = true → plateOf s.fuses off = p →
      (NoInjection s (pgPlt p) → s.flag (pgPlt p) PLT_PSTAT_LOST = false → s.flag (pgPlt p) PLT_SCRUB_CFG_EN = true → (s.plate p).power < 3 →
        smGet [] s.plateCodes.errs (off / 64) = [] → (smInsert (s.plate p).scrubbed (off / 64) ()).length ≠ plateCodewords →
        After (.plateScrubRead off []) s (fun t => Quiet s t ∧ t.plateCodes = s.plateCodes ∧ (t.plate p).power = 0
          ∧ ((s.plate p).power = 0 → t.csr = s.csr) ∧ SameRegs s t (WordOf (pgPlt p) PG_LATTOL_STATE)
          ∧ t.counter (pgPlt p) 0 = s.counter (pgPlt p) 0 + 1
          ∧ (t.plate p).scrubbed = smInsert (s.plate p).scrubbed (off / 64) ()))
      ∧ (platePresent s p = true → s.flag (pgPlt p) PLT_SCRUB_CFG_EN = false →
        After (.laneCountPeriodExpiry p) s (fun t => Quiet s t ∧ t.csr = s.csr ∧ t.plate p = { s.plate p with lanes := [] })))

/-! ### The aquatint engines -/

/-- An ALOAD at the queue head whose image is well formed makes no matrix resident and settles the heaters for it, and one that is not
completes with FORMAT_ERR at byte 40; AMUL, ASKETCH and ACAL complete with FORMAT_ERR and DETAIL 0 without a resident matrix, whatever
IDCHK says and with no source of their own, now or when the descriptor completes, with DETAIL 56 and source 6 when IDCHK names another matrix, and run otherwise. (R163, R164,
R167 to R169, R175, R177, R183, R184) -/
def Obligations.AqtCommands : Prop :=
  (∀ (e : AqtId) (s : State) (id : Nat), AqtTakes s e id 0x60 →
      let r := (readSlot s (s.cmd id) 0 imageLen).1
      let u := (readSlot s (s.cmd id) 0 imageLen).2
      r.bad = [] → r.soft = [] → NoInjection u (pgAqt e) →
      After (.aload (.run ⟨e, by omega⟩)) s (fun t => SameFlags s t
        ∧ (imageOk r.bytes = true → (t.aqt e).image = r.bytes ∧ (t.aqt e).resident = false ∧ (t.aqt e).phase = .settle (.load id) 0
            ∧ t.flag (pgAqt e) AQT_STAT_LOADING = true ∧ t.flag (pgAqt e) AQT_STAT_READY = false
            ∧ t.fld (pgAqt e) AQT_MATRIX_ID = 0 ∧ t.fld (pgAqt e) AQT_MSCALE = 0)
        ∧ (imageOk r.bytes = false → (u.cmd id).status = 0 → (t.cmd id).ran = true ∧ (t.cmd id).status = 8 ∧ (t.cmd id).detail = 40
            ∧ (t.aqt e).image = (u.aqt e).image ∧ (t.aqt e).phase = (u.aqt e).phase)))
  ∧ (∀ (e : AqtId) (s : State) (id op : Nat), AqtTakes s e id op → (s.cmd id).status = 0 →
      ∀ x ∈ ([(.amul (.run ⟨e, by omega⟩), 0x61), (.asketch (.run ⟨e, by omega⟩), 0x62), (.acal (.run ⟨e, by omega⟩), 0x63)] : List (Instr × Nat)), x.2 = op →
        let idchk := descOp (s.cmd id).desc 2
        ((s.aqt e).resident = false →
          After x.1 s (fun t => Quiet s t ∧ t.csr = s.csr ∧ t.aqts = s.aqts ∧ (t.cmd id).ran = true ∧ (t.cmd id).status = 8 ∧ (t.cmd id).detail = 0
            ∧ (t.cmd id).src = (s.cmd id).src))
        ∧ ((s.aqt e).resident = true → op ≠ 0x63 → idchk.testBit 32 = true → idchk % 2 ^ 32 ≠ s.fld (pgAqt e) AQT_MATRIX_ID →
          After x.1 s (fun t => Quiet s t ∧ t.csr = s.csr ∧ t.aqts = s.aqts ∧ (t.cmd id).ran = true ∧ (t.cmd id).status = 8
            ∧ (t.cmd id).detail = 56 ∧ (t.cmd id).src = some (pgAqt e, 6))))
  ∧ (∀ (e : AqtId) (s : State) (id op : Nat), AqtTakes s e id op → (s.aqt e).resident = true →
      ((descOp (s.cmd id).desc 2).testBit 32 = true → descOp (s.cmd id).desc 2 % 2 ^ 32 = s.fld (pgAqt e) AQT_MATRIX_ID) →
      (∀ x ∈ ([(.amul (.run ⟨e, by omega⟩), 0x61), (.asketch (.run ⟨e, by omega⟩), 0x62)] : List (Instr × Nat)), x.2 = op →
        After x.1 s (fun t => SameFlags s t ∧ (t.aqt e).confirm = (s.aqt e).confirm ++ [id] ∧ (t.aqt e).phase = (s.aqt e).phase
          ∧ (t.cmd id).ran = (s.cmd id).ran))
      ∧ (op = 0x63 → After (.acal (.run ⟨e, by omega⟩)) s (fun t => Quiet s t ∧ t.cmds = s.cmds
          ∧ (t.aqt e).phase = .check .drift 0 ∧ (t.aqt e).acal = some id ∧ t.flag (pgAqt e) AQT_STAT_RECAL = true
          ∧ t.counter (pgAqt e) 2 = s.counter (pgAqt e) 2 + 1 ∧ SameRegs s t (WordOf (pgAqt e) AQT_STAT_RECAL))))

/-- Settled heaters are followed by a check unless the line's identity fails; a full calibration takes the line of CFG as it begins, and
keeps it to its end; a load's check within CAL_TOL makes the matrix resident
and READY, above it corrects up to three times and then takes the engine out of service with CAUSE 2; a drift check is corrected once,
then starts a full recalibration with source 2. (R164, R165, R168, R169, R171) -/
def Obligations.AqtCalibrates : Prop :=
  (∀ (e : AqtId) (identOk : Bool) (s : State) (why : AqtWhy) (n : Nat), s.pins.pwrGood = true → s.inFault = false →
      (s.aqt e).phase = .settle why n →
      let verified := n ≠ 0 ∨ why = .drift ∨ s.fld (pgAqt e) AQT_CFG_LINE = (s.aqt e).line ∨ identOk = true
      After (.aqtHeaterSettleDone e identOk) s (fun t => Quiet s t
        ∧ (verified → (t.aqt e).phase = .check why n ∧ t.csr = s.csr ∧ (t.aqt e).resident = (s.aqt e).resident
            ∧ (t.aqt e).line = if n = 0 ∧ why ≠ .drift then s.fld (pgAqt e) AQT_CFG_LINE else (s.aqt e).line)
        ∧ (¬ verified → (t.aqt e).phase = .idle ∧ (t.aqt e).resident = false
            ∧ t.flag (pgAqt e) AQT_STAT_OOS = true ∧ t.fld (pgAqt e) AQT_SVC_CAUSE = 4 ∧ t.fld (pgAqt e) AQT_MATRIX_ID = 0)))
  ∧ (∀ (e : AqtId) (calErr : BitVec 16) (s : State) (id n : Nat), s.pins.pwrGood = true → s.inFault = false →
      (s.aqt e).phase = .check (.load id) n → smHas s.cmds id = true →
      let tol := s.fld (pgAqt e) AQT_CAL_CAL_TOL
      After (.aqtCalCheckDone e calErr) s (fun t => Quiet s t ∧ t.fld (pgAqt e) AQT_CAL_CAL_ERR = calErr.toNat
        ∧ (calErr.toNat ≤ tol → (t.aqt e).phase = .idle ∧ (t.aqt e).resident = true ∧ (t.cmd id).ran = true
            ∧ t.flag (pgAqt e) AQT_STAT_READY = true ∧ t.flag (pgAqt e) AQT_STAT_LOADING = false
            ∧ t.fld (pgAqt e) AQT_MATRIX_ID = leAt (s.aqt e).image 4 4 ∧ t.fld (pgAqt e) AQT_MSCALE = leAt (s.aqt e).image 8 4)
        ∧ (tol < calErr.toNat → n < 3 → (t.aqt e).phase = .settle (.load id) (n + 1) ∧ (t.aqt e).resident = (s.aqt e).resident)
        ∧ (tol < calErr.toNat → 3 ≤ n → (t.aqt e).phase = .idle ∧ (t.aqt e).resident = false ∧ (t.cmd id).ran = true
            ∧ t.flag (pgAqt e) AQT_STAT_OOS = true ∧ t.fld (pgAqt e) AQT_SVC_CAUSE = 2)))
  ∧ (∀ (e : AqtId) (calErr : BitVec 16) (s : State) (n : Nat), s.pins.pwrGood = true → s.inFault = false → e.val < s.fuses.part.aqts →
      (s.aqt e).phase = .check .drift n → s.fld (pgAqt e) AQT_CAL_CAL_TOL < calErr.toNat →
      After (.aqtCalCheckDone e calErr) s (fun t => Quiet s t ∧ t.cmds = s.cmds
        ∧ (t.aqt e).phase = (if n = 0 then .settle .drift 1 else .settle .full 0)
        ∧ (n ≠ 0 → Recorded t (pgAqt e) 2 ∧ t.flag (pgAqt e) AQT_STAT_LOADING = true ∧ t.flag (pgAqt e) AQT_STAT_RECAL = false)))

/-- When a drift recalibration is due and how it starts; a loss of light holds the engine and ends its calibration, and light confirmed
lets a command complete; after a loss the engine recalibrates once its die has switched inputs, and not before, and not while it sleeps; an engine out of
service is tested and, with light, readmitted, or stays out with CAUSE 5; and a configuration write takes effect at the boundary of an
ALOAD or ACAL. (R168, R172 to R176, R191, R465) -/
def Obligations.AqtService : Prop :=
  (∀ (e : AqtId) (byPeriod : Bool) (s : State), s.pins.pwrGood = true → (s.aqt e).resident = true → aqtInService s e = true →
      (s.aqt e).phase = .idle →
      ((s.aqt e).power < 3 → (byPeriod = true ∨ 4 * bits (s.aqt e).cfg 27 24 ≤ (aqtTemp s e - (s.aqt e).tempRef).natAbs) →
        After (.driftRecalDue e byPeriod) s (fun t => Quiet s t ∧ t.csr = s.csr ∧ t.aqt e = { s.aqt e with due := true }))
      ∧ (aqtFree s e = true → (s.aqt e).recalFirst = true →
        After (.driftRecalStart e) s (fun t => Quiet s t ∧ (t.aqt e).phase = .settle .full 0 ∧ t.flag (pgAqt e) AQT_STAT_LOADING = true
          ∧ t.counter (pgAqt e) 2 = s.counter (pgAqt e) 2 + 1))
      ∧ (aqtFree s e = true → (s.aqt e).recalFirst = false → (s.aqt e).due = true →
        After (.driftRecalStart e) s (fun t => Quiet s t ∧ t.aqt e = { s.aqt e with phase := .check .drift 0, due := false }
          ∧ t.flag (pgAqt e) AQT_STAT_RECAL = true ∧ t.counter (pgAqt e) 2 = s.counter (pgAqt e) 2 + 1))
      ∧ (s.inFault = false → (s.aqt e).heldLight = true → (s.die (aqtDie e)).switches = (s.aqt e).lossSwitch →
        exec (.aqtSwitchoverRecal e) s = .next s)
      ∧ ((s.aqt e).power ≠ 0 → exec (.aqtSwitchoverRecal e) s = .next s)
      ∧ (s.inFault = false → (s.aqt e).power = 0 → (s.aqt e).heldLight = true → dieLit s (aqtDie e) = true → (s.die (aqtDie e)).switches ≠ (s.aqt e).lossSwitch →
        After (.aqtSwitchoverRecal e) s (fun t => Quiet s t ∧ (t.aqt e).phase = .settle .full 0 ∧ (t.aqt e).heldLight = true
          ∧ t.flag (pgAqt e) AQT_STAT_LOADING = true)))
  ∧ (∀ (e : AqtId) (inWindow : Bool) (s : State), s.pins.pwrGood = true →
      (aqtInService s e = true →
        After (.aqtLightLoss e inWindow) s (fun t => Quiet s t ∧ (t.aqt e).phase = .idle ∧ (t.aqt e).heldLight = true
          ∧ (t.aqt e).confirm = (if inWindow then [] else (s.aqt e).confirm) ∧ (t.aqt e).resident = (s.aqt e).resident
          ∧ t.flag (pgAqt e) AQT_STAT_HELD = true ∧ t.flag (pgAqt e) AQT_STAT_LOADING = false ∧ t.flag (pgAqt e) AQT_STAT_RECAL = false
          ∧ ∀ id, (calOwner (s.aqt e) = some id ∨ inWindow = true ∧ id ∈ (s.aqt e).confirm) → smHas s.cmds id = true → (s.cmd id).status = 0 →
              (t.cmd id).ran = true ∧ (t.cmd id).status = 4 ∧ (t.cmd id).src = some (pgAqt e, 4)))
      ∧ (∀ id rest, (s.aqt e).confirm = id :: rest → smHas s.cmds id = true →
        After (.aqtLightConfirm e) s (fun t => Quiet s t ∧ t.csr = s.csr ∧ (t.aqt e).confirm = rest
          ∧ t.cmd id = { s.cmd id with ran := true })))
  ∧ (∀ (e : AqtId) (identOk : Bool) (calErr : BitVec 16) (s : State), s.pins.pwrGood = true →
      (s.flag (pgAqt e) AQT_STAT_OOS = true →
        After (.aqtReadmitWrite e) s (fun t => Quiet s t ∧ t.flag (pgAqt e) AQT_SVC_READMIT_PEND = true
          ∧ SameRegs s t (WordOf (pgAqt e) AQT_SVC_READMIT_PEND) ∧ t.aqts = s.aqts))
      ∧ (s.flag (pgAqt e) AQT_STAT_OOS = true → s.flag (pgAqt e) AQT_SVC_READMIT_PEND = true → s.inFault = false →
        After (.aqtReadmitTest e identOk calErr) s (fun t => Quiet s t ∧ t.flag (pgAqt e) AQT_SVC_READMIT_PEND = false
          ∧ t.fld (pgAqt e) AQT_CAL_CAL_ERR = calErr.toNat
          ∧ (if identOk = true ∧ dieLit s (aqtDie e) = true ∧ calErr.toNat ≤ s.fld (pgAqt e) AQT_CAL_CAL_TOL
             then t.flag (pgAqt e) AQT_STAT_OOS = false ∧ t.fld (pgAqt e) AQT_SVC_CAUSE = 0 ∧ (t.aqt e).resident = false
             else t.flag (pgAqt e) AQT_STAT_OOS = true ∧ t.fld (pgAqt e) AQT_SVC_CAUSE = 5)))
      ∧ (calOwner (s.aqt e) ≠ none → exec (.aqtConfigApply e) s = .next s)
      ∧ (calOwner (s.aqt e) = none →
        After (.aqtConfigApply e) s (fun t => Quiet s t ∧ t.csr = s.csr ∧ (t.aqt e).cfg = s.reg (pgAqt e) 0x100
          ∧ (∀ i : Fin 8, (t.aqt e).smask[i.val]? = some (s.reg (pgAqt e) (0x120 + 4 * i))) ∧ (t.aqt e).phase = (s.aqt e).phase)))

/-! ### Plates -/

/-- A write of one whole codeword of a plate in service stores its 64 bytes and nothing else, and leaves the codeword good and poisoned
as it says; an answered refresh closes the channel's rows and shows the rate that the plate's sensor asks for, and a plate in retention
takes none; a channel that does not answer, at a refresh or a command, loses its plate with PLT source 4, but not while the plate sleeps or wakes. (R200, R209, R212, R219, R465) -/
def Obligations.PlateWritesAndChannels : Prop :=
  (∀ (off : Nat) (data : List Byte) (poison : Bool) (s : State), s.pins.pwrGood = true → off % 64 = 0 → data.length = 64 →
      rangeExists s.fuses off 64 = true → isPlate s.fuses off = true → s.flag (pgPlt (plateOf s.fuses off)) PLT_PSTAT_LOST = false →
      After (.plateWrite off data poison) s (fun t => SameFlags s t ∧ t.csr = s.csr
        ∧ (∀ i : Fin 64, memByte t.mem (off + i) = data.getD i 0)
        ∧ (∀ a, (a < off ∨ off + 64 ≤ a) → memByte t.mem a = memByte s.mem a)
        ∧ smHas t.plateCodes.pois (off / 64) = poison ∧ smGet [] t.plateCodes.errs (off / 64) = []))
  ∧ (∀ (p : PlateId) (ch : Fin 64) (s : State), s.pins.pwrGood = true → platePresent s p = true → s.flag (pgPlt p) PLT_PSTAT_LOST = false →
      (∀ refreshed answered, 3 ≤ (s.plate p).power → exec (.plateRefresh p ch refreshed answered) s = .next s)
      ∧ ((s.plate p).power < 3 → After (.plateRefresh p ch true true) s (fun t => Quiet s t ∧ t.flag (pgPlt p) PLT_PSTAT_REF_2X = plateHot s p
          ∧ t.flag (pgPlt p) PLT_PSTAT_LOST = false ∧ (∀ e ∈ (t.plate p).rows, e.1 / 32 ≠ ch) ∧ SameRegs s t (WordOf (pgPlt p) PLT_PSTAT_REF_2X)))
      ∧ ((s.plate p).power < 3 → ∀ r a : Bool, (r && a) = false → After (.plateRefresh p ch r a) s (fun t => Quiet s t ∧ t.flag (pgPlt p) PLT_PSTAT_LOST = true ∧ t.fld (pgPlt p) PLT_PSTAT_FAIL_CH = ch
          ∧ Recorded t (pgPlt p) 4))
      ∧ ((s.plate p).power ≠ 0 → exec (.plateChannelTimeout p ch) s = .next s)
      ∧ ((s.plate p).power = 0 → After (.plateChannelTimeout p ch) s (fun t => Quiet s t ∧ t.flag (pgPlt p) PLT_PSTAT_LOST = true ∧ t.fld (pgPlt p) PLT_PSTAT_FAIL_CH = ch
          ∧ Recorded t (pgPlt p) 4)))

/-- In the block of 2^B granules that starts at granule b times 2^B, each channel below 2^B is that of exactly one granule; the block
is 256 KiB on a 16-plate part and 128 KiB on an 8-plate part. (R196, R198) -/
def Obligations.GranulesSpread : Prop :=
  ∀ (f : Fuses) (b : Nat),
    let n := 2 ^ hashBits f
    (∀ c, c < n → ∃ r, r < n ∧ granuleChannel f (n * b + r) = c ∧ ∀ q, q < n → granuleChannel f (n * b + q) = c → q = r)
    ∧ (f.part.plates = 16 → n * 256 = 256 * 1024) ∧ (f.part.plates = 8 → n * 256 = 128 * 1024)

/-! ### Optics -/

/-- Losing the selected input holds the die's active pairs, records STL source 3 and begins a switch when the other input is ready; a
switch's end selects the other input and unlocks the transmit rings in use, which must prove their identity anew; each line of the tone-plan check passes by the margin and
depth of KCFG, and the 32nd passes the check, which a loss of the input's light ends; the first input to qualify is selected, input A
where both do; a die with neither light nor switch is dark, its planes down and its engines out of service. (R231 to R235, R172) -/
def Obligations.LaserInputsDecide : Prop :=
  (∀ (d : StlId) (s : State), s.pins.pwrGood = true → dieFitted s d = true →
      ((s.die d).selected = true →
        After (.laserLoss d) s (fun t => t.flag (pgStl d) (lightFld (selB s d)) = false ∧ t.flag (pgStl d) (qualFld (selB s d)) = false
          ∧ t.flag (pgStl d) STL_LASER_SEL_PEND = false ∧ Recorded t (pgStl d) 3
          ∧ ((t.die d).switching = true ↔ s.flag (pgStl d) STL_LASER_AUTO = true ∧ s.flag (pgStl d) (qualFld !(selB s d)) = true
              ∧ s.flag (pgStl d) (lightFld !(selB s d)) = true)
          ∧ ∀ (f : Fin 8) (k : LineId), (s.lane (pairKey (planeOf d f) k)).st = 6 → (t.lane (pairKey (planeOf d f) k)).st = 7))
      ∧ ((s.die d).switching = true →
        After (.selectorSwitchDone d) s (fun t => t.flag (pgStl d) STL_LSTAT_INPUT = !(selB s d) ∧ t.flag (pgStl d) STL_LSTAT_DARK = false
          ∧ (t.die d).switching = false ∧ (t.die d).selected = true ∧ t.counter (pgStl d) 5 = s.counter (pgStl d) 5 + 1
          ∧ t.flag (pgAqt (2 * d)) AQT_STAT_INPUT = !(selB s d) ∧ t.flag (pgAqt (2 * d + 1)) AQT_STAT_INPUT = !(selB s d)
          ∧ ∀ (f : Fin 8) (r : Fin 18), ringFlag s d f r KEY_RING_INUSE = true →
              ringFlag t d f r KEY_RING_LOCKED = false ∧ (t.ring d f r).proven = false)))
  ∧ (∀ (d : StlId) (b : Bool) (strongest : LineId) (margin depth : Nat) (s : State), s.pins.pwrGood = true → dieFitted s d = true →
      let tone (x : DieSt) := if b then x.toneB else x.toneA
      let check (x : DieSt) := if b then x.checkB else x.checkA
      ((s.die d).selected = false ∨ b ≠ selB s d →
        let pass := strongest.val = tone (s.die d) ∧ s.fld (pgKey d) KEY_KCFG_TONE_MARGIN ≤ margin ∧ s.fld (pgKey d) KEY_KCFG_DEPTH_MIN ≤ depth
        After (.standbyToneCheckStep d b ⟨strongest, margin, depth⟩) s (fun t => (pass → t.csr = s.csr
          ∧ (tone (s.die d) < 31 → tone (t.die d) = tone (s.die d) + 1 ∧ check (t.die d) = check (s.die d))
          ∧ (31 ≤ tone (s.die d) → tone (t.die d) = 0 ∧ check (t.die d) = true))
          ∧ (¬ pass → tone (t.die d) = 0 ∧ check (t.die d) = false
            ∧ t.flag (pgStl d) (qualFld b) = false ∧ Recorded t (pgKey d) 4)))
      ∧ (s.flag (pgStl d) (lightFld b) = true → check (s.die d) = true →
        After (.inputQualify d b) s (fun t => t.flag (pgStl d) (qualFld b) = true
          ∧ ((s.die d).selected = false → s.flag (pgStl d) STL_LSTAT_DARK = false →
              (t.die d).selected = true ∧ t.flag (pgStl d) STL_LSTAT_INPUT = (b && !inputReady s d false))
          ∧ ((s.die d).selected = true → t.dies = s.dies ∧ SameRegs s t (WordOf (pgStl d) STL_LSTAT_INPUT))))
      ∧ ((s.die d).selected = true →
        After (.standbyLightLoss d false) s (fun t => t.flag (pgStl d) (lightFld !(selB s d)) = false
          ∧ t.flag (pgStl d) (qualFld !(selB s d)) = false ∧ t.die d = (s.die d).uncheck !(selB s d)
          ∧ (s.flag (pgStl d) (qualFld !(selB s d)) = true → Recorded t (pgStl d) 5)))
      ∧ After (.selReqWrite d) s (fun t => t.flag (pgStl d) STL_LASER_SEL_PEND = true ∧ SameRegs s t (WordOf (pgStl d) STL_LASER_SEL_PEND)))
  ∧ (∀ (d : StlId) (s : State), s.pins.pwrGood = true → dieFitted s d = true → (s.die d).selected = true → (s.die d).switching = false →
      s.flag (pgStl d) (lightFld (selB s d)) = false →
      After (.dieDark d) s (fun t => t.flag (pgStl d) STL_LSTAT_DARK = true ∧ (t.die d).selected = false ∧ Recorded t (pgStl d) 4
        ∧ (∀ f : Fin 8, planeUp t (planeOf d f) = false)
        ∧ t.flag (pgAqt (2 * d)) AQT_STAT_OOS = true ∧ t.flag (pgAqt (2 * d + 1)) AQT_STAT_OOS = true))

/-- A correction shows in TRACK; a capture locks and starts a verification, on a transmit ring with light alone; a loss of lock takes
the pair out of ACTIVE with KEY source 0; a fault marks the ring failed and frees its place; a failed ring that is readmitted is tested
on the test's line, once its fibre can; a verification passes exactly when the strongest tone is the ring's line with the margin and the
depth asked, VERIFIED shows the last one, and another line is KEY source 1. (R237 to R240, R260 to R262, R270) Rests also on the model's own
reading or choice in log entries 37, 110, 129. -/
def Obligations.RingsAreVerified : Prop :=
  (∀ (d : StlId) (f : FibreId) (r : KeyRing) (track : BitVec 8) (s : State), s.pins.pwrGood = true → dieFitted s d = true →
      (ringFlag s d f r KEY_RING_INUSE = true → ringFlag s d f r KEY_RING_LOCKED = true →
        After (.keylineLoopUpdate d f r track false) s (fun t => t.fld (pgKey d) (rg KEY_RING_TRACK f r) = track.toNat
            ∧ SameRegs s t (WordOf (pgKey d) (rg KEY_RING_TRACK f r)) ∧ t.lanes = s.lanes)
        ∧ After (.ringLockLoss d f r) s (fun t => ringFlag t d f r KEY_RING_LOCKED = false ∧ (t.ring d f r).proven = false
            ∧ Recorded t (pgKey d) 0 ∧ t.counter (pgKey d) 2 = s.counter (pgKey d) 2 + 1
            ∧ ((s.ring d f r).testing = false → (s.lane (pairKey (planeOf d f) (lineOfRing s d f r))).st = 6 →
              (t.lane (pairKey (planeOf d f) (lineOfRing s d f r))).st ≠ 6))
        ∧ ((s.ring d f r).verifying = false →
            After (.periodicVerifyTimer d f r) s (fun t => (t.ring d f r).verifying = true ∧ SameRegs s t (WordOf (pgKey d) KEY_KSTAT_VERIFYING))))
      ∧ (ringFlag s d f r KEY_RING_INUSE = true → ringFlag s d f r KEY_RING_LOCKED = false →
        (r.val < 18 → dieLit s d = false → exec (.ringCapture d f r) s = .next s)
        ∧ (18 ≤ r.val ∨ dieLit s d = true →
          After (.ringCapture d f r) s (fun t => ringFlag t d f r KEY_RING_LOCKED = true ∧ (t.ring d f r).verifying = true)))
      ∧ (ringFlag s d f r KEY_RING_FAILED = false →
        After (.keylineLoopUpdate d f r track true) s (fun t => ringFlag t d f r KEY_RING_FAILED = true ∧ ringFlag t d f r KEY_RING_INUSE = false
            ∧ ringFlag t d f r KEY_RING_LOCKED = false ∧ ringFlag t d f r KEY_RING_SPARE = false))
      ∧ (ringFlag s d f r KEY_RING_FAILED = true →
        ((s.ring d f r).testing = true → exec (.ringReadmitWrite d f r) s = .next s)
        ∧ ((s.ring d f r).testing = false → canTest s d f r = false →
          After (.ringReadmitWrite d f r) s (fun t => t.ring d f r = { s.ring d f r with readmit := true } ∧ t.csr = s.csr ∧ t.lanes = s.lanes))
        ∧ ((s.ring d f r).testing = false → canTest s d f r = true →
          After (.ringReadmitWrite d f r) s (fun t => (t.ring d f r).testing = true ∧ ringFlag t d f r KEY_RING_INUSE = true
            ∧ ringFlag t d f r KEY_RING_LOCKED = false ∧ ringFlag t d f r KEY_RING_FAILED = true
            ∧ ringLine t d f r = testLine s d f r ∧ t.lanes = s.lanes))))
  ∧ (∀ (d : StlId) (f : FibreId) (r : KeyRing) (strongest : LineId) (margin depth : Nat) (s : State), s.pins.pwrGood = true → dieFitted s d = true →
      (s.ring d f r).verifying = true →
      let mine := strongest.val = ringLine s d f r
      let pass := mine ∧ s.fld (pgKey d) KEY_KCFG_TONE_MARGIN ≤ margin ∧ s.fld (pgKey d) KEY_KCFG_DEPTH_MIN ≤ depth
      After (.identityVerifyDone d f r strongest margin depth) s (fun t => (t.ring d f r).verifying = false
        ∧ t.counter (pgKey d) 0 = s.counter (pgKey d) 0 + 1
        ∧ t.fld (pgKey d) (rg KEY_RING_TONE_SEEN f r) = strongest
        ∧ (t.ring d f r).proven = ringFlag t d f r KEY_RING_VERIFIED
        ∧ (pass → ringFlag t d f r KEY_RING_VERIFIED = true ∧ (t.ring d f r).mismatches = 0 ∧ t.lanes = s.lanes
            ∧ t.counter (pgKey d) 1 = s.counter (pgKey d) 1)
        ∧ (¬ pass → ringFlag t d f r KEY_RING_VERIFIED = false ∧ t.counter (pgKey d) 1 = s.counter (pgKey d) 1 + 1)
        ∧ (¬ mine → Recorded t (pgKey d) 1)))

/-- TUNE, VERIFY, ALIGN, IDENT and CHECK lead a pair to ACTIVE, each under its own condition, the last two while both rings are locked
and verified and no hold is in force; a pair that its grant added and that is not ACTIVE is abandoned with STL source 8; one past
UC_LIMIT, or whose peer reports QUAR, leaves ACTIVE with STL source 1; a quarantined pair's test takes the same steps while the pair
stays in QUAR. (R238, R239, R253, R254, R256, R259, R265) Rests also on the model's
own reading or choice in log entry 111. -/
def Obligations.LanePairSteps : Prop :=
  ∀ (p : PlaneId) (k : LineId) (s : State), s.pins.pwrGood = true → planeFitted s p = true →
    let x := s.lane (pairKey p k)
    let held := s.flag (pgStl (planeDie p)) STL_HOLD_STAT_HELD
    (x.st = 1 → bothRings s p k KEY_RING_LOCKED = true → After (.laneTuneDone p k) s (fun t => t.lane (pairKey p k) = { x with st := 2 }.settled))
    ∧ (x.st = 2 → bothProven s p k = true → bothRings s p k KEY_RING_LOCKED = true →
        After (.laneVerifyDone p k) s (fun t => t.lane (pairKey p k) = { x with st := if held then 7 else 3 }.settled))
    ∧ (x.st = 3 → After (.laneAlignDone p k) s (fun t => t.lane (pairKey p k) = { x with st := 4, good := 0, bad := 0, peerIdent := false }.settled))
    ∧ (ringsProven s p k = false → exec (.laneIdentDone p k) s = .next s ∧ exec (.laneCheckDone p k) s = .next s)
    ∧ (x.st = 4 → 64 ≤ x.good → x.peerIdent = true → ringsProven s p k = true →
        After (.laneIdentDone p k) s (fun t => (t.lane (pairKey p k)).st = if x.resume then 6 else 5))
    ∧ (x.st = 5 → ringsProven s p k = true → 256 ≤ x.chkFrames → x.chkSym ≤ 4 * x.chkFrames * s.fld (pgStl (planeDie p)) STL_LANE_CFG_CHECK_SYM →
        After (.laneCheckDone p k) s (fun t => (t.lane (pairKey p k)).st = 6
          ∧ t.counter (pgStl (planeDie p)) 6 = s.counter (pgStl (planeDie p)) 6 + (if x.peerSt = 6 then 1 else 0)))
    ∧ (x.added = true → x.st ≠ 6 → x.st ≠ 0 →
        After (.laneAbandon p k) s (fun t => (t.lane (pairKey p k)).st = 0 ∧ (t.lane (pairKey p k)).added = false ∧ Recorded t (pgStl (planeDie p)) 8))
    ∧ (x.st = 6 → x.peerSt = 8 ∨ s.fld (pgStl (planeDie p)) STL_LANE_CFG_UC_LIMIT < x.msUncorr →
        After (.laneDegradeRemove p k) s (fun t => ((t.lane (pairKey p k)).st = 8 ∨ (t.lane (pairKey p k)).st = 0)
          ∧ Recorded t (pgStl (planeDie p)) 1))
    ∧ (x.st = 8 →
        (x.test = 1 → bothRings s p k KEY_RING_LOCKED = true →
          After (.laneTuneDone p k) s (fun t => t.lane (pairKey p k) = { x with test := 2 }.settled))
        ∧ (x.test = 2 → bothProven s p k = true → bothRings s p k KEY_RING_LOCKED = true → held = false →
          After (.laneVerifyDone p k) s (fun t => t.lane (pairKey p k) = { x with test := 3 }.settled))
        ∧ (x.test = 3 → After (.laneAlignDone p k) s (fun t => t.lane (pairKey p k) = { x with test := 4, good := 0, bad := 0, peerIdent := false }.settled))
        ∧ (x.test = 4 → 64 ≤ x.good → x.peerIdent = true → x.resume = false → ringsProven s p k = true →
          After (.laneIdentDone p k) s (fun t => (t.lane (pairKey p k)).test = 5 ∧ (t.lane (pairKey p k)).st = 8))
        ∧ (x.test = 5 → ringsProven s p k = true → 256 ≤ x.chkFrames →
          x.chkSym ≤ 4 * x.chkFrames * s.fld (pgStl (planeDie p)) STL_LANE_CFG_CHECK_SYM →
          After (.laneCheckDone p k) s (fun t => (t.lane (pairKey p k)).test = 6 ∧ (t.lane (pairKey p k)).st = 8)))

/-- On a pair past ALIGN, a frame whose errors the FEC cannot correct is STL source 0, shows in FR_UNCORR at the next sample, with what the
FEC corrected in its other codewords, counts neither way and delivers no unit; a frame whose head passes counts as good, resets the bad
count and brings the peer's state, unless it is the latched peer of an outer plane that is fenced, whose pair goes DOWN; and one whose head
fails counts as bad and delivers no unit. A stamped frame then goes on to the exchange of fabric time. (R254, R255, R257, R258, R259, R268,
R384, R401) That a fenced latched peer's pair goes down with its next good frame is the model's reading (log entry 94, on R384 of chapter
11); the order of the FEC's symbols is that of log entry 97. -/
def Obligations.FramesAreJudged : Prop :=
  ∀ (p : PlaneId) (k : LineId) (fr : Frame) (s : State), s.pins.pwrGood = true → planeFitted s p = true →
    let key := pairKey p (mirror p k)
    let x := s.lane key
    let h := parseHead (frameInfo fr)
    let lost := (fecOf fr.errs).uncorr
    let latched := s.flag (pgStl (planeDie p)) (opeer STL_OPEER_VALID (p - 48))
    3 ≤ x.st → x.st ≤ 7 →
    NoInjection s (pgStl (planeDie p)) →
    ∃ t, exec (.frameReceive p k fr) s = .next (if lost = false ∧ headOk s p k h = true ∧ stamped s h.fseq = true then takeSync t key else t)
      ∧ (lost = true → Recorded t (pgStl (planeDie p)) 0 ∧ (t.lane key).good = x.good ∧ (t.lane key).bad = x.bad
          ∧ t.net.unitq = s.net.unitq ∧ (t.lane key).st = x.st
          ∧ ∀ (g : FibreId) (i : Fin 5), linkCount (t.die (planeDie p)) g i = linkCount (s.die (planeDie p)) g i
              + (if g.val ≠ planeFibre p then 0 else if i = 3 then 1 else if i = 1 then (fecOf fr.errs).cwCorr
                 else if i = 2 then (fecOf fr.errs).symCorr else 0))
      ∧ (lost = false → headOk s p k h = true → 48 ≤ p.val → latched = true → outerFenced s (p - 48) = true → (t.lane key).st = 0)
      ∧ (lost = false → headOk s p k h = true → (p.val < 48 ∨ (latched = true ∧ outerFenced s (p - 48) = false)) →
          (t.lane key).good = x.good + 1 ∧ (t.lane key).bad = 0
          ∧ (t.lane key).peerIdent = h.identOk ∧ (t.lane key).peerSt = h.lstate ∧ (t.lane key).st = x.st)
      ∧ (lost = false → headOk s p k h = false → x.st ≠ 6 ∨ x.bad = 0 →
          (t.lane key).good = 0 ∧ (t.lane key).bad = x.bad + 1 ∧ (t.lane key).st = x.st ∧ t.net.unitq = s.net.unitq)

/-- A hold holds the die, its active pairs and its engines with STL source 9; its release starts the verification of every ring in use,
which VERIFYING shows; a monitor sample shows the powers, the light of the inputs and takes a dark fibre's plane down; a fibre's link
sample adds what its links have counted; a peer latch clears, and its circuit with it, which this device's bit of its sheet's SRT word shows. (R255, R263, R265, R266, R268, R170, R389, R390) That one monitor
sample below RX_LOS_THR takes a plane down (R263 names 1 microsecond at the fast detector), and that the link counts are taken fibre by
fibre, is the model's choice (log entries 4, 90, 114). -/
def Obligations.HoldsAndMonitors : Prop :=
  (∀ (d : StlId) (s : State), s.pins.pwrGood = true → dieFitted s d = true →
      (holdOrdered s d = true → s.flag (pgStl d) STL_HOLD_STAT_HELD = false →
        After (.transmitHoldOrder d) s (fun t => t.flag (pgStl d) STL_HOLD_STAT_HELD = true ∧ t.flag (pgStl d) STL_HOLD_STAT_VERIFYING = false
          ∧ Recorded t (pgStl d) 9 ∧ (t.aqt (2 * d)).heldHold = true ∧ (t.aqt (2 * d + 1)).heldHold = true
          ∧ t.flag (pgAqt (2 * d)) AQT_STAT_HELD = true ∧ t.flag (pgAqt (2 * d + 1)) AQT_STAT_HELD = true
          ∧ ∀ (f : Fin 8) (k : LineId), (s.lane (pairKey (planeOf d f) k)).st = 6 → (t.lane (pairKey (planeOf d f) k)).st = 7))
      ∧ (holdOrdered s d = false → s.flag (pgStl d) STL_HOLD_STAT_HELD = true →
        After (.transmitHoldRelease d) s (fun t => t.flag (pgStl d) STL_HOLD_STAT_HELD = false
          ∧ ((∃ (f : Fin 8) (r : KeyRing), ringFlag s d f r KEY_RING_INUSE = true) →
              t.flag (pgStl d) STL_HOLD_STAT_VERIFYING = true ∧ (t.die d).releasing = true)
          ∧ (verifyCount s d = 0 → (∀ (f : Fin 8) (r : KeyRing), ringFlag s d f r KEY_RING_INUSE = false) →
              t.flag (pgStl d) STL_HOLD_STAT_VERIFYING = false ∧ (t.die d).releasing = false)
          ∧ (t.aqt (2 * d)).heldHold = false ∧ (t.aqt (2 * d + 1)).heldHold = false
          ∧ ∀ (f : Fin 8) (r : KeyRing), ringFlag s d f r KEY_RING_INUSE = true → (t.ring d f r).proven = false ∧ (t.ring d f r).verifying = true)))
  ∧ (∀ (d : StlId) (j : Fin 2) (p : PlaneId) (inA inB : BitVec 16) (fo fi : List (BitVec 16)) (s : State),
      s.pins.pwrGood = true → dieFitted s d = true → planeFitted s p = true →
      After (.opticalPowerSample d inA inB fo fi) s (fun t => t.fld (pgStl d) STL_PWR_IN_A = inA.toNat ∧ t.fld (pgStl d) STL_PWR_IN_B = inB.toNat
          ∧ t.flag (pgStl d) STL_LSTAT_A_LIGHT = atLeast inA (s.fld (pgStl d) STL_LOS_THR_THR)
          ∧ t.flag (pgStl d) STL_LSTAT_B_LIGHT = atLeast inB (s.fld (pgStl d) STL_LOS_THR_THR)
          ∧ ∀ f : Fin 8, t.fld (pgStl d) (fib STL_PWR_FIB_OUT f) = (fo.getD f 0).toNat ∧ t.fld (pgStl d) (fib STL_PWR_FIB_IN f) = (fi.getD f 0).toNat
              ∧ (atLeast (fi.getD f 0) (s.fld (pgStl d) STL_RX_LOS_THR_THR) = false → planeUp t (planeOf d f) = false))
      ∧ (∀ f : FibreId, After (.linkCounterSample d f) s (fun t => t.csr = s.csr ∧ t.lanes = s.lanes
          ∧ (∀ (g : FibreId) (i : Fin 5), linkCount (t.die d) g i = if g = f then 0 else linkCount (s.die d) g i)
          ∧ ∀ i : Fin 5, t.counter (pgStl d) i = s.counter (pgStl d) i + BitVec.ofNat 64 (linkCount (s.die d) f i)))
      ∧ After (.planeRxLos p) s (fun t => planeUp t p = false ∧ planeFld t p STL_PLANE_STAT_RX_LOS = 1)
      ∧ (let sheet := s.fld (pgStl d) (opeer STL_OPEER_DEV j) / 32
        After (.opeerValidClear d j) s (fun t => t.flag (pgStl d) (opeer STL_OPEER_VALID j) = false
          ∧ SameRegs s t (fun q o => WordOf (pgStl d) (opeer STL_OPEER_VALID j) q o ∨ regKey q o = regKey pgFab (0x800 + 4 * sheet))
          ∧ (s.flag (pgStl d) (opeer STL_OPEER_VALID j) = true → t.mbr.circDue = true
              ∧ t.reg pgFab (0x800 + 4 * sheet) = putBit (s.reg pgFab (0x800 + 4 * sheet)) s.ownIdx !(outerTo t sheet).isEmpty))))

/-- A report of the present epoch is kept; a grant is accepted exactly when it comes from the leader for the next epoch, is well formed
and fits, and is otherwise rejected with STL source 7; pairs that a grant removes, or that are not of the plan when the allocator is
being turned off, take no new packet; a boundary that fabric time has not reached changes nothing, and the next one moves the controls,
the reports and the grant on. (R243, R246, R249 to R252, R267) Rests also on the model's own reading or choice in log entries 38,
40. -/
def Obligations.AllocationMoments : Prop :=
  ∀ (s : State), s.pins.pwrGood = true →
    After .reportWaitExpiry s (fun t => Quiet s t ∧ t.csr = s.csr ∧ t.alloc = { s.alloc with waited := true })
    ∧ (∀ p rest, FirstIn (isAllocMsg 1) s.net.mgmt p rest → ¬ (s.alloc.waited = true ∧ s.alloc.planned = false ∧ allocCtl s STL_ALLOC_CTRL_EN ≠ 0) →
        isLeader s = true → p.src / 32 = s.ownDev / 32 → p.payload.length = 384 → leAt p.payload 1 1 = 1 → leAt p.payload 2 2 = p.src →
        leAt p.payload 4 4 = curEpoch s →
        After .allocReportReceive s (fun t => Quiet s t ∧ t.csr = s.csr ∧ t.net.mgmt = rest
          ∧ smFind t.alloc.reports (p.src % 32) = some (parseReport p.payload)))
    ∧ (∀ p rest, FirstIn (isAllocMsg 2) s.net.mgmt p rest →
        let ok := leaderOf s = some (p.src % 32) ∧ p.src / 32 = s.ownDev / 32 ∧ leAt p.payload 4 4 = (curEpoch s + 1) % 2 ^ 32
        After .grantReceive s (fun t => Quiet s t ∧ t.net.mgmt = rest
          ∧ (∀ l, ok → parseGrant s p.payload = some l → grantFits s l = true →
              t.alloc.grant = some (leAt p.payload 4 4, l) ∧ t.flag pgAlloc STL_ALLOC_STAT_GRANT_OK = true
                ∧ SameRegs s t (WordOf pgAlloc STL_ALLOC_STAT_GRANT_OK))
          ∧ ((¬ ok ∨ parseGrant s p.payload = none ∨ ∃ l, parseGrant s p.payload = some l ∧ grantFits s l = false) →
              t.alloc = s.alloc ∧ t.flag pgAlloc STL_ALLOC_STAT_GRANT_REJ = true ∧ Recorded t pgAlloc 7)))
    ∧ (isLeader s = true → s.alloc.waited = true → s.alloc.planned = false → allocCtl s STL_ALLOC_CTRL_EN ≠ 0 → s.inFault = false →
        After .allocPlan s (fun t => Quiet s t ∧ t.alloc.planned = true ∧ t.lanes = s.lanes))
    ∧ (∀ e l, s.alloc.grant = some (e, l) →
        After .grantPrepare s (fun t => Quiet s t ∧ t.csr = s.csr ∧ t.alloc = s.alloc
          ∧ (∀ key, (t.lane key).st = (s.lane key).st)
          ∧ ∀ x ∈ l, x.2.2 = false → (s.lane (pairKey x.1 ((32 + x.2.1 - s.ownIdx) % 32))).kept = true →
              (t.lane (pairKey x.1 ((32 + x.2.1 - s.ownIdx) % 32))).leaving = true))
    ∧ (planReturns s = true →
        After .grantPrepare s (fun t => Quiet s t ∧ t.csr = s.csr ∧ t.alloc = s.alloc
          ∧ ∀ p k, p < 48 → k < 32 → (s.lane (pairKey p k)).kept = true → k ∉ planLines p → (t.lane (pairKey p k)).leaving = true))
    ∧ (∀ tests : EpochTests,
        let ctl := s.reg pgAlloc 0x300
        let num := (s.alloc.num + 1) * epochLen s.alloc.ctl / epochLen ctl
        (timeNs s / epochLen s.alloc.ctl ≤ s.alloc.num → exec (.epochBoundary tests) s = .next s)
        ∧ (s.alloc.num < timeNs s / epochLen s.alloc.ctl →
          After (.epochBoundary tests) s (fun t => Quiet s t ∧ t.alloc.ctl = ctl ∧ t.alloc.num = num ∧ t.alloc.waited = false
            ∧ t.alloc.planned = false ∧ t.alloc.prev = s.alloc.reports
            ∧ ∀ e l, s.alloc.grant = some (e, l) → t.alloc.grant = if e = num % 2 ^ 32 then none else some (e, l))))

/-! ### Fabric transport -/

/-- A unit's bytes join the shortest transmit queue of its link when credit and the LSEQ window allow, and the unit is kept until
acknowledged; one unacknowledged goes again with RETX; a new unit that the buffers have room for takes credit, and its packet waits
when its CRC is right and is FAB source 0 when not; one without room is FAB source 6; filler changes nothing; a forwarded packet goes
on, or is discarded for want of a lane, for its fenced destination or for age, and none goes on in the fault state; a link reset clears
the link and hands a packet in transit back to routing. (R274, R276 to R279, R281, R284 to R286, R291, R299, R433) Rests also on the model's own reading or choice in log
entry 29. -/
def Obligations.LinksCarryUnits : Prop :=
  (∀ (l : LinkId) (p : PlaneId) (k : LineId) (s : State), s.pins.pwrGood = true →
      (∀ vc pkt rest, laneTakes s l (pairKey p k) = true →
        (s.link l).queue = (vc, pkt) :: rest → creditsOf (unitsNeeded pkt) ≤ (s.link l).room vc →
        ((s.link l).lseq + 2 ^ 16 - (((s.link l).unacked.map (·.lseq)).head?.getD (s.link l).lseq)) % 2 ^ 16 < 4096 →
        After (.linkUnitSend l p k) s (fun t => Quiet s t ∧ t.csr = s.csr ∧ t.out = s.out
          ∧ (t.lane (pairKey p k)).txq = (s.lane (pairKey p k)).txq ++ unitBytes (s.link l).lseq vc false pkt
          ∧ (t.link l).queue = rest ∧ (t.link l).lseq = ((s.link l).lseq + 1) % 2 ^ 16
          ∧ (t.link l).unacked = (s.link l).unacked ++ [⟨(s.link l).lseq, vc, unitsNeeded pkt, pkt, pairKey p k, false⟩]
          ∧ (t.link l).used = addAt (s.link l).used vc (creditsOf (unitsNeeded pkt))))
      ∧ (∀ lseq u key, (s.link l).unacked.find? (fun u => u.lseq == lseq) = some u → activePair s l = some key →
        After (.linkRetransmit l lseq) s (fun t => Quiet s t ∧ t.csr = s.csr
          ∧ t.out = s.out ∧ (t.lane key).txq = (s.lane key).txq ++ unitBytes lseq u.vc true u.packet
          ∧ (t.link l).unacked.map (·.lseq) = (s.link l).unacked.map (·.lseq)
          ∧ t.counter pgFab 2 = s.counter pgFab 2 + 1))
      ∧ (linkUp s l = false → s.link l ≠ LinkSt.init → (∀ u ∈ (s.link l).unacked, kindClass u.packet.kind ≠ .forwarded) →
          (∀ e ∈ (s.link l).queue, kindClass e.2.kind ≠ .forwarded) →
        After (.linkReset l) s (fun t => Quiet s t ∧ t.link l = LinkSt.init ∧ Recorded t pgFab 8 ∧ t.out = s.out))
      ∧ (∀ vc pkt, linkUp s l = false → (s.link l).unacked = [] → (s.link l).queue = [(vc, pkt)] → kindClass pkt.kind = .forwarded →
          pkt.kind ≠ 0x25 → pkt.kind ≠ 0x26 → s.isOwn pkt.src = false → s.inFault = false →
        After (.linkReset l) s (fun t => Quiet s t ∧ t.link l = LinkSt.init ∧ Recorded t pgFab 8
          ∧ ∃ pre, t.net.fwd = pre ++ [⟨0, 2, 0, pkt⟩])))
  ∧ (∀ (l : Nat) (u : LinkUnit) (rest : List (Nat × LinkUnit)) (s : State), s.pins.pwrGood = true → s.net.unitq = (l, u) :: rest →
      (u.vc = 7 → exec .linkUnitReceive s = .next { s with net := { s.net with unitq := rest } })
      ∧ (∀ p, u.vc < 6 → (u.lseq + 2 ^ 16 - (s.link l).ackNext) % 2 ^ 16 ≤ 4095 → u.lseq ∉ (s.link l).ackMap →
          rxRoom s l u.vc (creditsOf u.units) = true →
          NoInjection s pgFab → parsePacket u.body = some p → kindClass p.kind ≠ .reserved → kindClass p.kind ≠ .mgmt →
          s.isOwn p.dst = true → s.fenced p.src = false → s.inFault = false →
          After .linkUnitReceive s (fun t => Quiet s t ∧ t.csr = s.csr ∧ t.net.unitq = rest
            ∧ t.net.rxq = s.net.rxq ++ [⟨l, u.vc, u.units, p⟩]
            ∧ (t.link l).taken = addAt (s.link l).taken u.vc (creditsOf u.units)))
      ∧ (u.vc < 6 → (u.lseq + 2 ^ 16 - (s.link l).ackNext) % 2 ^ 16 ≤ 4095 → u.lseq ∉ (s.link l).ackMap →
          rxRoom s l u.vc (creditsOf u.units) = true → parsePacket u.body = none →
          After .linkUnitReceive s (fun t => Quiet s t ∧ t.net.unitq = rest ∧ t.net.rxq = s.net.rxq ∧ Recorded t pgFab 0
            ∧ t.counter pgFab 5 = s.counter pgFab 5 + 1))
      ∧ (u.vc < 6 → (u.lseq + 2 ^ 16 - (s.link l).ackNext) % 2 ^ 16 ≤ 4095 → u.lseq ∉ (s.link l).ackMap →
          rxRoom s l u.vc (creditsOf u.units) = false →
          After .linkUnitReceive s (fun t => Quiet s t ∧ t.net.unitq = rest ∧ t.net.rxq = s.net.rxq ∧ Recorded t pgFab 6)))
  ∧ (∀ (r : RxPkt) (rest : List RxPkt) (s : State), s.pins.pwrGood = true → s.inFault = false → s.net.fwd = r :: rest →
      (∀ l vc, forwardHop s r = .go l vc →
        After .forwardPacket s (fun t => Quiet s t ∧ t.csr = s.csr ∧ t.net.fwd = rest ∧ (t.link l).queue = (s.link l).queue ++ [(vc, r.pkt)]))
      ∧ (forwardHop s r = .noLane → After .forwardPacket s (fun t => Quiet s t ∧ t.net.fwd = rest ∧ Recorded t pgFab 3))
      ∧ (forwardHop s r = .fenced →
        After .forwardPacket s (fun t => Quiet s t ∧ t.csr = s.csr ∧ t.net.fwd = rest ∧ t.counter pgFab 6 = s.counter pgFab 6 + 1))
      ∧ After .transitMaxExpiry s (fun t => Quiet s t ∧ t.net.fwd = rest ∧ Recorded t pgFab 5))
  ∧ (∀ s : State, s.inFault = true → exec .forwardPacket s = .next s)

/-- The next packet takes the next ESEQ and is kept, while the ESEQs not acknowledged, those of failed packets among them, lie within
256; a flagged one leaves when free; one unacknowledged goes again, with FAB source 1 when it has a route, up to the RETRY_MAX it was sent
under, and then fails; an ACK due is sent, or stays due without a route, and an ACK received settles exactly what it covers. (R289, R293,
R294, R296, R297) -/
def Obligations.SourcesSequence : Prop :=
  ∀ (d : DevNum) (s : State), s.pins.pwrGood = true → s.inFault = false →
    (∀ w rest, (s.txDst d).wait = w :: rest → limitOk s (s.txDst d) w = true → (s.txDst d).held = [] → (s.txDst d).out = [] →
        (∀ n ∈ (s.txDst d).failed, ((s.txDst d).next + 2 ^ 32 - n) % 2 ^ 32 < 256) → w.pkt.flagged = false →
      After (.sequencedPacketSend d) s (fun t => SameFlags s t ∧ (t.txDst d).wait = rest ∧ (t.txDst d).next = ((s.txDst d).next + 1) % 2 ^ 32
        ∧ ∃ q, (t.txDst d).out = [q] ∧ q.seq = (s.txDst d).next ∧ q.tx.pkt.seq = (s.txDst d).next ∧ q.tx.pkt.src = s.ownDev
            ∧ q.tx.pkt.kind = w.pkt.kind ∧ q.tx.pkt.addr = w.pkt.addr ∧ (w.again = true → q.tx.again = false → Recorded t pgMem 1)))
    ∧ (∀ n, (s.txDst d).held = [] → (s.txDst d).out = [] → (s.txDst d).failed = [n] → 256 ≤ ((s.txDst d).next + 2 ^ 32 - n) % 2 ^ 32 →
      exec (.sequencedPacketSend d) s = .next s)
    ∧ (∀ q rest, (s.txDst d).held = q :: rest → flaggedFree s { s.txDst d with held := rest } q = true →
      After (.flaggedPacketRelease false d) s (fun t => SameFlags s t ∧ (t.txDst d).held = rest ∧ ∃ x ∈ (t.txDst d).out, x.seq = q.seq))
    ∧ (∀ seq q, (s.txDst d).out.find? (fun q => q.seq == seq) = some q →
      (q.tx.tries < q.tx.limit →
        let y := loadPayload s { q.tx with tries := q.tx.tries + 1, pkt := { q.tx.pkt with e2eRetx := true } } false
        After (.e2eRetransmit false d seq) s (fun t => SameFlags s t
          ∧ (route y.2 y.1.pkt.kind y.1.pkt.dst y.1.pkt.seq y.1.tries ≠ none → Recorded t pgFab 1)
          ∧ (t.txDst d).out.map (·.seq) = (s.txDst d).out.map (·.seq)
          ∧ ∃ x ∈ (t.txDst d).out, x.seq = seq ∧ x.tx.tries = q.tx.tries + 1 ∧ x.tx.pkt.e2eRetx = true))
      ∧ (q.tx.limit ≤ q.tx.tries →
        After (.e2eRetransmit false d seq) s (fun t => Quiet s t ∧ (t.txDst d).out = (s.txDst d).out.filter (fun r => r.seq != seq)
          ∧ (t.txDst d).failed = (s.txDst d).failed ++ [seq])))
    ∧ (∀ l vc, (s.rxSrc d).ackDue = true → s.fenced d = false → route s 0x24 d 0 0 = some (l, vc) →
      After (.ackSend d) s (fun t => Quiet s t ∧ t.csr = s.csr ∧ t.rxSrc d = { s.rxSrc d with ackDue := false }
        ∧ (t.link l).queue = (s.link l).queue ++ [(vc, ackPacket s d)]))
    ∧ (route s 0x24 d 0 0 = none → exec (.ackSend d) s = .next s)
    ∧ (∀ r rest, Arrives s 0x24 r rest →
      After .ackReceive s (fun t => Quiet s t ∧ t.csr = s.csr ∧ t.net.rxq = rest
        ∧ (t.txDst r.pkt.src).out = (s.txDst r.pkt.src).out.filter (fun q => !ackCovers r.pkt q.seq)
        ∧ (t.txDst r.pkt.src).failed = (s.txDst r.pkt.src).failed.filter (fun n => !ackCovers r.pkt n)))

/-- A sequenced packet of each of the nine kinds whose ESEQ lies below CUM or whose MAP bit is set changes neither memory, flags nor
registers, counts in DUP_DROP and leaves an acknowledgement due. (R295) -/
def Obligations.DuplicatesAreDropped : Prop :=
  ∀ (s : State) (r : RxPkt) (rest : List RxPkt), s.pins.pwrGood = true →
    (2 ^ 31 ≤ (r.pkt.seq + 2 ^ 32 - (s.rxSrc r.pkt.src).cum) % 2 ^ 32 ∨ r.pkt.seq ∈ (s.rxSrc r.pkt.src).map) →
    (∀ x ∈ ([(.storeReceive, 0x01), (.csrWrPacketReceive, 0x05), (.putReceive, 0x20), (.pullReceive, 0x21), (.sigReceive, 0x22),
        (.trigReceive, 0x23)] : List (Instr × Nat)),
      FirstIn (fun q => q.pkt.kind == x.2) s.net.rxq r rest →
      After x.1 s (fun t => Quiet s t ∧ t.csr = s.csr ∧ t.net.rxq = rest ∧ t.rxSrc r.pkt.src = { s.rxSrc r.pkt.src with ackDue := true }
        ∧ t.counter pgFab 4 = s.counter pgFab 4 + 1 ∧ t.cmds = s.cmds ∧ t.net.pullq = s.net.pullq))
    ∧ (∀ x ∈ ([(.loadReceive, 2, fun p => p.aux % 512), (.atomicReceive, 3, fun _ => 8), (.csrRdPacketReceive, 4, fun _ => 4)] :
        List (Instr × Nat × (Packet → Nat))),
      FirstIn (fun q => q.pkt.kind == x.2.1 && rspRoom s q.pkt.src (x.2.2 q.pkt)) s.net.rxq r rest →
      After x.1 s (fun t => Quiet s t ∧ t.csr = s.csr ∧ t.net.rxq = rest ∧ t.rxSrc r.pkt.src = { s.rxSrc r.pkt.src with ackDue := true }
        ∧ t.counter pgFab 4 = s.counter pgFab 4 + 1))

/-- STORE and PUT write their payload: to a plate at once, to a core's SRAM through its tracker, where the 65th write waits with its
bytes; or they are MEM source 0 and count where no memory is. SIG increments or sets its flag; TRIG is a doorbell; PULL takes its slot;
a failed PUT of a pull fails its command. Each is committed and its acknowledgement is due, once no write of it is in flight, and a
copy of it that comes before that is discarded. (R49, R283, R294, R315, R317, R327 to R329) Rests also on the model's own reading or
choice in log entry 36. -/
def Obligations.PacketsAreCommitted : Prop :=
  (∀ (s : State) (r : RxPkt) (rest : List RxPkt), r.pkt.seq ∈ (s.rxSrc r.pkt.src).pend →
    ∀ x ∈ ([(.storeReceive, 0x01), (.putReceive, 0x20)] : List (Instr × Nat)), Arrives s x.2 r rest →
      After x.1 s (fun t => Quiet s t ∧ t.csr = s.csr ∧ t.net.rxq = rest ∧ t.cores = s.cores ∧ (t.rxSrc r.pkt.src).ackDue = true))
  ∧ ∀ (s : State) (r : RxPkt) (rest : List RxPkt), isDup s r.pkt = false →
    let u := consumed s r rest
    let p := r.pkt
    let a : Ack := .seq p.src p.seq none none
    let off := faOff p.addr
    let c := sramCore off
    let done (t : State) : Prop := t.net.rxq = rest
      ∧ if ackWaits t a then p.seq ∈ (t.rxSrc p.src).pend else (t.rxSrc p.src).ackDue = true
    (∀ x ∈ ([(.storeReceive, 0x01), (.putReceive, 0x20)] : List (Instr × Nat)), Arrives s x.2 r rest →
        (x.2 = 0x01 → faSpace p.addr ≠ 2) → (x.2 = 0x20 → p.aux.testBit 16 = false) →
      After x.1 s (fun t => SameFlags s t ∧ done t
        ∧ (faSpace p.addr = 0 → rangeExists s.fuses off p.payload.length = true → p.payload ≠ [] → off % 0x100000 + p.payload.length ≤ 0x100000 →
            (isSram off = false ∨ (s.core c).inbound.length < 64 → t.mem = (writeRange u off p.payload p.poison).mem)
            ∧ (isSram off = true → (s.core c).inbound.length < 64 → ∃ w, (t.core c).inbound = (s.core c).inbound ++ [w] ∧ w.ack = some a ∧ w.parts = [])
            ∧ (isSram off = true → 64 ≤ (s.core c).inbound.length → t.mem = s.mem
                ∧ ∃ w, (t.core c).inbound = (s.core c).inbound ++ [w] ∧ w.ack = some a ∧ w.parts = [(off, p.payload)]))
        ∧ (faSpace p.addr ≠ 0 ∨ rangeExists s.fuses off p.payload.length = false → t.mem = s.mem ∧ Recorded t pgMem 0
            ∧ t.counter pgMem 4 = s.counter pgMem 4 + 1)))
    ∧ (∀ x, Arrives s 0x20 r rest → p.aux.testBit 16 = true → pullFrom s (p.aux % 65536) p.src = some x → smHas s.cmds x.cmd = true →
        natBits p.aux 31 24 ≠ 0 → (s.cmd x.cmd).status = 0 →
      After .putReceive s (fun t => SameFlags s t ∧ t.net.rxq = rest ∧ (t.cmd x.cmd).status = natBits p.aux 31 24
        ∧ (t.cmd x.cmd).src = some (pgXdm (s.cmd x.cmd).inst, 1)))
    ∧ (Arrives s 0x01 r rest → faSpace p.addr = 2 →
      After .storeReceive s (fun t => SameMemory s t ∧ done t ∧ t.flags = (storeFlags u (faOff p.addr) p.payload).flags))
    ∧ (Arrives s 0x21 r rest →
      After .pullReceive s (fun t => Quiet s t ∧ t.csr = s.csr ∧ done t
        ∧ t.net.pullq = s.net.pullq.filter (fun y => y.src != p.src || y.slot != p.aux % 4)
            ++ [⟨p.src, p.aux % 4, leAt p.payload 12 2, p.addr, leAt p.payload 0 8, leAt p.payload 8 4⟩]))
    ∧ (Arrives s 0x22 r rest →
      After .sigReceive s (fun t => SameMemory s t ∧ done t
        ∧ (∀ c f, faSpace p.addr = 2 → flagOfOffset off = some (c, f) → localOnly s c f = false →
            t.flags = (outsideSignal u c ⟨f, natBits p.aux 17 16 == 1, p.aux % 65536, p.poison⟩).flags)
        ∧ (∀ c f, faSpace p.addr = 2 → flagOfOffset off = some (c, f) → localOnly s c f = true → SameFlags s t ∧ Recorded t (pgGrv c) 6)
        ∧ (faSpace p.addr ≠ 2 ∨ flagOfOffset off = none → SameFlags s t ∧ Recorded t pgMem 0)))
    ∧ (Arrives s 0x23 r rest →
      After .trigReceive s (fun t => Quiet s t ∧ done t
        ∧ (∀ c q, faSpace p.addr = 1 → qtailOf off = some (c, q) → t.csr = (ringDoorbell u c q (p.aux % 65536)).csr)
        ∧ (faSpace p.addr ≠ 1 ∨ qtailOf off = none → Recorded t pgMem 0)))

/-- LOAD and CSR_RD are performed, committed and answered on virtual channel 1 of the link to their source; an ATOMIC likewise, its write,
at once to a plate and tracked in a core's SRAM, committed before; with a full tracker it waits; one to bytes, or a register, that do not
exist is answered ADDR_FAULT, poisoned. (R48, R49, R287, R315, R318 to R320, R323) That a LOAD of flags comes after the increments that
reached their store before it is the model's reading of R137 (chapter 04, log entry 17). -/
def Obligations.RequestsAreAnswered : Prop :=
  ∀ (s : State) (r : RxPkt) (rest : List RxPkt), s.pins.pwrGood = true → isDup s r.pkt = false → s.flag pgMbr MBR_DEVNUM_VALID = true →
    r.pkt.src / 32 = s.ownDev / 32 →
    (∀ x ∈ ([(.loadReceive, 2, fun p => p.aux % 512, loadPerform), (.csrRdPacketReceive, 4, fun _ => 4, csrRdPerform)] : List (Instr × Nat × (Packet → Nat) × (State → Packet → Packet × State))),
      FirstIn (fun q => q.pkt.kind == x.2.1 && rspRoom s q.pkt.src (x.2.2.1 q.pkt)) s.net.rxq r rest →
      let y := x.2.2.2 (consumed s r rest) r.pkt
      After x.1 s (fun t => t.net.rxq = rest ∧ (t.rxSrc r.pkt.src).ackDue = true ∧ t.mem = y.2.mem
        ∧ t.flags = y.2.flags ∧ t.fpois = y.2.fpois ∧ (x.2.1 ≠ 2 ∨ faSpace r.pkt.addr ≠ 2 → SameFlags s t)
        ∧ (t.link (r.pkt.src % 32)).queue = (s.link (r.pkt.src % 32)).queue ++ [(1, y.1)]))
    ∧ (FirstIn (fun q => q.pkt.kind == 3 && rspRoom s q.pkt.src 8 && atomicRoom s q.pkt) s.net.rxq r rest →
      let y := atomicPerform (consumed s r rest) r.pkt
      let off := faOff r.pkt.addr
      let a : Ack := .seq r.pkt.src r.pkt.seq none (some y.1)
      After .atomicReceive s (fun t => SameFlags s t ∧ t.net.rxq = rest
        ∧ (ackWaits t a = true → r.pkt.seq ∈ (t.rxSrc r.pkt.src).pend ∧ (t.link (r.pkt.src % 32)).queue = (s.link (r.pkt.src % 32)).queue)
        ∧ (ackWaits t a = false → (t.rxSrc r.pkt.src).ackDue = true
            ∧ (t.link (r.pkt.src % 32)).queue = (s.link (r.pkt.src % 32)).queue ++ [(1, y.1)])
        ∧ (y.2.1 = none → t.mem = y.2.2.mem)
        ∧ ∀ bs, y.2.1 = some bs → off % 0x100000 + bs.length ≤ 0x100000 → t.mem = (writeRange y.2.2 off bs r.pkt.poison).mem
            ∧ (isSram off = true → ∃ w, (t.core (sramCore off)).inbound = (s.core (sramCore off)).inbound ++ [w] ∧ w.ack = some a ∧ w.parts = [])))
    ∧ ((∀ q ∈ s.net.rxq, q.pkt.kind = 3 → atomicRoom s q.pkt = false) → exec .atomicReceive s = .next s)
    ∧ (faSpace r.pkt.addr = 1 ∨ faSpace r.pkt.addr = 3 ∨ (faSpace r.pkt.addr = 0 ∧ rangeExists s.fuses (faOff r.pkt.addr) (r.pkt.aux % 512) = false) →
        let a := (loadPerform s r.pkt).1
        a.aux = 3 ∧ a.poison = true ∧ a.payload = List.replicate (r.pkt.aux % 512) 0 ∧ a.rtag = r.pkt.rtag ∧ a.dst = r.pkt.src)
    ∧ (faSpace r.pkt.addr ≠ 0 ∨ rangeExists s.fuses (faOff r.pkt.addr) (if r.pkt.aux.testBit 4 then 8 else 4) = false →
        let a := (atomicPerform s r.pkt).1
        a.aux = 3 ∧ a.poison = true ∧ a.rtag = r.pkt.rtag ∧ a.dst = r.pkt.src ∧ (atomicPerform s r.pkt).2 = (none, s))
    ∧ (faSpace r.pkt.addr ≠ 1 →
        let a := (csrRdPerform s r.pkt).1
        a.aux = 3 ∧ a.poison = true ∧ a.rtag = r.pkt.rtag ∧ a.dst = r.pkt.src)

/-- A response that answers an open request frees its slot and is one request less for its command, which takes a failing status; one
without an open request is discarded with MEM source 3. A request that has left, or an acknowledged pull, that REQ_TMO ends is sent
again until the RETRY_MAX it was sent under, and then ends with TIMEOUT, MEM source 2: a LOAD, CSR_RD or PULL waits anew for its
destination, marked to be counted and recorded as it leaves, an ATOMIC with a route leaves at once with MEM source 1, and one without waits,
and fails after as many timeouts with FAB source 2; a pull served, fewer than 16
being worked on, puts out PUTs of its whole length to its source. (R289, R297, R321 to R323, R327, R328,
R334, R335) Rests also on the model's own reading or choice in log entry 35. -/
def Obligations.ResponsesAndTimeouts : Prop :=
  (∀ (s : State) (r : RxPkt) (rest : List RxPkt),
      let c := (rtagSlot r.pkt.rtag).1
      let k := (rtagSlot r.pkt.rtag).2
      ∀ x ∈ ([(.ldataReceive, 0x10, 2), (.aresReceive, 0x11, 3), (.csrDataReceive, 0x12, 4)] : List (Instr × Nat × Nat)), Arrives s x.2.1 r rest →
        (∀ q, smFind (s.core c).tracker k = some q → q.pkt.rtag = r.pkt.rtag → q.pkt.kind = x.2.2 → q.pkt.dst = r.pkt.src → smHas s.cmds q.cmd = true →
          After x.1 s (fun t => SameFlags s t ∧ t.net.rxq = rest ∧ smHas (t.core c).tracker k = false
            ∧ (t.cmd q.cmd).left = (s.cmd q.cmd).left - 1
            ∧ (r.pkt.aux % 256 ≠ 0 → (s.cmd q.cmd).status = 0 → (t.cmd q.cmd).status = r.pkt.aux % 256)
            ∧ (r.pkt.aux % 256 = 0 → r.pkt.poison = false → (t.cmd q.cmd).status = (s.cmd q.cmd).status)))
        ∧ (smFind (s.core c).tracker k = none →
          After x.1 s (fun t => Quiet s t ∧ t.net.rxq = rest ∧ t.cmds = s.cmds ∧ Recorded t pgMem 3)))
  ∧ (∀ (s : State), s.pins.pwrGood = true → s.inFault = false →
      (∀ (c : CoreId) (k : Fin 256) (q : RReq), smFind (s.core c).tracker k = some q → hasResponse q.pkt.kind = true → smHas s.cmds q.cmd = true →
        (requestWaits s c k q = true → exec (.requestTimeout c k) s = .next s)
        ∧ (requestWaits s c k q = false → After (.requestTimeout c k) s (fun t => SameFlags s t
          ∧ (q.tries < q.limit → q.pkt.kind ≠ 3 → SameMemory s t ∧ t.cmds = s.cmds ∧ t.csr = s.csr
              ∧ (∃ w, (t.txDst q.pkt.dst).wait = (s.txDst q.pkt.dst).wait ++ [w] ∧ w.again = true ∧ w.pkt.kind = q.pkt.kind ∧ w.pkt.rtag = q.pkt.rtag)
              ∧ ∃ y, smFind (t.core c).tracker k = some y ∧ y.tries = q.tries + 1 ∧ y.cmd = q.cmd)
          ∧ (q.tries < q.limit → q.pkt.kind = 3 → route s 3 q.pkt.dst q.pkt.seq (q.tries + 1) ≠ none → Recorded t pgMem 1
              ∧ ∃ y, smFind (t.core c).tracker k = some y ∧ y.tries = q.tries + 1 ∧ y.cmd = q.cmd)
          ∧ (q.tries < q.limit → q.pkt.kind = 3 → route s 3 q.pkt.dst q.pkt.seq (q.tries + 1) = none →
              (q.stuck < q.limit → SameMemory s t ∧ t.cmds = s.cmds ∧ t.csr = s.csr
                ∧ smFind (t.core c).tracker k = some { q with stuck := q.stuck + 1 })
              ∧ (q.limit ≤ q.stuck → smHas (t.core c).tracker k = false
                ∧ ((s.cmd q.cmd).status = 0 → (t.cmd q.cmd).status = 7 ∧ (t.cmd q.cmd).src = some (pgFab, 2))))
          ∧ (q.limit ≤ q.tries → SameMemory s t ∧ smHas (t.core c).tracker k = false ∧ (t.cmd q.cmd).left = (s.cmd q.cmd).left - 1
              ∧ ((s.cmd q.cmd).status = 0 → (t.cmd q.cmd).status = 7 ∧ (t.cmd q.cmd).src = some (pgMem, 2))))))
      ∧ (∀ (id : BitVec 16) (x : PullOut), s.net.pulls.find? (fun x => x.pullId == id.toNat) = some x → x.acked = true → smHas s.cmds x.cmd = true →
        After (.pullTimeout id) s (fun t => Quiet s t
          ∧ (x.tries < x.limit → t.csr = s.csr ∧ t.cmds = s.cmds
              ∧ (∃ w, (t.txDst x.dst).wait = (s.txDst x.dst).wait ++ [w] ∧ w.again = true ∧ w.pkt.kind = 0x21)
              ∧ ∃ y ∈ t.net.pulls, y.pullId = id.toNat ∧ y.tries = x.tries + 1 ∧ y.acked = false)
          ∧ (x.limit ≤ x.tries → (∀ y ∈ t.net.pulls, y.pullId ≠ id.toNat) ∧ (t.cmd x.cmd).left = (s.cmd x.cmd).left - 1
              ∧ ((s.cmd x.cmd).status = 0 → (t.cmd x.cmd).status = 7 ∧ (t.cmd x.cmd).src = some (pgMem, 2)))))
      ∧ (∀ (q : PullReq) (rest : List PullReq), s.net.pullq = q :: rest → s.fenced q.src = false →
        (16 ≤ (pullsWorked s).length → exec .pullServe s = .next s)
        ∧ ((pullsWorked s).length < 16 → After .pullServe s (fun t => Quiet s t ∧ t.csr = s.csr ∧ t.net.pullq = rest ∧ t.counter pgMem 3 = s.counter pgMem 3 + 1
          ∧ ∃ l, (t.txDst q.src).wait = (s.txDst q.src).wait ++ l ∧ (l.map (fun x => runsLen x.runs)).sum = q.len
              ∧ ∀ x ∈ l, x.pkt.kind = 0x20 ∧ x.pkt.dst = q.src ∧ x.org = .serve))))

/-- A tree's entry written VALID starts anew; a packet of a valid tree that is new at its STAGE is delivered where the STAGE asks it,
an MSIG to its flag, and its MSEQ is complete at once where no child is to report it; a repeated one is counted and answered by a MACK;
a STAGE 3 copy on FWD0 is passed on and not delivered; a MACK received moves what is known of its child forward, never back; one due goes
to UP, or stays due without a route. A commit
copies the window table when no valid entry is reserved, is refused when one is, and is ignored while a copy is in progress; when the
copy ends the checkers hold it and deny nothing of the old one. (R301 to R305, R312, R333) That a STAGE 3 copy on FWD0 is a relay's and not delivered, with
FAB source 3 where its entry is not valid, is the model's reading (log entry 33); what is known of STAGEs and children rests on log entry
34, the commit on 73. -/
def Obligations.TreesAndWindows : Prop :=
  (∀ (s : State), s.pins.pwrGood = true →
      (∀ (k : GroupId) (src up : DevNum),
        After (.mtValidWrite k src up) s (fun t => Quiet s t ∧ t.csr = s.csr ∧ t.tree k =
          { TreeSt.init with valid := true, src := src, up := up, localMask := (s.tree k).localMask, relay := (s.tree k).relay, outer := (s.tree k).outer }))
      ∧ (∀ k : GroupId, (s.tree k).mackDue = true → (s.tree k).valid = true → originates s (s.tree k) = false → s.inFault = false → s.fenced (s.tree k).up = false →
        (route s 0x27 (s.tree k).up 0 0 = none → exec (.mackSend k) s = .next s)
        ∧ ∀ l vc, route s 0x27 (s.tree k).up 0 0 = some (l, vc) →
          After (.mackSend k) s (fun t => Quiet s t ∧ t.csr = s.csr ∧ t.tree k = { s.tree k with mackDue := false }
            ∧ ∃ m, (t.link l).queue = (s.link l).queue ++ [(vc, m)]
              ∧ m.kind = 0x27 ∧ m.dst = (s.tree k).up ∧ leAt m.payload 0 4 = (s.tree k).cum % 2 ^ 32))
      ∧ (∀ r rest, Arrives s 0x27 r rest → (s.tree (r.pkt.aux % 256)).valid = true →
        After .mackReceive s (fun t => t.net.rxq = rest
          ∧ (let drops := leAt r.pkt.payload 4 2
            let old := smGet 0 (s.tree (r.pkt.aux % 256)).kidDrops r.pkt.src
            smGet 0 (t.tree (r.pkt.aux % 256)).kidDrops r.pkt.src =
              if seqBefore (leAt r.pkt.payload 0 4) (smGet 0 (s.tree (r.pkt.aux % 256)).kids r.pkt.src) = false ∧ (drops + 65536 - old) % 65536 < 32768
              then drops else old)
          ∧ smGet 0 (t.tree (r.pkt.aux % 256)).kids r.pkt.src =
              (let old := smGet 0 (s.tree (r.pkt.aux % 256)).kids r.pkt.src
               if seqBefore old (leAt r.pkt.payload 0 4) then leAt r.pkt.payload 0 4 else old)))
      ∧ (∀ x ∈ ([(.mputReceive, 0x25), (.msigReceive, 0x26)] : List (Instr × Nat)), ∀ r rest, Arrives s x.2 r rest →
          let k := r.pkt.dst % 256
          let st := r.pkt.stage
          let y := (s.tree k).stage st
          let dup := seqBefore r.pkt.seq y.cum = true ∨ ∃ e ∈ y.seen, e.1 = r.pkt.seq
          let mine := treeDelivers s (s.tree k) st
          (r.vc = 2 → st = 3 → After x.1 s (fun t => Quiet s t ∧ t.net.rxq = rest ∧ t.net.trees = s.net.trees
            ∧ ((s.tree k).valid = false → Recorded t pgFab 3)))
          ∧ ((s.tree k).valid = true → originates s (s.tree k) = false → ¬ (r.vc = 2 ∧ st = 3) → st ≠ 0 →
          After x.1 s (fun t => t.net.rxq = rest ∧ (t.tree k).valid = true
            ∧ t.counter pgFab 1 = s.counter pgFab 1 + (if mine = true then 1 else 0)
            ∧ (dup → Quiet s t ∧ (t.tree k).mackDue = true ∧ t.counter pgFab 4 = s.counter pgFab 4 + 1)
            ∧ (¬ dup → (x.2 = 0x25 ∨ mine = false → SameFlags s t)
                ∧ (x.2 = 0x26 → mine = true → ∃ v, Quiet s v ∧ v.csr = s.csr ∧ v.cores = s.cores
                    ∧ t.flags = (arriveSignal v r.pkt).flags ∧ t.fpois = (arriveSignal v r.pkt).fpois)
                ∧ (y.seen = [] → y.cum = r.pkt.seq → treeKids s (s.tree k) st = [] → (x.2 = 0x26 ∨ mine = false) →
                    ((t.tree k).stage st).cum = (r.pkt.seq + 1) % 2 ^ 32))))))
  ∧ (∀ (s : State), s.pins.pwrGood = true →
      (s.flag pgMem MEM_WCTRL_COMMIT_PEND = false →
        After .windowCommit s (fun t => Quiet s t ∧ t.net.windows = s.net.windows
          ∧ ((windowTable s).any Window.reserved = true → t.net = s.net ∧ t.flag pgMem PG_STAT_REFUSED = true)
          ∧ ((windowTable s).any Window.reserved = false → t.net.commit = some (windowTable s) ∧ t.flag pgMem MEM_WCTRL_COMMIT_PEND = true
              ∧ SameRegs s t (WordOf pgMem MEM_WCTRL_COMMIT_PEND))))
      ∧ (s.flag pgMem MEM_WCTRL_COMMIT_PEND = true → exec .windowCommit s = .next s)
      ∧ (∀ w, s.net.commit = some w →
        After .windowCommitDone s (fun t => Quiet s t ∧ t.net.windows = w ∧ t.net.denied = [] ∧ t.net.commit = none
          ∧ t.flag pgMem MEM_WCTRL_COMMIT_PEND = false ∧ SameRegs s t (WordOf pgMem MEM_WCTRL_COMMIT_PEND))))

/-- XCOPY, XMCAST and XMSIG at the queue head have run afterwards, XCOPY with no flag changed; XMCAST and XMSIG on a tree this device
does not originate complete with FORMAT_ERR at the byte of TREE and change nothing else. (R325, R326, R303) Rests also on the model's
own reading or choice in log entry 32.
What an XCOPY of plain operands moves: within the device the bytes of its source to its target, through the tracker of a core's SRAM;
to another device PUTs, one for each part of an aligned 4 KiB of the target, with the source's bytes of that part; from another device
PULLs of at most 1 MiB, each with the place of its part in the local target. (R48, R49, R325, R326) -/
def Obligations.XdmaCommandsRun : Prop :=
  (∀ (e : Fin 32) (s : State) (id : Nat) (more : List Nat), s.pins.pwrGood = true → s.inFault = false → NoInjection s (pgXdm e) →
      smGet [] s.net.xdma e = id :: more → smHas s.cmds id = true → (s.cmd id).ran = false →
      (∀ x ∈ ([(.xcopy (.run e), 0x40), (.xmcast (.run e), 0x41), (.xmsig (.run e), 0x42)] : List (Instr × Nat)),
        descOpcode (s.cmd id).desc = x.2 → After x.1 s (fun t => (smHas t.cmds id = true → (t.cmd id).ran = true) ∧ (x.2 = 0x40 → SameFlags s t)))
      ∧ (let foreign (tree detail : Nat) (i : Instr) : Prop := originates s (s.tree tree) = false → (s.cmd id).status = 0 →
          After i s (fun t => Quiet s t ∧ t.csr = s.csr ∧ t.net = s.net ∧ (t.cmd id).ran = true ∧ (t.cmd id).status = 8 ∧ (t.cmd id).detail = detail)
        (descOpcode (s.cmd id).desc = 0x41 → foreign (natBits (descOp (s.cmd id).desc 2) 39 32) 60 (.xmcast (.run e)))
        ∧ (descOpcode (s.cmd id).desc = 0x42 → foreign (natBits (descOp (s.cmd id).desc 2) 7 0) 56 (.xmsig (.run e)))))
  ∧ (∀ (e : Fin 32) (s : State) (id : Nat) (more : List Nat), s.pins.pwrGood = true → s.inFault = false → NoInjection s (pgXdm e) →
      smGet [] s.net.xdma e = id :: more → smHas s.cmds id = true → (s.cmd id).ran = false → descOpcode (s.cmd id).desc = 0x40 →
      (s.cmd id).cls = 4 → (s.cmd id).status = 0 → hasPat (s.cmd id).pats 0 = false → hasPat (s.cmd id).pats 1 = false →
      let d := (s.cmd id).desc
      let n := moveLen d (s.cmd id).pats [0, 1]
      let src := faOff (descOp d 0)
      let dst := faOff (descOp d 1)
      let dev := faDev (descOp d (if s.isOwn (faDev (descOp d 0)) then 1 else 0))
      (s.isOwn (faDev (descOp d 0)) = true → s.isOwn (faDev (descOp d 1)) = true →
        let r := (readSlot s (s.cmd id) 0 n).1
        let u := (readSlot s (s.cmd id) 0 n).2
        r.bad = [] → r.soft = [] → 0 < n → rangeExists s.fuses dst n = true → dst % 0x100000 + n ≤ 0x100000 →
        (isSram dst = true → (s.core (sramCore dst)).inbound.length < 64) →
        After (.xcopy (.run e)) s (fun t => SameFlags s t ∧ r.bytes.length = n ∧ t.mem = (writeRange u dst r.bytes false).mem
          ∧ (isSram dst = true → ∃ w, (t.core (sramCore dst)).inbound = (s.core (sramCore dst)).inbound ++ [w] ∧ w.cmd = some id)))
      ∧ (s.isOwn (faDev (descOp d 0)) = true → s.isOwn (faDev (descOp d 1)) = false → s.fencedDetail dev = none →
        After (.xcopy (.run e)) s (fun t => Quiet s t ∧ t.csr = s.csr
          ∧ ∃ l, (t.txDst dev).wait = (s.txDst dev).wait ++ l ∧ (t.cmd id).left = (s.cmd id).left + l.length
            ∧ (∀ x ∈ l, x.pkt.kind = 0x20 ∧ x.pkt.dst = dev)
            ∧ l.map (fun x => (x.pkt.addr, x.runs)) =
                (cutRange 4096 (n + 1) dst n).map (fun p => (mkFa 0 dev p.1, [(some (src + (p.1 - dst)), p.2)]))))
      ∧ (s.isOwn (faDev (descOp d 0)) = false → s.isOwn (faDev (descOp d 1)) = true → s.fencedDetail dev = none →
        After (.xcopy (.run e)) s (fun t => Quiet s t ∧ t.csr = s.csr
          ∧ ∃ l, (t.txDst dev).wait = (s.txDst dev).wait ++ l ∧ (t.cmd id).left = (s.cmd id).left + l.length
            ∧ (∀ x ∈ l, x.pkt.kind = 0x21 ∧ x.pkt.dst = dev)
            ∧ l.map (fun x => (x.pkt.addr, x.pkt.payload)) =
                (cutRange 0x100000 (n + 1) 0 n).map (fun p => (mkFa 0 dev (src + p.1),
                  leBytes 8 (mkFa 0 s.ownDev (dst + p.1)) ++ leBytes 4 p.2 ++ [0xFF, 0xFF, 0xFF, 0xFF])))))

/-! ### Collectives -/

/-- A group is validated exactly when it passes the check, with its sequence at 0; withdrawing one aborts its running and its queued
collectives, which start no more; the queue head starts in a free context with the group's next sequence, a void in none. (R339, R341,
R345, R346, R359) Rests also on the model's own reading or choice in log entry 75. -/
def Obligations.GroupsRun : Prop :=
  ∀ (s : State), s.pins.pwrGood = true →
    (∀ g : GroupId, (s.group g).valid = false →
      After (.groupValidate g) s (fun t => Quiet s t
        ∧ (groupOk s (s.group g) = true → t.csr = s.csr ∧ t.group g = { s.group g with cfg := putBit (s.group g).cfg 31 true, seq := 0 })
        ∧ (groupOk s (s.group g) = false → t.coll = s.coll ∧ t.flag (pgCol 0) PG_STAT_REFUSED = true)))
    ∧ (∀ g : GroupId, (s.group g).valid = true →
      After (.groupWithdraw g) s (fun t => Quiet s t ∧ (t.group g).valid = false ∧ (t.group g).mask = (s.group g).mask
        ∧ (∀ p ∈ t.coll.pending, p.gid ≠ g)
        ∧ (∀ key c, s.ctx key = some c → c.gid = g → ∃ c', t.ctx key = some c' ∧ c'.cmd = c.cmd ∧ c'.abort.isSome = true)
        ∧ ∀ id ∈ smGet [] s.net.coll (s.group g).engine, smHas s.cmds id = true → smHas s.coll.voids id = false →
            descOpcode (s.cmd id).desc ≠ 0 → (collOp (s.cmd id).desc).gid = g → (s.cmd id).ran = false →
            (t.cmd id).ran = true ∧ ((∀ p ∈ s.coll.pending, p.gid ≠ g) → (t.cmd id).status = 5 ∧ (t.cmd id).detail = 6)))
    ∧ (∀ (e : CollId) (id : Nat) (rest : List Nat), smGet [] s.net.coll e = id :: rest → mayStart s e (collOp (s.cmd id).desc) = true →
      let g := (collOp (s.cmd id).desc).gid
      ((s.cmd id).ran = true → exec (.collStart e) s = .next s)
      ∧ ((s.cmd id).ran = false → After (.collStart e) s (fun t => SameFlags s t ∧ smGet [] t.net.coll e = rest ∧ t.counter (pgCol e) 0 = s.counter (pgCol e) 0 + 1
        ∧ ((s.group g).valid = true → (t.group g).seq = ((s.group g).seq + 1) % 2 ^ 32)
        ∧ (smHas s.coll.voids id = true → smHas t.cmds id = false ∧ t.coll.ctxs = s.coll.ctxs)
        ∧ (smHas s.coll.voids id = false → ∃ i : Fin 4, s.ctx (4 * e + i) = none
            ∧ ∃ c, t.ctx (4 * e + i) = some c ∧ c.cmd = id ∧ c.gid = g ∧ c.seq = (s.group g).seq))))

/-- A GRANT raises its stream's credit, a CACK takes what it covers, a HOLD starts the resend count again, an ABORT ends the sending
and gives the descriptor its cause's status; any of them with another ORD than its running collective's decides cause 9; a GRANT of a
collective whose abort this member holds is answered by nothing; and any of them of an invalid group is COL source 6 and nothing else.
(R353, R354, R357, R359, R362) -/
def Obligations.ChunksAct : Prop :=
  ∀ (s : State) (r : RxPkt) (rest : List RxPkt) (edge key : Nat) (c : CollCtx),
    let stream := streamKey (chunkPhase r.pkt) edge
    (ChunkOf s 1 r rest edge key c → c.ord = chunkOrd r.pkt → abortHeld s r.pkt = false →
      After .chunkGrantReceive s (fun t => Quiet s t ∧ t.csr = s.csr ∧ t.net.rxq = rest
        ∧ t.ctx key = some { c with credit := smSet 0 c.credit stream (max (smGet 0 c.credit stream) r.pkt.aux) }))
    ∧ (ChunkOf s 1 r rest edge key c → c.ord = chunkOrd r.pkt → abortHeld s r.pkt = true →
      After .chunkGrantReceive s (fun t => Quiet s t ∧ t.csr = s.csr ∧ t.net.rxq = rest ∧ t.coll = s.coll ∧ ∀ l, (t.link l).queue = (s.link l).queue))
    ∧ (∀ x ∈ ([(.chunkGrantReceive, 1), (.chunkCackReceive, 2), (.chunkHoldReceive, 3), (.chunkAbortReceive, 4)] : List (Instr × Nat)),
      ChunkOf s x.2 r rest edge key c → c.ord ≠ chunkOrd r.pkt → c.abort = none →
      After x.1 s (fun t => Quiet s t ∧ t.net.rxq = rest ∧ ∃ c', t.ctx key = some c' ∧ c'.abort = some ⟨9, s.ownDev, true⟩ ∧ c'.out = []))
    ∧ (ChunkOf s 2 r rest edge key c → c.ord = chunkOrd r.pkt →
      After .chunkCackReceive s (fun t => Quiet s t ∧ t.csr = s.csr ∧ t.net.rxq = rest
        ∧ (r.pkt.aux % 16 ≠ 4 → t.ctx key = some { c with out := c.out.filter (fun o =>
            !(o.stream == stream && o.ctype == r.pkt.aux % 16 && (o.ctype == 1 || cackCovers r.pkt o.off))) })
        ∧ (r.pkt.aux % 16 = 4 → t.coll.ctxs = s.coll.ctxs
            ∧ ∀ a ∈ t.coll.aborts, ¬ (a.gid = chunkGid r.pkt ∧ a.seq = r.pkt.seq ∧ a.link = r.link))))
    ∧ (ChunkOf s 3 r rest edge key c → c.ord = chunkOrd r.pkt →
      After .chunkHoldReceive s (fun t => Quiet s t ∧ t.csr = s.csr ∧ t.net.rxq = rest
        ∧ t.ctx key = some { c with out := c.out.map (fun o => if o.ctype == 1 && o.stream == stream then { o with tries := 0 } else o) }))
    ∧ (ChunkOf s 4 r rest edge key c → c.ord = chunkOrd r.pkt → c.abort = none → smHas s.cmds c.cmd = true →
      let a : AbortSt := ⟨r.pkt.aux % 16, natBits r.pkt.aux 17 4, false⟩
      After .chunkAbortReceive s (fun t => Quiet s t ∧ t.net.rxq = rest ∧ t.ctx key = some { c with abort := some a, out := [] }
        ∧ (t.cmd c.cmd).status = (abortStatus a.cause).1 ∧ (t.cmd c.cmd).detail = (abortStatus a.cause).2
        ∧ t.fld (pgCol 0) COL_ABORT_REC_CAUSE = a.cause))
    ∧ (s.pins.pwrGood = true → (s.group (chunkGid r.pkt)).valid = false →
      ∀ x ∈ ([(.chunkGrantReceive, 1), (.chunkCackReceive, 2), (.chunkHoldReceive, 3), (.chunkAbortReceive, 4)] : List (Instr × Nat)),
        FirstIn (fun y => y.pkt.kind == 0x30 && (chunkType y.pkt == x.2)) s.net.rxq r rest →
        After x.1 s (fun t => Quiet s t ∧ t.net.rxq = rest ∧ t.coll = s.coll ∧ Recorded t (pgCol 0) 6))

/-- A stream's next DATA chunk leaves when its credit and bytes allow and is kept, with the CRC of what was read or reduced, or, forwarded,
with that of the bytes as they came; a new one that passes its check is noted; one unacknowledged that leaves again is counted, COL source
7, until CRETRY and then aborts; no progress aborts with cause 3; an abort's results carry poison marks, every byte of them, before it
ends; the engine forgets its oldest completed collective. (R351 to R354, R358 to R360, R363, R368) Rests also on the model's own reading or
choice in log entries 44, 45, 121.
On the wire of a collective: a chunk that is sent joins its edge's link with its group, type, ORD, phase, offset, CRC and sequence; a
copy of a DATA chunk already received is only acknowledged again; where the context owes the peer nothing, the engine's oldest ABORT to it
goes again; a collective without progress gives its descriptor status 5 with DETAIL 3, and with WAIT_MS 0 waits for ever; an abort whose
results are marked is marked no more; the oldest completed collective is forgotten whatever runs. (R351, R353, R354, R357 to R360, R368)
Which of the chunks to a peer was sent longest ago is the model's count (log entry 121). -/
def Obligations.ChunksAndMoments : Prop :=
  (∀ (s : State),
      (∀ (e : CollId) (i : Fin 4) (peer : DevNum) (c : CollCtx) (p d : Nat) (k : Chunk), s.pins.pwrGood = true → s.inFault = false →
        s.ctx (4 * e + i) = some c → c.abort = none →
        ((phasesOf (c.op s) (s.group c.gid)).flatMap (fun p =>
            ((edgesOf s (s.group c.gid)).filter (fun d => edgeDev s (s.group c.gid) d == some peer.val)).map (fun d => (p, d)))).findSome?
          (fun t => (nextChunk s c t.1 t.2).map (fun k => (t, k))) = some ((p, d), k) →
        After (.chunkDataSend e i peer) s (fun t => SameFlags s t ∧ ∃ c' o, t.ctx (4 * e + i) = some c' ∧ c'.out = c.out ++ [o]
          ∧ o.stream = streamKey p d ∧ o.ctype = 0 ∧ o.off = k.off ∧ o.tries = 0
          ∧ (p = 1 ∨ (p = 2 ∧ (c.op s).reduces = true) → o.aux = (crc32c o.data).toNat)
          ∧ (p ≠ 1 → ¬ (p = 2 ∧ (c.op s).reduces = true) → (c.op s).op ≠ 0x51 → (t.cmd c.cmd).cut = none →
              o.aux = (crc32c (k.us.map (smGet [] c.fin)).flatten).toNat)
          ∧ smGet 0 c'.sent (streamKey p d) = smGet 0 c.sent (streamKey p d) + 1))
      ∧ (∀ (r : RxPkt) (rest : List RxPkt) (edge key : Nat) (c : CollCtx) (k : Chunk), s.pins.pwrGood = true →
        FirstIn (fun x => x.pkt.kind == 0x30 && (chunkType x.pkt == 0 || decide (5 ≤ chunkType x.pkt))) s.net.rxq r rest →
        chunkType r.pkt = 0 → (s.group (chunkGid r.pkt)).valid = true → edgeOfLink s (s.group (chunkGid r.pkt)) r.link = some edge →
        ctxOf s (chunkGid r.pkt) r.pkt.seq = some (key, c) → c.ord = chunkOrd r.pkt → abortHeld s r.pkt = false →
        (chunksIn s (c.op s) (s.group c.gid) (chunkPhase r.pkt) edge).find? (fun k => k.off == chunkOff r.pkt) = some k →
        64 * k.n = r.pkt.payload.length → k.off ∉ smGet [] c.rcvd (streamKey (chunkPhase r.pkt) edge) →
        NoInjection s (pgCol (key / 4)) → (crc32c r.pkt.payload).toNat = r.pkt.aux →
        After .chunkDataReceive s (fun t => SameFlags s t ∧ t.net.rxq = rest ∧ ∃ c', t.ctx key = some c' ∧ c'.cmd = c.cmd ∧ c'.abort = none
          ∧ smGet [] c'.rcvd (streamKey (chunkPhase r.pkt) edge) = smGet [] c.rcvd (streamKey (chunkPhase r.pkt) edge) ++ [k.off])))
  ∧ (∀ (e : CollId) (i : Fin 4) (peer : DevNum) (s : State) (c : CollCtx), s.pins.pwrGood = true → s.ctx (4 * e + i) = some c →
      (∀ o, s.inFault = false → e.val < s.fuses.part.colls → c.abort = none →
          c.out.find? (fun o => edgeDev s (s.group c.gid) (o.stream % 64) == some peer.val) = some o → abortFirst s e peer o = false →
        let again : OutChunk := { o with tries := o.tries + 1, stamp := s.coll.sends }
        After (.chunkResend e i peer) s (fun t => Quiet s t
          ∧ (o.tries < bits c.cfg 3 0 → outLeaves s c again = true → Recorded t (pgCol e) 7 ∧ t.counter (pgCol e) 5 = s.counter (pgCol e) 5 + 1
              ∧ ∃ c', t.ctx (4 * e + i) = some c' ∧ c'.abort = none ∧ c'.out.getLast? = some again)
          ∧ (o.tries < bits c.cfg 3 0 → outLeaves s c again = false → t.csr = s.csr ∧ t.counter (pgCol e) 5 = s.counter (pgCol e) 5
              ∧ ∃ c', t.ctx (4 * e + i) = some c' ∧ c'.abort = none ∧ c'.out.getLast? = some { o with stamp := s.coll.sends })
          ∧ (bits c.cfg 3 0 ≤ o.tries → ∃ c', t.ctx (4 * e + i) = some c' ∧ c'.abort = some ⟨4, s.ownDev, true⟩ ∧ c'.out = [])))
      ∧ (bits c.cfg 31 24 ≠ 0 → c.abort = none →
        After (.collNoProgress e i) s (fun t => Quiet s t ∧ t.ctx (4 * e + i) = some { c with abort := some ⟨3, s.ownDev, true⟩, out := [] }))
      ∧ (c.abort.isSome = true → c.ended = false →
        After (.abortResultPoison e i) s (fun t => Quiet s t ∧ t.csr = s.csr ∧ t.ctx (4 * e + i) = some { c with ended := true }
          ∧ ∀ a n, (a, n) ∈ (s.cmd c.cmd).outs → (∀ j, j < n → isSram (a + j) = isSram a) → ∀ j, j < n → t.poisonedAt (a + j) = true))
      ∧ After (.lateWindowExpiry e) s (fun t => Quiet s t ∧ t.csr = s.csr
          ∧ smGet [] t.coll.memory e = (smGet [] s.coll.memory e).dropLast ∧ t.coll.ctxs = s.coll.ctxs))
  ∧ (∀ (s : State), s.pins.pwrGood = true →
      (∀ (e : CollId) (i : Fin 4) (peer : DevNum) (c : CollCtx) (p d l : Nat) (k : Chunk), s.inFault = false →
        s.ctx (4 * e + i) = some c → c.abort = none →
        ((phasesOf (c.op s) (s.group c.gid)).flatMap (fun p =>
            ((edgesOf s (s.group c.gid)).filter (fun d => edgeDev s (s.group c.gid) d == some peer.val)).map (fun d => (p, d)))).findSome?
          (fun t => (nextChunk s c t.1 t.2).map (fun k => (t, k))) = some ((p, d), k) → d < 64 →
        edgeLink s (s.group c.gid) d k.off 0 = some l → chunkMay s l = true →
        After (.chunkDataSend e i peer) s (fun t => ∃ m vc, (t.link l).queue = (s.link l).queue ++ [(vc, m)] ∧ m.kind = 0x30
          ∧ m.addr = chunkAddr c.gid 0 c.ord p k.off ∧ m.seq = c.seq ∧ m.e2eRetx = false
          ∧ t.counter (pgCol e) 3 = s.counter (pgCol e) 3 + 1))
      ∧ (∀ (r : RxPkt) (rest : List RxPkt) (edge key : Nat) (c : CollCtx) (k : Chunk),
        FirstIn (fun x => x.pkt.kind == 0x30 && (chunkType x.pkt == 0 || decide (5 ≤ chunkType x.pkt))) s.net.rxq r rest →
        chunkType r.pkt = 0 → (s.group (chunkGid r.pkt)).valid = true → edgeOfLink s (s.group (chunkGid r.pkt)) r.link = some edge →
        ctxOf s (chunkGid r.pkt) r.pkt.seq = some (key, c) → c.ord = chunkOrd r.pkt → abortHeld s r.pkt = false →
        (chunksIn s (c.op s) (s.group c.gid) (chunkPhase r.pkt) edge).find? (fun k => k.off == chunkOff r.pkt) = some k →
        64 * k.n = r.pkt.payload.length → k.off ∈ smGet [] c.rcvd (streamKey (chunkPhase r.pkt) edge) → chunkMay s r.link = true →
        After .chunkDataReceive s (fun t => Quiet s t ∧ t.csr = s.csr ∧ t.net.rxq = rest ∧ t.coll = s.coll
          ∧ ∃ m vc, (t.link r.link).queue = (s.link r.link).queue ++ [(vc, m)] ∧ m.kind = 0x30 ∧ chunkType m = 2 ∧ m.seq = r.pkt.seq))
      ∧ (∀ (e : CollId) (i : Fin 4) (peer : DevNum) (a : AbortOut), s.inFault = false → s.coll.aborts.find? (abortDue s e peer) = some a →
        (s.ctx (4 * e + i) = none ∨ ∃ c, s.ctx (4 * e + i) = some c ∧ c.out = []) →
        After (.chunkResend e i peer) s (fun t => Quiet s t ∧ t.coll.ctxs = s.coll.ctxs
          ∧ t.coll.aborts.getLast? = some { a with stamp := s.coll.sends }
          ∧ (chunkMay s a.link = false → t.csr = s.csr ∧ t.net = s.net)
          ∧ (chunkMay s a.link = true → t.counter (pgCol e) 5 = s.counter (pgCol e) 5 + 1
              ∧ ∃ m vc, (t.link a.link).queue = (s.link a.link).queue ++ [(vc, m)] ∧ chunkType m = 4 ∧ m.aux = a.cause + 16 * a.origin
                ∧ m.e2eRetx = true)))
      ∧ (∀ (e : CollId) (i : Fin 4) (c : CollCtx), s.ctx (4 * e + i) = some c →
        (bits c.cfg 31 24 = 0 → exec (.collNoProgress e i) s = .next s)
        ∧ (bits c.cfg 31 24 ≠ 0 → c.abort = none → smHas s.cmds c.cmd = true →
          After (.collNoProgress e i) s (fun t => Quiet s t ∧ (t.cmd c.cmd).status = 5 ∧ (t.cmd c.cmd).detail = 3
            ∧ t.fld (pgCol 0) COL_ABORT_REC_CAUSE = 3))
        ∧ (c.abort = none ∨ c.ended = true → exec (.abortResultPoison e i) s = .next s))
      ∧ (∀ e : CollId, After (.lateWindowExpiry e) s (fun t => Quiet s t ∧ t.csr = s.csr
          ∧ smGet [] t.coll.memory e = (smGet [] s.coll.memory e).dropLast ∧ t.coll.ctxs = s.coll.ctxs ∧ t.coll.aborts = s.coll.aborts)))

/-! ### Membership and time -/

/-- A malformed or unverified bundle is recorded and kept nowhere; the next epoch's command advances MEPOCH; a CHANGE that breaks the
rules or the limiter changes no state, one of the future becomes pending, one of the present takes effect, but that a device which is
FENCED leaves that state by a VACATE over its host port alone; a POLICY in order and with a good effect time sets the limiter; a SNAPSHOT
replaces the view; pending entries take effect together. (R375 to R378, R383, R385, R393) Rests also on the model's own reading or
choice in log entries 46, 48. -/
def Obligations.CommandsDecide : Prop :=
  ∀ (s : State), s.pins.pwrGood = true →
    (∀ x rest, s.mbr.inbox = x :: rest →
      let body := bundleBody x.bytes
      After .bundleVerify s (fun t => Quiet s t ∧ t.mbr.inbox = rest ∧ t.mbr.view = s.mbr.view
        ∧ (bundleOk x.bytes = false → Recorded t pgMbr 0 ∧ t.fld pgMbr MBR_CMD_LAST_STATUS = 6 ∧ t.mbr.held = s.mbr.held)
        ∧ (bundleOk x.bytes = true → s.sec.trust = [] ∨ bundleVerified s.sec.trust x.bytes = false →
            Recorded t pgMbr 0 ∧ t.fld pgMbr MBR_CMD_LAST_STATUS = 2 ∧ t.mbr.held = s.mbr.held ∧ t.counter pgMbr 3 = s.counter pgMbr 3 + 1)
        ∧ (bundleOk x.bytes = true → s.sec.trust ≠ [] → bundleVerified s.sec.trust x.bytes = true → bodyKind body ≠ 3 →
            bodyEpoch body = (ownEpoch s + 1) % 2 ^ 32 →
            s.mbr.held.any (fun y => y.mepoch == bodyEpoch body && bodyKind (bundleBody y.bytes) != 3) = false →
            ⟨bodyEpoch body, x.bytes, x.session⟩ ∈ t.mbr.held ∧ t.csr = s.csr)))
    ∧ (∀ h, nextCommand s 1 = some h →
      let body := bundleBody h.bytes
      let limited := bodyOverride body = false ∧ s.fld pgMbr MBR_POLICY_RATE_MAX < rateCount s body + countedFences s body
      After .changeCommand s (fun t => t.fld pgMbr MBR_MEPOCH = h.mepoch ∧ t.mbr.kept.head? = some h
        ∧ (changeOk s body = false → Quiet s t ∧ t.mbr.view = s.mbr.view ∧ t.mbr.pend = s.mbr.pend ∧ Recorded t pgMbr 1
            ∧ t.fld pgMbr MBR_CMD_LAST_STATUS = 3)
        ∧ (changeOk s body = true → limited → Quiet s t ∧ t.mbr.view = s.mbr.view ∧ t.mbr.pend = s.mbr.pend ∧ Recorded t pgMbr 2
            ∧ t.fld pgMbr MBR_CMD_LAST_STATUS = 4)
        ∧ (changeOk s body = true → ¬ limited → timeNs s < timeOf (bodyEffect body) → Quiet s t ∧ t.mbr.view = s.mbr.view
            ∧ t.fld pgMbr MBR_CMD_LAST_STATUS = 1
            ∧ ∀ e ∈ bodyEntries body, ⟨(bodyEffect body).1, (bodyEffect body).2, e.1, actTo e.2.1, e.2.1, e.2.2, h.session != 0⟩ ∈ t.mbr.pend)
        ∧ (∀ x, changeOk s body = true → ¬ limited → timeOf (bodyEffect body) ≤ timeNs s → bodyEntries body = [(s.ownDev, 6, x)] →
            s.flag pgMbr MBR_DEVNUM_VALID = true → s.selfFenced = true → h.session = 0 → t.mbr.view = s.mbr.view)
        ∧ (changeOk s body = true → ¬ limited → timeOf (bodyEffect body) ≤ timeNs s → s.selfFenced = false ∨ h.session ≠ 0 →
            t.mbr.view = (bodyEntries body).foldl (fun v e => smSet 0 v e.1 (actTo e.2.1)) s.mbr.view
            ∧ t.fld pgMbr MBR_CMD_LAST_STATUS = if timeOf (bodyEffect body) = 0 then 0 else 7)))
    ∧ (∀ h, nextCommand s 2 = some h →
      let body := bundleBody h.bytes
      After .policyCommand s (fun t => Quiet s t ∧ t.mbr.view = s.mbr.view ∧ t.fld pgMbr MBR_MEPOCH = h.mepoch
        ∧ (timeOf (s.mbr.issueSec, s.mbr.issueNs) ≤ timeOf (bodyIssue body) → effectOk s body = true → t.fld pgMbr MBR_POLICY_RATE_MAX = leAt body 34 2
            ∧ t.fld pgMbr MBR_POLICY_RATE_WIN = leAt body 36 2 ∧ t.fld pgMbr MBR_CMD_LAST_STATUS = 0)
        ∧ (timeOf (bodyIssue body) < timeOf (s.mbr.issueSec, s.mbr.issueNs) ∨ effectOk s body = false → Recorded t pgMbr 1 ∧ t.fld pgMbr MBR_CMD_LAST_STATUS = 3)))
    ∧ (∀ h, s.mbr.held.find? (fun h => bodyKind (bundleBody h.bytes) == 3) = some h →
      let out := seqBefore h.mepoch (ownEpoch s) = true ∨ (viewValid s = true ∧ s.flag pgMbr MBR_MSTAT_STALE = false)
      After .snapshotCommand s (fun t =>
        (out → Quiet s t ∧ t.mbr.view = s.mbr.view ∧ Recorded t pgMbr 1 ∧ t.fld pgMbr MBR_CMD_LAST_STATUS = 3)
        ∧ (¬ out → t.mbr.view = snapshotView (bundleBody h.bytes) ∧ t.mbr.pend = [] ∧ t.fld pgMbr MBR_MEPOCH = h.mepoch % 2 ^ 32
            ∧ t.flag pgMbr MBR_MSTAT_VIEW_VALID = true ∧ t.flag pgMbr MBR_MSTAT_STALE = false ∧ t.fld pgMbr MBR_CMD_LAST_STATUS = 0)))
    ∧ (∀ e rest, s.mbr.pend = e :: rest → e.ns_ ≤ timeNs s →
        (∀ x ∈ s.mbr.pend, x.act = 6 → x.host = true ∨ (x.dev ≠ s.ownDev ∧ ∀ y ∈ s.mbr.pend, y.act = 1 → y.dev ≠ x.dev)) →
      After .changeEffectApply s (fun t => t.mbr.pend = s.mbr.pend.filter (fun x => x.ns_ != e.ns_)
        ∧ t.mbr.view = (s.mbr.pend.filter (fun x => x.ns_ == e.ns_)).foldl (fun v x => smSet 0 v x.dev (actTo x.act)) s.mbr.view
        ∧ (t.flag pgMbr MBR_MSTAT_PEND = true ↔ t.mbr.pend ≠ [])))

/-- A fragment joins its bundle; a sheet member that asks gets the kept commands; a gap is asked about and then makes the view STALE;
circuits set exactly a member's SRT bits and age out with MBR source 8; the health score and its event follow the counters. (R379,
R381, R382, R389 to R392) Rests also on the model's own reading or choice in log entries 8, 49, 50. -/
def Obligations.MembershipMessages : Prop :=
  ∀ (s : State), s.pins.pwrGood = true →
    (∀ p rest, FirstIn (isAllocMsg 0x10) s.net.mgmt p rest → leAt p.payload 1 1 = 1 → allZero p.payload 12 4 = true → s.sec.trust ≠ [] →
        s.mbr.frags.find? (fun f => f.src == p.src && f.mepoch == leAt p.payload 4 4) = none →
      After .bundleFragmentReceive s (fun t => Quiet s t ∧ t.csr = s.csr ∧ t.net.mgmt = rest
        ∧ (leAt p.payload 3 1 = 1 → leAt p.payload 2 1 = 0 → (p.payload.drop 16).length = leAt p.payload 8 4 →
            t.mbr.inbox = s.mbr.inbox ++ [⟨p.payload.drop 16, 0⟩] ∧ t.counter pgMbr 0 = s.counter pgMbr 0 + 1)
        ∧ (1 < leAt p.payload 3 1 → leAt p.payload 3 1 ≤ 16 → leAt p.payload 2 1 < leAt p.payload 3 1 → t.mbr.inbox = s.mbr.inbox
            ∧ t.mbr.frags = s.mbr.frags ++
                [⟨p.src, leAt p.payload 4 4, leAt p.payload 3 1, leAt p.payload 8 4, [(leAt p.payload 2 1, p.payload.drop 16)]⟩])))
    ∧ (∀ p rest d, FirstIn (isAllocMsg 0x11) s.net.mgmt p rest → leAt p.payload 1 1 = 1 → 1 ≤ leAt p.payload 8 2 → leAt p.payload 8 2 ≤ 64 →
        p.src / 32 = s.ownDev / 32 → linkPeer s (p.src % 32) = some d →
      let want := s.mbr.kept.reverse.filter (fun h => decide ((h.mepoch + 2 ^ 32 - leAt p.payload 4 4) % 2 ^ 32 < leAt p.payload 8 2))
      After .cmdReqReceive s (fun t => Quiet s t ∧ t.csr = s.csr ∧ t.net.mgmt = rest ∧ (t.link (p.src % 32)).queue =
        (s.link (p.src % 32)).queue ++ (want.flatMap (fun h => fragments h.mepoch h.bytes)).map (fun f => (5, mkPkt 0x40 d s.ownDev 0 0 f))))
    ∧ (gapOpen s = true →
      After .cmdReqTimer s (fun t => Quiet s t ∧ t.csr = s.csr ∧ t.mbr = { s.mbr with gapAsked := true }
        ∧ ∀ i : Fin 32, sheetUp s i = true → ∃ m, (t.link i).queue = (s.link i).queue ++ [(5, m)] ∧ m.payload.take 2 = [0x11, 1]
            ∧ leAt m.payload 4 4 = (ownEpoch s + 1) % 2 ^ 32))
    ∧ (gapOpen s = true → s.mbr.gapAsked = true → s.flag pgMbr MBR_MSTAT_STALE = false →
      After .staleTimer s (fun t => Quiet s t ∧ t.flag pgMbr MBR_MSTAT_STALE = true ∧ Recorded t pgMbr 4))
    ∧ ((members s).contains s.ownIdx = true →
      After .circuitsSend s (fun t => Quiet s t ∧ t.csr = s.csr ∧ t.mbr = { s.mbr with circDue := false }
        ∧ ∀ i ∈ members s, i ≠ s.ownIdx → ∃ m, (t.link i).queue = (s.link i).queue ++ [(5, m)] ∧ m.payload.take 2 = [0x12, 1]
            ∧ ∀ k : Fin 16, leAt m.payload (8 + 2 * k) 2 = circuitWord s k))
    ∧ (∀ p rest, FirstIn (isAllocMsg 0x12) s.net.mgmt p rest → p.src / 32 = s.ownDev / 32 → (members s).contains (p.src % 32) = true →
        p.src % 32 ≠ s.ownIdx → leAt p.payload 1 1 = 1 → p.payload.length = 40 →
      After .circuitsReceive s (fun t => Quiet s t ∧ t.net.mgmt = rest
        ∧ (∀ j : Fin 512, bitAt (t.reg pgFab (0x800 + 4 * j)) (p.src % 32) = true ↔
            ∃ k : Fin 16, let w := leAt p.payload (8 + 2 * k) 2; w.testBit 15 = true ∧ w % 512 = j)
        ∧ ∀ j : Fin 512, ∀ i : Fin 32, i.val ≠ p.src % 32 → bitAt (t.reg pgFab (0x800 + 4 * j)) i = bitAt (s.reg pgFab (0x800 + 4 * j)) i))
    ∧ (∀ d : DevNum, smHas s.mbr.circuits (d % 32) = true → d.val / 32 = s.ownDev / 32 →
      After (.circuitsAgeOut d) s (fun t => Quiet s t ∧ smHas t.mbr.circuits (d % 32) = false ∧ Recorded t pgMbr 8
        ∧ ∀ j : Fin 512, bitAt (t.reg pgFab (0x800 + 4 * j)) (d % 32) = false))
    ∧ After .healthScoreUpdate s (fun t => Quiet s t ∧ t.mbr = { s.mbr with health := (healthCounts s :: s.mbr.health).take 255 }
        ∧ t.fld pgMbr MBR_HSCORE_SCORE + min 255 (penalties s (healthCounts s)
            ((s.mbr.health[s.fld pgMbr MBR_HCFG_WIN_S - 1]?).getD [])).sum = 255
        ∧ SameRegs s t (WordOf pgMbr MBR_HSCORE_SCORE))
    ∧ (countIf (fun x => !x.keeps) (s.events ++ s.host.unacked.map (·.2)) < 4032 →
      After .healthEvent s (fun t => Quiet s t ∧ t.csr = s.csr ∧ t.counter pgMbr 5 = s.counter pgMbr 5 + 1
        ∧ ∃ v, t.events = s.events ++ [v] ∧ v.kind = 7 ∧ v.data % 2 ^ 8 = s.fld pgMbr MBR_HSCORE_SCORE ∧ v.data / 2 ^ 32 = ownEpoch s))

/-- The root counts ALIVE; a root not live is TIM source 1; holdover is TIM source 0; the exchange moves to the lane pair that is now the
time lane of the parent's link, lost or lower, and only then; a small offset locks; an oscillator failure is TIM source 3. (R402, R404, R406, R409, R410) Rests also on the model's own
reading or choice in log entry 53. -/
def Obligations.TimeFollowsItsParent : Prop :=
  ∀ (s : State), s.pins.pwrGood = true →
    (s.flag pgTim TIM_TSTAT_ROOT = true → s.inFault = false →
      After .aliveTick s (fun t => Quiet s t ∧ t.csr = s.csr ∧ t.time = s.time ∧ t.tim = { s.tim with alive := (s.tim.alive + 1) % 65536 }))
    ∧ (s.flag pgTim TIM_ROOT_VALID = true → s.flag pgTim TIM_TSTAT_ROOT = false →
      After .rootLivenessExpiry s (fun t => Quiet s t ∧ t.time = s.time ∧ smHas t.tim.dead (s.fld pgTim TIM_ROOT_DEV) = true
        ∧ t.flag pgTim TIM_TSTAT_LOCKED = false ∧ Recorded t pgTim 1))
    ∧ (s.flag pgTim TIM_PARENT_VALID = true → s.flag pgTim TIM_TSTAT_HOLDOVER = false →
      After .holdoverEntry s (fun t => Quiet s t ∧ t.time = s.time ∧ t.flag pgTim TIM_TSTAT_HOLDOVER = true
        ∧ t.flag pgTim TIM_TSTAT_LOCKED = false ∧ Recorded t pgTim 0))
    ∧ (∀ k, k < 2048 →
        let key := pairKey (s.fld pgTim TIM_PARENT_PLANE) (s.fld pgTim TIM_PARENT_LINE)
        s.flag pgTim TIM_PARENT_VALID = true → timeLane s (linkOf s key) = some k →
      (k = key → exec .timeLaneChange s = .next s)
      ∧ (k ≠ key → After .timeLaneChange s (fun t => Quiet s t ∧ t.time = s.time ∧ t.fld pgTim TIM_PARENT_PLANE = k / 32 ∧ t.fld pgTim TIM_PARENT_LINE = k % 32
        ∧ t.flag pgTim TIM_TSTAT_HOLDOVER = true ∧ t.flag pgTim TIM_TSTAT_LOCKED = false ∧ t.tim.skip = true
        ∧ SameRegs s t (fun p o => WordOf pgTim TIM_PARENT_PLANE p o ∨ WordOf pgTim TIM_TSTAT_LOCKED p o))))
    ∧ (s.flag pgTim TIM_PARENT_VALID = true → s.flag pgTim TIM_TSTAT_HOLDOVER = false → (sext 32 (s.fld pgTim TIM_OFFSET)).natAbs ≤ 32 →
      After .lockAchieved s (fun t => Quiet s t ∧ t.flag pgTim TIM_TSTAT_LOCKED = true ∧ SameRegs s t (WordOf pgTim TIM_TSTAT_LOCKED)))
    ∧ (s.tim.ocxoFailed = false →
      After .ocxoFail s (fun t => Quiet s t ∧ t.time = s.time ∧ t.tim.ocxoFailed = true ∧ Recorded t pgTim 3))

/-- A time set the root accepts waits for the next whole second, from which it counts, and then is a step, one refused is TIM source 4; the
pulse rises at a whole second under its enable and falls after WIDTH; an armed slot latches the time; a read of NOW_NS captures; a PTP
master sends its messages as frames over the transport selected, and counts none without a link. (R411, R412, R414 to R417) That a set
still pending when the device is root no longer is dropped, and the standard's header fields of a PTP message that the spec does not name,
are the model's choice (log entries 53, 72, 116, 132). -/
def Obligations.TimeIsSetAndShown : Prop :=
  ∀ (s : State), s.pins.pwrGood = true →
    (let go := s.flag pgTim TIM_TSTAT_ROOT = true ∧ timeNs s ≤ 1000000000 * (setTime s).sec + (setTime s).ns;
      After .timeSetGo s (fun t => Quiet s t ∧ t.time = s.time
        ∧ (go → t.flag pgTim TIM_SET_CTL_PEND = true ∧ SameRegs s t (WordOf pgTim TIM_SET_CTL_PEND))
        ∧ (¬ go → t.flag pgTim TIM_SET_CTL_REFUSED = true ∧ t.flag pgTim TIM_SET_CTL_PEND = s.flag pgTim TIM_SET_CTL_PEND ∧ Recorded t pgTim 4)))
    ∧ (s.flag pgTim TIM_SET_CTL_PEND = true →
      (s.time.sec ≤ s.tim.setSec → After .timeSetApply s (fun t => t = s))
      ∧ (s.tim.setSec < s.time.sec → s.flag pgTim TIM_TSTAT_ROOT = false → After .timeSetApply s (fun t => Quiet s t ∧ t.time = s.time
        ∧ t.flag pgTim TIM_SET_CTL_PEND = false ∧ SameRegs s t (WordOf pgTim TIM_SET_CTL_PEND)))
      ∧ (s.tim.setSec < s.time.sec → s.flag pgTim TIM_TSTAT_ROOT = true → After .timeSetApply s (fun t => (s.mbr.pend = [] → Quiet s t)
        ∧ t.time = (setTime s).moved (stampNum (s.time.sec - s.tim.setSec - 1) s.time.ns s.time.frac) ∧ t.flag pgTim TIM_SET_CTL_PEND = false
        ∧ t.flag pgTim TIM_TSTAT_STEPPED = true ∧ t.counter pgTim 1 = s.counter pgTim 1 + 1)))
    ∧ (∀ rising : Bool,
      let during := s.time.ns < 1000 * s.fld pgTim TIM_PPS_CTL_WIDTH
      let may := s.flag pgTim TIM_PPS_CTL_EN = true
        ∧ (s.flag pgTim TIM_TSTAT_ROOT = true ∨ s.flag pgTim TIM_TSTAT_LOCKED = true ∨ s.flag pgTim TIM_TSTAT_HOLDOVER = true)
      After (.ppsPulse rising) s (fun t => t = { s with pins := { s.pins with ppsHigh := t.pins.ppsHigh } }
        ∧ (strobeHeld s = true → t = s)
        ∧ (strobeHeld s = false → rising = true → s.time.ns ≤ 2 → (t.pins.ppsHigh = true ↔ may ∧ during))
        ∧ (strobeHeld s = false → rising = true → 2 < s.time.ns → t = s)
        ∧ (strobeHeld s = false → rising = false → (t.pins.ppsHigh = true ↔ s.pins.ppsHigh = true ∧ during))))
    ∧ (∀ (k : Fin 4) (ev : CapEvent), let f := fun x : Fld => x.at (0x10 * k.val);
        s.flag pgTim (f TIM_CAP_CTL_ARM) = true → s.fld pgTim (f TIM_CAP_CTL_SRC) = capSrc ev →
      After (.captureEvent k ev) s (fun t => Quiet s t ∧ t.flag pgTim (f TIM_CAP_CTL_ARM) = false ∧ t.flag pgTim (f TIM_CAP_CTL_VALID) = true
        ∧ t.fld pgTim (f TIM_CAP_NS) = s.time.ns % 2 ^ 32 ∧ t.fld pgTim (f TIM_CAP_SEC_LO) = s.time.sec % 2 ^ 32
        ∧ t.fld pgTim (f TIM_CAP_HI_FRAC) = s.time.frac % 2 ^ 16 ∧ t.fld pgTim (f TIM_CAP_HI_SEC_HI) = s.time.sec / 2 ^ 32 % 2 ^ 16))
    ∧ After .nowNsRead s (fun t => Quiet s t ∧ t.csr = s.csr ∧ smFind t.cap (8 * pgTim + 6) = some (nowWord s 6)
        ∧ smFind t.cap (8 * pgTim + 7) = some (nowWord s 7))
    ∧ (ptpOn s = true → s.flag pgHpt HPT_LSTAT_LINK_UP = true →
      After .ptpSyncSend s (fun t => Quiet s t ∧ t.csr = s.csr ∧ t.counter pgTim 4 = s.counter pgTim 4 + 1
        ∧ t.tim = { s.tim with syncSeq := (s.tim.syncSeq + 1) % 65536 }
        ∧ (let n := s.tim.syncSeq
          let log := wrapInt 8 (sext 4 (s.fld pgTim TIM_PTP_CTL_LOG_SYNC))
          let now := beBytes 6 s.time.sec ++ beBytes 4 s.time.ns
          t.out = s.out ++ (if s.flag pgTim TIM_PTP_CTL_TWO_STEP
            then [.ether (ptpFrame s 319 (ptpBytes s 0 0x0200 n 0 log (List.replicate 10 0))), .ether (ptpFrame s 320 (ptpBytes s 8 0 n 2 log now))]
            else [.ether (ptpFrame s 319 (ptpBytes s 0 0 n 0 log now))])))
      ∧ After .ptpAnnounceSend s (fun t => Quiet s t ∧ t.csr = s.csr ∧ t.tim = { s.tim with annSeq := (s.tim.annSeq + 1) % 65536 }
        ∧ ∃ f, t.out = s.out ++ [.ether (ptpFrame s 320 (ptpBytes s 11 f s.tim.annSeq 5 (s.fld pgTim TIM_PTP_CTL_LOG_ANN) (announceBody s)))])
      ∧ (∀ n q (at_ : Time) rest, OldestIn s (.ptp n q at_) rest →
        After .ptpDelayReqReceive s (fun t => Quiet s t ∧ t.csr = s.csr ∧ t.counter pgTim 5 = s.counter pgTim 5 + 1 ∧ t.host.inq = rest
          ∧ .ether (ptpFrame s 320 (ptpBytes s 9 0 n 3 (s.fld pgTim TIM_PTP_CTL_LOG_DREQ) (beBytes 6 at_.sec ++ beBytes 4 at_.ns ++ q))) ∈ t.out)))
    ∧ (s.flag pgHpt HPT_LSTAT_LINK_UP = false →
      After .ptpSyncSend s (fun t => Quiet s t ∧ t.csr = s.csr ∧ t.counter pgTim 4 = s.counter pgTim 4 ∧ t.out = s.out))

/-! ### Faults, temperature and power -/

/-- On the ten kinds of page named, an occurrence shows in ERR_STAT, and unmasked it fills ERR_FIRST or merges and reports with its
actions, a corrected one without reaction counting as skipped; on every page ERR_FIRST clears when all of it was seen; an action word is
written where the page is not locked, a RATE that the class does not have being refused, and a write to a locked one is recorded; an
injection is armed, occurs at once in mode 2, or is refused. (R420 to R425, R430, R438 to R441, R519) That RATE_SKIPPED counts every
corrected occurrence without reaction is the model's reading (log entry 9). -/
def Obligations.ErrorPagesRecord : Prop :=
  ∀ (s : State) (p : BitVec 16) (src : Fin 32) (t : PageType) (i cls : Nat) (chk latch : Bool), s.pins.pwrGood = true →
    pageOf s.fuses.part p.toNat = some (t, i) → sourceOf t src = some (cls, chk, latch) →
    let pg := p.toNat
    (∀ d : BitVec 16, t ∈ ([.mbr, .tim, .flt, .thm, .pwr, .hpt, .sec, .eas, .stl, .key] : List PageType) →
      After (.errorOccurrence p src d) s (fun u => Quiet s u ∧ Recorded u pg src ∧ SameRegs s u (ErrHead pg)
        ∧ (bitAt (s.reg pg 0x024) src = true → u.reg pg 0x02C = s.reg pg 0x02C ∧ u.hub = { s.hub with csrBad := u.hub.csrBad })
        ∧ (bitAt (s.reg pg 0x024) src = false → cls = 0 → bits (s.reg pg (actionOff src)) 5 0 = 0 → u.counter pgFlt 5 = s.counter pgFlt 5 + 1)
        ∧ (bitAt (s.reg pg 0x024) src = false → s.flag pg ERR_FIRST_VALID = false →
            u.reg pg 0x02C = BitVec.ofNat 32 (0x80000000 + 0x20000000 * cls + 0x1000000 * src.val + d.toNat))
        ∧ (bitAt (s.reg pg 0x024) src = false → s.flag pg ERR_FIRST_VALID = true →
            u.fld pg ERR_FIRST_MCOUNT = min 255 (s.fld pg ERR_FIRST_MCOUNT + 1) ∧ bitAt (u.reg pg 0x030) src = true
              ∧ u.fld pg ERR_FIRST_SOURCE = s.fld pg ERR_FIRST_SOURCE)
        ∧ (bitAt (s.reg pg 0x024) src = false → cls ≠ 0 → bits (s.reg pg (actionOff src)) 5 0 ≠ 0 →
            ∃ r, u.hub.reports = s.hub.reports ++ [r] ∧ r.page = pg ∧ r.src = src.val ∧ r.cls = cls ∧ r.detail = d.toNat
              ∧ r.ns = s.time.ns ∧ r.sec = s.time.sec ∧ r.actions = bits (s.reg pg (actionOff src)) 5 0)))
    ∧ After (.errFirstRead p) s (fun u => Quiet s u ∧ u.csr = s.csr ∧ smHas u.hub.arrived pg = false)
    ∧ (∀ v : Word,
        let seen := bitAt v 31 = true ∧ s.flag pg ERR_FIRST_VALID = true ∧ bits v 23 16 = s.fld pg ERR_FIRST_MCOUNT ∧ smHas s.hub.arrived pg = false
        After (.errFirstClear p v) s (fun u => Quiet s u ∧ (¬ seen → u.csr = s.csr)
          ∧ (seen → u.flag pg ERR_FIRST_VALID = false ∧ u.fld pg ERR_FIRST_MCOUNT = 0 ∧ u.reg pg 0x030 = 0 ∧ SameRegs s u (ErrHead pg))))
    ∧ (∀ v : Word, s.flag pg PG_CTRL_LOCK = false → cls = 0 ∨ bits v 11 8 = 0 →
        After (.errActionWrite p src v) s (fun u => Quiet s u
          ∧ u.reg pg (actionOff src) = putBits (putBits (s.reg pg (actionOff src)) 5 0 (actionAsked t cls v)) 11 8 (bits v 11 8)
          ∧ SameRegs s u (fun q o => regKey q o = regKey pg (actionOff src))))
    ∧ (∀ v : Word, s.flag pg PG_CTRL_LOCK = false → cls ≠ 0 → bits v 11 8 ≠ 0 →
        After (.errActionWrite p src v) s (fun u => Quiet s u ∧ u.flag pg PG_STAT_REFUSED = true
          ∧ u.reg pg (actionOff src) = putBits (s.reg pg (actionOff src)) 5 0 (actionAsked t cls v)))
    ∧ (∀ v : Word, s.flag pg PG_CTRL_LOCK = true →
        After (.errActionWrite p src v) s (fun u => Quiet s u ∧ u.reg pg (actionOff src) = s.reg pg (actionOff src)
          ∧ (bits v 11 8 ≠ bits (s.reg pg (actionOff src)) 11 8 → u.flag pg PG_STAT_LOCKED_WR = true)))
    ∧ (∀ v : Word, bitAt v 8 = true → bits v 4 0 = src.val →
        After (.errInjectArm p v) s (fun u => Quiet s u
          ∧ (injectRefused s pg v = true → u.flag pg ERR_INJECT_REFUSED = true ∧ u.flag pg ERR_INJECT_ARM = s.flag pg ERR_INJECT_ARM)
          ∧ (injectRefused s pg v = false → bits v 11 10 = 2 → Recorded u pg src ∧ u.flag pg ERR_INJECT_ARM = false)
          ∧ (injectRefused s pg v = false → bits v 11 10 ≠ 2 → u.flag pg ERR_INJECT_ARM = true ∧ u.fld pg ERR_INJECT_SOURCE = src.val
              ∧ u.fld pg ERR_INJECT_MODE = bits v 11 10 ∧ u.fld pg ERR_INJECT_NSYM = bits v 14 12)))

/-- The hub logs the oldest report and keeps one that asks for the fault state, the first, or of one instant that of the lowest page, as
FCAUSE; a trap is taken; the hold of an
interrupt ends with an event of what it held back, or ends; a block reset empties the block's queues and an array's banks. (R426 to
R428, R431) Rests also on the model's own reading or choice in log entries 8, 57, 68. -/
def Obligations.HubReacts : Prop :=
  ∀ (s : State), s.pins.pwrGood = true →
    (∀ r rest, s.hub.reports = r :: rest → s.inFault = false → r.actions.testBit 5 = true → r.actions.testBit 0 = false → r.actions.testBit 1 = false →
      let k := s.fld pgFlt FLT_LOG_HEAD
      let first := s.hub.entries = [] ∨ ∃ h tl, s.hub.entries = h :: tl ∧ h.ns = r.ns ∧ h.sec = r.sec ∧ r.page < h.page
      After .faultHubReport s (fun t => Quiet s t ∧ t.fld pgFlt FLT_LOG_HEAD = (k + 1) % 2 ^ 32 ∧ t.hub.reports = rest
        ∧ (∀ i : Fin 4, t.reg pgFlt (0x400 + 16 * (k % 64) + 4 * i) = BitVec.ofNat 32 (leAt r.bytes (4 * i) 4))
        ∧ t.inFault = false
        ∧ (¬ first → t.hub.entries = s.hub.entries ++ [r])
        ∧ (first → t.hub.entries = r :: s.hub.entries ∧ t.flag pgFlt FLT_FCAUSE_VALID = true ∧ t.fld pgFlt FLT_FCAUSE_PAGE = r.page % 2 ^ 20
            ∧ t.fld pgFlt FLT_FCAUSE_SOURCE = r.src % 32 ∧ t.fld pgFlt FLT_FCAUSE_CLASS = r.cls % 4)))
    ∧ After .trapTake s (fun t => Quiet s t ∧ t.hub = { s.hub with traps := s.hub.traps.drop 1 }
        ∧ t.fld pgEas EAS_TRAPQ_DEPTH = (s.hub.traps.drop 1).length % 128 ∧ SameRegs s t (WordOf pgEas EAS_TRAPQ_DEPTH))
    ∧ (∀ (p : BitVec 16) (src : Fin 32) (n : Nat) (r : Report), smFind s.hub.hold (32 * p.toNat + src) = some ⟨n, some r⟩ →
        countIf (fun x => x.keeps) (s.events ++ s.host.unacked.map (·.2)) < 64 →
      After (.irqHoldExpiry p src) s (fun t => Quiet s t ∧ t.csr = s.csr ∧ smFind t.hub.hold (32 * p.toNat + src) = some ⟨0, none⟩
        ∧ ∃ e, t.events = s.events ++ [e] ∧ e.kind = 4 ∧ e.count = min n 0xFFFF ∧ e.log = r.bytes))
    ∧ (∀ (p : BitVec 16) (src : Fin 32) (n : Nat), smFind s.hub.hold (32 * p.toNat + src) = some ⟨n, none⟩ →
      After (.irqHoldExpiry p src) s (fun t => Quiet s t ∧ t.csr = s.csr ∧ t.events = s.events ∧ smFind t.hub.hold (32 * p.toNat + src) = none))
    ∧ (∀ (c : CoreId) (k : Fin 4), (8 * c.val + 1 + k.val) ∈ s.hub.brst →
        (∀ i ∈ blockInsts k, ∀ id ∈ queueOf s c k i, smHas s.cmds id = true ∧ (s.cmd id).core = c ∧ (k.val, i) ∈ unitsOf (s.cmd id).desc) →
      After (.blockReset c k) s (fun t => (8 * c.val + 1 + k.val) ∉ t.hub.brst
        ∧ (∀ i ∈ blockInsts k, queueOf t c k i = [])
        ∧ (k = 0 → ∀ a : ArrId, ((t.core c).arr a).bankA = Bank.init ∧ ((t.core c).arr a).bankB = Bank.init ∧ ((t.core c).arr a).density = 0)))

/-- ERR_N is asserted, held for its minimum, released and deferred as its phases say; entry to the fault state ends every command and
transfer and changes no byte of memory; a refused exit changes EXIT_REF alone; an accepted one resets commands, flags and stage, counts
in RCOUNT and shows WARM; RCLR clears the count. (R429, R432 to R436, R495) Rests also on the model's own reading or choice in log
entries 56, 64, 70. -/
def Obligations.FaultStateRuns : Prop :=
  (∀ (s : State), s.pins.pwrGood = true →
      (0 < s.hub.pinReq →
        After .errNAssert s (fun t => Quiet s t ∧ t.hub.pinReq = s.hub.pinReq - 1
          ∧ (s.hub.phase = .high → t.pins.errLow = true ∧ t.flag pgFlt FLT_PIN_CTL_LEVEL = true ∧ t.flag pgFlt FLT_PIN_CTL_HOLD = true ∧ t.hub.phase = .lowMin)
          ∧ (s.hub.phase = .lowMin ∨ s.hub.phase = .low → t.pins = s.pins ∧ t.flag pgFlt FLT_PIN_CTL_HOLD = true ∧ t.hub.relPend = false ∧ t.hub.phase = s.hub.phase)
          ∧ (s.hub.phase = .released → t.pins = s.pins ∧ t.csr = s.csr ∧ t.hub.deferred = true ∧ t.hub.phase = .released)))
      ∧ (s.hub.phase = .lowMin →
        After .errNMinExpiry s (fun t => Quiet s t
          ∧ (s.hub.relPend = true → t.pins.errLow = false ∧ t.flag pgFlt FLT_PIN_CTL_LEVEL = false ∧ t.hub.phase = .released)
          ∧ (s.hub.relPend = false → t.pins = s.pins ∧ t.csr = s.csr ∧ t.hub.phase = .low)))
      ∧ (s.hub.phase = .released →
        After .errNHighExpiry s (fun t => Quiet s t
          ∧ (s.hub.deferred = true → t.pins.errLow = true ∧ t.flag pgFlt FLT_PIN_CTL_LEVEL = true ∧ t.hub.phase = .lowMin)
          ∧ (s.hub.deferred = false → t.pins = s.pins ∧ t.csr = s.csr ∧ t.hub.phase = .high)))
      ∧ (s.flag pgFlt FLT_PIN_CTL_HOLD = true →
        After .pinHoldRelease s (fun t => Quiet s t ∧ t.flag pgFlt FLT_PIN_CTL_HOLD = false
          ∧ (s.hub.phase = .lowMin → t.pins = s.pins ∧ t.hub.relPend = true)
          ∧ (s.hub.phase = .low → t.pins.errLow = false ∧ t.hub.phase = .released))))
  ∧ (∀ (s : State), s.pins.pwrGood = true →
      (s.hub.entries ≠ [] → s.hub.crst = false →
        After .faultStateEntry s (fun t => Quiet s t ∧ t.inFault = true ∧ t.flag pgFlt FLT_FSTAT_QUIET = false
          ∧ t.fld pgFlt FLT_FT_NS = s.time.ns % 2 ^ 32 ∧ t.cmds = [] ∧ t.hub.entries = [] ∧ t.counter pgFlt 0 = s.counter pgFlt 0 + 1
          ∧ t.net.rxq = [] ∧ t.net.fwd = [] ∧ t.coll.ctxs = [] ∧ (smWf CoreSt.init s.cores = true → ∀ c : CoreId, (t.core c).vec.queue = [] ∧ (t.core c).window = (s.core c).window)))
      ∧ (s.inFault = true → s.flag pgFlt FLT_FSTAT_QUIET = false → s.flag pgFlt FLT_FCTRL_AUTO = false →
        After .quietExpiry s (fun t => Quiet s t ∧ t.flag pgFlt FLT_FSTAT_QUIET = true ∧ t.inFault = true ∧ SameRegs s t (WordOf pgFlt FLT_FSTAT_QUIET)))
      ∧ (¬ (s.inFault = true ∧ s.flag pgFlt FLT_FSTAT_QUIET = true ∧ s.flag pgFlt FLT_FSTAT_LATCHED = false) →
        After .fctrlExitWrite s (fun t => Quiet s t ∧ t.flag pgFlt FLT_FSTAT_EXIT_REF = true ∧ SameRegs s t (WordOf pgFlt FLT_FSTAT_EXIT_REF)))
      ∧ (s.inFault = true → s.flag pgFlt FLT_FSTAT_QUIET = true → s.flag pgFlt FLT_FSTAT_LATCHED = false → (∀ e ∈ s.thm.temps, e.1 < 128) →
        After .fctrlExitWrite s (fun t => t.inFault = false ∧ t.fld pgFlt FLT_FSTAT_RCOUNT = min 255 (s.fld pgFlt FLT_FSTAT_RCOUNT + 1)
          ∧ t.counter pgFlt 1 = s.counter pgFlt 1 + 1 ∧ t.flag pgSec SEC_BSTAT_WARM = true ∧ stage t = 0 ∧ t.cmds = [] ∧ t.flags = [] ∧ t.fpois = []
          ∧ t.cores = [] ∧ t.host.sess = [] ∧ t.flag pgTim TIM_TSTAT_HOLDOVER = true))
      ∧ (s.inFault = false ∨ s.flag pgFlt FLT_FCTRL_AUTO = false →
        After .fctrlRclr s (fun t => Quiet s t ∧ t.fld pgFlt FLT_FSTAT_RCOUNT = 0 ∧ SameRegs s t (WordOf pgFlt FLT_FSTAT_RCOUNT))))

/-- With every member below CRIT a sample shows in SENS and a sensor that fails its self-check or is silent is broken, THM source 4; a
member that comes to CRIT takes the rails off with ERR_N low. (R447, R449, R450, R461) Rests also on the model's own reading or choice
in log entries 63, 66. -/
def Obligations.SensorsReport : Prop :=
  ∀ (s : State) (n : Nat) (x : Int), monitored s n = true → smHas s.thm.broken n = false → s.pins.vin = true →
    (-320 ≤ x → x ≤ 1000 →
      (Cool (latchThm s) → (∀ m, memberOf n = some m → x < threshold (latchThm s) THM_THR_CRIT m) →
        After (.sensorSample [⟨n, x⟩]) s (fun t => Quiet s t ∧ t.pins.pwrGood = s.pins.pwrGood ∧ smFind t.thm.temps n = some x
          ∧ t.fld pgThm (THM_SENS_TEMP.at (4 * n)) = wrapInt 12 x ∧ t.counter pgThm 1 = s.counter pgThm 1 + 1))
      ∧ (∀ m, memberOf n = some m → threshold (latchThm s) THM_THR_CRIT m ≤ x → smHas s.thm.crit m = false →
        After (.sensorSample [⟨n, x⟩]) s (fun t => t.pins.pwrGood = false ∧ t.pins.lockout = true ∧ t.pins.errLow = true
          ∧ t.flag pgThm THM_CRIT_LOG_VALID = true)))
    ∧ (∀ k : Fin 128, n = k.val →
      exec (.sensorSelfCheck k true) s = .next s
      ∧ (Cool s → (∀ m, memberOf n = some m → 1016 < threshold s THM_THR_CRIT m) →
        let shown (cause : Nat) (t : State) := Quiet s t ∧ t.pins.pwrGood = s.pins.pwrGood ∧ smFind t.thm.broken n = some cause ∧ Recorded t pgThm 4
          ∧ t.flag pgThm (THM_SENS_BROKEN.at (4 * n)) = true ∧ t.fld pgThm (THM_SENS_CAUSE.at (4 * n)) = cause
          ∧ t.fld pgThm (THM_SENS_TEMP.at (4 * n)) = 1016
        After (.sensorSelfCheck k false) s (shown 1) ∧ After (.sensorSilentExpiry k) s (shown 3))
      ∧ (Cool s → ∀ m, memberOf n = some m → threshold s THM_THR_CRIT m ≤ 1016 → smHas s.thm.crit m = false →
        let off (t : State) := t.pins.pwrGood = false ∧ t.pins.lockout = true ∧ t.pins.errLow = true ∧ t.flag pgThm THM_CRIT_LOG_BROKEN = true
        After (.sensorSelfCheck k false) s off ∧ After (.sensorSilentExpiry k) s off))

/-- Enforcement raises a hot die's step by one with THM source 2 and relief lowers a cool one's; the power average shows and is PWR
source 0 above the limit; the effective step is the largest contribution; holds and clamps end and are relieved below half the rate
limit. (R453, R454, R456, R459, R460, R466, R470) -/
def Obligations.Throttling : Prop :=
  (∀ (d : DieId) (watts : BitVec 16) (s : State), s.pins.pwrGood = true → s.pins.vin = true →
      let x := s.thmDie d
      let raised (t : State) := Quiet s t ∧ (t.thmDie d).therm = x.therm + 1 ∧ (t.thmDie d).hot = x.hot ∧ Recorded t pgThm 2
        ∧ t.counter pgPwr 0 = s.counter pgPwr 0 + 1
      (x.grace = true → x.hot = true → After (.graceExpiry d) s (fun t => raised t ∧ (t.thmDie d).grace = false))
      ∧ (x.grace = true → x.hot = false → After (.graceExpiry d) s (fun t => Quiet s t ∧ t.thmDie d = { x with grace := false }))
      ∧ (x.hot = true → x.therm ≠ 0 → x.therm < 7 → After (.enforceStepExpiry d) s raised)
      ∧ (x.cool = true → x.therm ≠ 0 → After (.reliefStepExpiry d) s (fun t => Quiet s t ∧ t.thmDie d = { x with therm := x.therm - 1 }))
      ∧ (Cool s → After (.powerLimitAverage watts) s (fun t => Quiet s t ∧ t.fld pgPwr PWR_PIN_POWER = watts.toNat
          ∧ t.thm.plimHot = decide (s.fld pgPwr PWR_PLIMIT_WATTS < watts.toNat)
          ∧ (s.fld pgPwr PWR_PLIMIT_WATTS < watts.toNat → s.thm.plimHot = false → Recorded t pgPwr 0))))
  ∧ (∀ (d : DieId) (s : State), s.pins.pwrGood = true →
      let x := s.thmDie d
      After (.throttleStepChange d) s (fun t => Quiet s t
          ∧ t.fld pgPwr (PWR_STEP_EFF.at (4 * d)) = max (max x.therm x.clamp) (s.fld pgPwr PWR_PCTRL_CAP_STEP) % 8
          ∧ SameRegs s t (WordOf pgPwr (PWR_STEP_EFF.at (4 * d)))
          ∧ (x.clamp = 0 → t.cores = s.cores)
          ∧ (x.clamp ≠ 0 → ∀ (c : CoreId) (a : ArrId), c.val / 288 = d.val → ((t.core c).arr a).shade = .idle ∧ ((t.core c).arr a).density = 0))
      ∧ (∀ v : Fin 8, After (.capStepWrite v) s (fun t => Quiet s t ∧ t.fld pgPwr PWR_PCTRL_CAP_STEP = v
          ∧ SameRegs s t (WordOf pgPwr PWR_PCTRL_CAP_STEP)))
      ∧ (∀ south : Bool,
          let side := if south then 1 else 0
          let held := s.thm.holds.filter (fun k => k / 4 == side)
          held ≠ [] → ratesLow s ((List.range 36).map (fun j => 36 * side + j) ++ held.flatMap (fun k => [88 + 2 * k, 89 + 2 * k])) = true →
          After (.holdReleaseExpiry south) s (fun t => Quiet s t ∧ t.thm.holds = s.thm.holds.filter (fun k => k / 4 != side)
            ∧ t.thm.dies = s.thm.dies))
      ∧ (x.clamping = true → ratesLow s ((List.range 9).map (fun j => 9 * d.val + j) ++ [88 + 2 * d.val, 89 + 2 * d.val]) = true →
          After (.clampEndExpiry d) s (fun t => Quiet s t ∧ t.thmDie d = { x with clamping := false, clamp := x.clamp - 1 }))
      ∧ (x.clamping = false → x.clamp ≠ 0 →
          After (.clampReliefStep d) s (fun t => Quiet s t ∧ t.thmDie d = { x with clamp := x.clamp - 1 })))

/-- Three moments move the block: an idle block that nothing wants enters its tolerated state, one that is wanted wakes, and one whose
wake is done is active. A plate that leaves retention is lost, PLT source 4, where a channel does not answer its interface check, and
stays as it was where all answer. (R219, R462 to R465) Rests also on the model's own reading or choice in log entry 59. -/
def Obligations.PowerStatesMove : Prop :=
  ∀ (page : BitVec 16) (sub : ArrId) (b : Sleeper) (s : State), s.pins.pwrGood = true → sleeperOf s page.toNat sub = some b →
    let tol := s.fld page.toNat PG_LATTOL_TOL
    (powerOf s b < tol → wakingOf s b = false → sleeperIdle s b = true → sleeperWanted s b = false →
      After (.powerStateEntry page sub) s (fun t => Quiet s t ∧ powerOf t b = tol ∧ wakingOf t b = false
        ∧ SameRegs s t (WordOf page.toNat PG_LATTOL_STATE)
        ∧ ((∀ c a, b ≠ .arr c a) → t.fld page.toNat PG_LATTOL_STATE = tol)))
    ∧ (powerOf s b ≠ 0 → sleeperWanted s b = true ∨ (∃ k, b = .plt k) →
      After (.powerStateWake page sub) s (fun t => Quiet s t ∧ t.csr = s.csr ∧ powerOf t b = powerOf s b ∧ wakingOf t b = true))
    ∧ (wakingOf s b = true →
      let woken (t : State) := powerOf t b = 0 ∧ wakingOf t b = false
      After (.wakeReady page (.array sub)) s woken ∧ (sub = 0 → After (.wakeReady page .block) s woken)
      ∧ (sub = 0 → ∀ mute : Option (Fin 64), After (.wakeReady page (.plate mute)) s (fun t => woken t
        ∧ ∀ k, b = .plt k → Quiet s t
          ∧ (powerOf s b < 3 ∨ mute = none → SameRegs s t (WordOf page.toNat PG_LATTOL_STATE))
          ∧ (3 ≤ powerOf s b → ∀ ch, mute = some ch → s.flag (pgPlt k) PLT_PSTAT_LOST = false →
              t.flag (pgPlt k) PLT_PSTAT_LOST = true ∧ t.fld (pgPlt k) PLT_PSTAT_FAIL_CH = ch ∧ Recorded t (pgPlt k) 4))))

/-! ### The host port -/

/-- The link comes up and goes down; a frame its FEC or FCS condemns is recorded and counted, one not accepted is counted, an accepted
one waits; an MCT message with a bad CRC is HPT source 3; a request in order is taken; OPEN brings a session or BUSY; ACK ends events;
ARP, ND and PFC are answered or obeyed as configured, and what a pause held back leaves when it ends. (R473 to R478, R481, R483, R487, R491) Rests also on the model's own reading or
choice in log entries 79, 80, 116. -/
def Obligations.HostFrames : Prop :=
  (∀ (s : State) (fr : HostFrame), s.pins.pwrGood = true →
      After .hostLinkUp s (fun t => Quiet s t ∧ t.flag pgHpt HPT_LSTAT_LINK_UP = true ∧ SameRegs s t (WordOf pgHpt HPT_LSTAT_LINK_UP))
      ∧ (s.flag pgHpt HPT_LSTAT_LINK_UP = true → NoInjection s pgHpt →
        After .hostLinkDown s (fun t => Quiet s t ∧ t.flag pgHpt HPT_LSTAT_LINK_UP = false ∧ Recorded t pgHpt 1)
        ∧ After (.hostFrameReceive fr) s (fun t => SameFlags s t ∧ t.counter pgHpt 2 = s.counter pgHpt 2 + BitVec.ofNat 64 fr.fecCorr)
        ∧ (0 < fr.fecLost → After (.hostFrameReceive fr) s (fun t => Quiet s t ∧ t.host = s.host
            ∧ t.counter pgHpt 3 = s.counter pgHpt 3 + BitVec.ofNat 64 fr.fecLost ∧ Recorded t pgHpt 0))
        ∧ (fr.fecLost = 0 → fcsOk fr.bytes = false →
            After (.hostFrameReceive fr) s (fun t => Quiet s t ∧ t.host = s.host ∧ t.counter pgHpt 4 = s.counter pgHpt 4 + 1 ∧ Recorded t pgHpt 2))
        ∧ (fr.fecLost = 0 → fcsOk fr.bytes = true → hostBody s fr.bytes = none →
            After (.hostFrameReceive fr) s (fun t => Quiet s t ∧ t.csr = s.csr ∧ t.host = s.host ∧ t.counter pgHpt 4 = s.counter pgHpt 4 + 1))
        ∧ (∀ body, fr.fecLost = 0 → fcsOk fr.bytes = true → hostBody s fr.bytes = some body → bufLevel s + bodySize body ≤ 4194304 →
            let waits (i : HostIn) : Prop := After (.hostFrameReceive fr) s (fun t => Quiet s t ∧ t.csr = s.csr ∧ t.host.inq = s.host.inq ++ [i]
              ∧ t.counter pgHpt 0 = s.counter pgHpt 0 + 1)
            (∀ n q, body = .ptp n q → waits (.ptp n q s.time))
            ∧ (∀ m a b, body = .arp m a b → waits (.arp m a b))
            ∧ (∀ m a b, body = .solicit m a b → waits (.solicit m a b))
            ∧ (∀ c l, body = .pfc c l → waits (.pfc c l))
            ∧ (∀ src b, body = .mct src b → mctCrcOk b = false →
                After (.hostFrameReceive fr) s (fun t => Quiet s t ∧ t.host.sess = s.host.sess ∧ t.counter pgHpt 4 = s.counter pgHpt 4 + 1 ∧ Recorded t pgHpt 3))
            ∧ (∀ src b x, body = .mct src b → mctCrcOk b = true → headerFits b = true → leAt b 1 1 ≠ 1 → leAt b 1 1 ≠ 3 →
                s.sess (leAt b 4 1) = some x → sameSrc x.src src = true → x.incarn = leAt b 16 4 → x.ack = leAt b 8 4 → smHas x.reqs x.ack = false →
                x.ack ∉ x.got →
                After (.hostFrameReceive fr) s (fun t => Quiet s t ∧ t.csr = s.csr
                  ∧ ∃ y, t.sess (leAt b 4 1) = some y ∧ smFind y.reqs x.ack = some ⟨leAt b 1 1, b.drop 24, src⟩ ∧ y.begun = true ∧ y.next = x.next
                    ∧ y.src = src)))))
  ∧ (∀ (s : State) (rest : List HostIn), s.pins.pwrGood = true →
      (∀ src seq nonce ev, OldestIn s (.opens src seq nonce ev) rest →
        (s.host.sess.find? (fun e => sameSrc e.2.src src && e.2.nonce == nonce && !e.2.begun) = none →
          (∃ k, k < 16 ∧ smHas s.host.sess k = false) →
          After .openSession s (fun t => Quiet s t ∧ t.csr = s.csr ∧ t.host.inq = rest
            ∧ ∃ k x, k < 16 ∧ smHas s.host.sess k = false ∧ t.sess k = some x ∧ x.src = src ∧ x.nonce = nonce ∧ x.events = ev ∧ x.reqs = [] ∧ x.next = 0
              ∧ x.incarn ≠ 0 ∧ x.incarn < 2 ^ 32 ∧ x.incarn ≠ smGet 0 s.host.incarn k
              ∧ (ev = true → t.host.evSess = some k ∧ t.host.unacked = [] ∧ t.events = s.host.unacked.map (·.2) ++ s.events)
              ∧ ∀ j, j ≠ k → t.sess j = s.sess j))
        ∧ (s.host.sess.find? (fun e => sameSrc e.2.src src && e.2.nonce == nonce && !e.2.begun) = none → (∀ k, k < 16 → smHas s.host.sess k = true) →
          After .openSession s (fun t => Quiet s t ∧ t.csr = s.csr ∧ t.host.inq = rest ∧ t.host.sess = s.host.sess
            ∧ (s.flag pgHpt HPT_LSTAT_LINK_UP = true → mctPaused s = false → .ether (mctFrame s src (mctBytes 1 3 0x81 0xFF seq 0 0 [])) ∈ t.out)
            ∧ (mctPaused s = true → t.host.queued = s.host.queued ++ [mctFrame s src (mctBytes 1 3 0x81 0xFF seq 0 0 [])]))))
      ∧ (∀ k a, OldestIn s (.acks k a) rest →
        After .mctAck s (fun t => Quiet s t ∧ t.csr = s.csr ∧ t.host.inq = rest ∧ t.host.sess = s.host.sess
          ∧ (s.host.evSess = some k → seqBefore s.host.evNext a = false → t.host.unacked = s.host.unacked.filter (fun e => !seqBefore e.1 a))
          ∧ (s.host.evSess ≠ some k → t.host.unacked = s.host.unacked)))
      ∧ (∀ m i a, OldestIn s (.arp m i a) rest →
        After .arpRequest s (fun t => Quiet s t ∧ t.csr = s.csr ∧ t.host.inq = rest
          ∧ (s.flag pgHpt HPT_HCTRL_IPV4_EN = true → a ≠ 0 → ownIpv4 s = a → s.flag pgHpt HPT_LSTAT_LINK_UP = true → .ether (arpReply s m i) ∈ t.out)))
      ∧ (∀ m i a, OldestIn s (.solicit m i a) rest →
        After .neighborSolicitation s (fun t => Quiet s t ∧ t.csr = s.csr ∧ t.host.inq = rest
          ∧ (s.flag pgHpt HPT_HCTRL_IPV6_EN = true → ownIpv6 s = a → s.flag pgHpt HPT_LSTAT_LINK_UP = true → .ether (advertisement s m i) ∈ t.out)))
      ∧ (∀ c l, OldestIn s (.pfc c l) rest →
        After .pfcFrameReceive s (fun t => Quiet s t ∧ t.csr = s.csr ∧ t.host.inq = rest
          ∧ (t.host.paused = if s.flag pgHpt HPT_HCTRL_PFC_EN = true ∧ c.testBit (s.fld pgHpt HPT_PFC_PRIO) = true
              then l.getD (s.fld pgHpt HPT_PFC_PRIO) 0 != 0 else s.host.paused)
          ∧ (s.flag pgHpt HPT_HCTRL_PFC_EN = true → c.testBit (s.fld pgHpt HPT_PFC_PRIO) = true → l.getD (s.fld pgHpt HPT_PFC_PRIO) 0 = 0 →
              s.flag pgHpt HPT_LSTAT_LINK_UP = true → t.host.queued = [] ∧ t.out = s.out ++ s.host.queued.map OutMsg.ether))))

/-- Each of the ten kinds of request that are answered at once leaves its effect, its answer goes out and is kept, and the next may start;
before STAGE 1 it is denied without effect. A MEM_WR, too, is answered at once where none of its writes is in flight; otherwise the next
may start, and the answer goes out when the last of its writes commits. (R48, R484 to R486, R489, R499, R507 to R509) Rests also on the
model's own reading or choice in log entries 36 and 78. -/
def Obligations.RequestsAreServed : Prop :=
  ∀ (k : SessId) (s : State) (x : SessSt) (r : HostReq), s.pins.pwrGood = true →
    let answered (a : Answer) (t : State) : Prop := ∃ y, t.sess k = some y ∧ y.next = (x.next + 1) % 2 ^ 32 ∧ y.busy = false
      ∧ y.cache.head? = some ⟨r.typ, x.next, a.1, a.2.1⟩ ∧ smHas y.reqs x.next = false
      ∧ t.csr = a.2.2.csr ∧ t.mem = a.2.2.mem ∧ t.flags = a.2.2.flags
      ∧ (a.2.2.flag pgHpt HPT_LSTAT_LINK_UP = true → mctPaused a.2.2 = false →
          .ether (mctFrame a.2.2 r.src (mctBytes r.typ 1 a.1 k x.next x.ack x.incarn a.2.1)) ∈ t.out)
    (∀ e ∈ servedRows k, nextReq s k e.2.1 = some (x, r) →
      (1 ≤ stage s → (e.2.2 s r.bytes).2.2.sess k = some x → After e.1 s (answered (e.2.2 s r.bytes)))
      ∧ (stage s = 0 → After e.1 s (answered (0x82, [], s))))
    ∧ (nextReq s k (isTyp 0x20) = some (x, r) →
      let a := reqMemWr (.host k x.incarn x.next) s r.bytes
      (stage s = 0 → ackWaits s (.host k x.incarn x.next) = false → After (.memWr k) s (answered (0x82, [], s)))
      ∧ (1 ≤ stage s → ackWaits a.2.2 (.host k x.incarn x.next) = false → a.2.2.sess k = some x → After (.memWr k) s (answered a))
      ∧ (1 ≤ stage s → ackWaits a.2.2 (.host k x.incarn x.next) = true →
          exec (.memWr k) s = .next (a.2.2.setSess k { x with next := (x.next + 1) % 2 ^ 32 })))
    ∧ (∀ (c : CoreId) (pre post : List InRange) (w : InRange) (n : Nat), (s.core c).inbound = pre ++ w :: post →
      (s.core c).inbound.length ≤ 64 → w.fetched = false → (∀ y ∈ pre ++ post, y.done = false) → (∀ y ∈ pre, y.fetched = true) → w.done = false →
      w.ack = some (.host k x.incarn n) → s.sess k = some x → smFind x.reqs n = some r →
      ackWaits (s.modCore c (fun z => { z with inbound := pre ++ post })) (.host k x.incarn n) = false →
      After (.inboundWriteCommit c) s (fun t => Quiet s t ∧ t.csr = s.csr
        ∧ (∃ y, t.sess k = some y ∧ y.cache.head? = some ⟨0x20, n, 0, []⟩ ∧ smHas y.reqs n = false)
        ∧ (s.flag pgHpt HPT_LSTAT_LINK_UP = true → mctPaused s = false →
            .ether (mctFrame s r.src (mctBytes 0x20 1 0 k n x.ack x.incarn [])) ∈ t.out)))

/-- A MEMBER request waits for its bundle, or is denied without a trust set; a session that closes or is idle ends and its claims with
it; the next event goes to the event session, and the oldest unacknowledged goes again. (R397, R480, R484, R487, R488, R527) Rests also on
the model's own reading or choice in log entries 78 (a CLOSE with a payload) and 81. -/
def Obligations.SessionsRun : Prop :=
  ∀ (k : SessId) (s : State), s.pins.pwrGood = true →
    let ended (t : State) : Prop := Quiet s t ∧ t.sess k = none ∧ (∀ j, j ≠ k.val → t.sess j = s.sess j)
      ∧ ∀ r : Fin 21, s.flag pgEas (claim EAS_CLAIM_HELD r) = true → s.fld pgEas (claim EAS_CLAIM_KIND r) = 1 → s.fld pgEas (claim EAS_CLAIM_OWNER r) = k →
          t.flag pgEas (claim EAS_CLAIM_HELD r) = false
    (∀ x r, nextReq s k (isTyp 0x42) = some (x, r) →
      (s.sec.trust ≠ [] → 1 ≤ stage s →
        After (.member k) s (fun t => Quiet s t ∧ t.csr = s.csr ∧ t.sess k = some { x with busy := true }
          ∧ t.mbr = { s.mbr with inbox := s.mbr.inbox ++ [⟨r.bytes, k.val + 1⟩] } ∧ t.counter pgMbr 0 = s.counter pgMbr 0 + 1))
      ∧ (s.sec.trust = [] →
        After (.member k) s (fun t => Quiet s t ∧ t.csr = s.csr ∧ t.mbr = s.mbr ∧ ∃ y, t.sess k = some y ∧ y.next = (x.next + 1) % 2 ^ 32
          ∧ y.cache.head? = some ⟨0x42, x.next, 0x82, []⟩)))
    ∧ (∀ x r, nextReq s k (isTyp 2) = some (x, r) → After (.close k) s (fun t => ended t
        ∧ (s.flag pgHpt HPT_LSTAT_LINK_UP = true → mctPaused s = false → .ether (mctFrame s r.src (mctBytes 2 1 (if r.bytes = [] then 0 else 8) k x.next x.ack x.incarn [])) ∈ t.out)))
    ∧ (s.sess k ≠ none → After (.sessionIdleClose k) s (fun t => ended t ∧ Recorded t pgHpt 5))
    ∧ (∀ j x, s.host.evSess = some j → s.sess j = some x → s.flag pgHpt HPT_LSTAT_LINK_UP = true → mctPaused s = false →
      s.host.queued = [] →
      let msg (n : Nat) (e : HostEvent) : OutMsg := .ether (mctFrame s x.src (mctBytes 0x30 0 0 j n x.ack x.incarn e.bytes))
      (∀ e rest, s.events = e :: rest → s.host.unacked.length < 256 →
        After .eventMessageSend s (fun t => Quiet s t ∧ t.csr = s.csr ∧ t.events = rest ∧ t.out = s.out ++ [msg s.host.evNext e]
          ∧ t.host = { s.host with unacked := s.host.unacked ++ [(s.host.evNext, e)], evNext := (s.host.evNext + 1) % 2 ^ 32 }))
      ∧ (∀ n e rest, s.host.unacked = (n, e) :: rest →
        After .eventResend s (fun t => Quiet s t ∧ t.csr = s.csr ∧ t.events = s.events ∧ t.out = s.out ++ [msg n e] ∧ t.host = s.host
          ∧ t.counter pgHpt 5 = s.counter pgHpt 5 + 1)))

/-! ### Start-up and the module -/

/-- The rails come up with input voltage, mating, PWR_EN and no lockout; they go off and state is lost when mating or PWR_EN goes, and all
but fuses and pins with 54 V; an unmated module ignores PWR_EN, which counts from the mate; an excursion beyond the hard limits, or long
beyond the soft ones, locks a module out that was on. A low level of MOD_RESET_N of 10 microseconds or
more clears the fault state, its latch and the stage, keeps the FLT log and RCOUNT, and empties commands, flags, cores, lanes and
sessions; one below 1 microsecond changes nothing; between the two the effect is undefined and the model stops. (R437, R461, R518,
R533, R536, R538, R539, R541, R542) Rests also on the model's own reading or choice in log entries 56, 63, 64, 65, 66. -/
def Obligations.PowerAndReset : Prop :=
  (∀ (s : State),
      let vin (t : State) := t.fld pgPwr PWR_PIN_VIN
      let off (t : State) := t.pins.pwrGood = false ∧ t.pins.throtLow = false ∧ t.pins.ppsHigh = false
      (s.pins.vin = false → After .vinPresent s (fun t => t.pins = { s.pins with vin := true } ∧ 4000 ≤ vin t ∧ vin t ≤ 6000
          ∧ Quiet s t ∧ SameRegs s t (WordOf pgPwr PWR_PIN_VIN)))
      ∧ (∀ slot : BitVec 6, After (.prsntNMate slot) s (fun t => Quiet s t ∧ t.pins = { s.pins with mated := true, slotId := slot }
          ∧ (s.pins.pwrEn = false → t = { s with pins := t.pins })
          ∧ (s.pins.pwrEn = true → s.pins.pwrGood = false → t.thm.broken = [] ∧ t.thm.crit = [])))
      ∧ After .pwrEnAssert s (fun t => Quiet s t ∧ t.pins = { s.pins with pwrEn := true }
          ∧ (s.pins.mated = false → t = { s with pins := t.pins })
          ∧ (s.pins.mated = true → s.pins.pwrGood = false → t.thm.broken = [] ∧ t.thm.crit = []))
      ∧ (s.pins.mated = false → After .pwrEnDeassert s (fun t => t = { s with pins := { s.pins with pwrEn := false } }))
      ∧ (let ready := s.pins.vin = true ∧ s.pins.pwrEn = true ∧ s.pins.mated = true ∧ s.pins.lockout = false;
          After .pwrGoodAssert s (fun t => (ready → t = { s with pins := { s.pins with pwrGood := true } }) ∧ (¬ ready → t = s)))
      ∧ (s.pins.pwrGood = true →
          After .prsntNBreak s (fun t => off t ∧ t.pins.mated = false ∧ t.pins.errLow = false ∧ t.cmds = [] ∧ t.flags = [] ∧ t.out = s.out)
          ∧ (s.pins.mated = true → After .pwrEnDeassert s (fun t =>
              off t ∧ t.pins.pwrEn = false ∧ t.pins.lockout = false ∧ t.pins.errLow = false ∧ t.cmds = [] ∧ t.flags = [])))
      ∧ (s.pins.vin = true →
          After (.inputVoltageExcursion .normal) s (fun t => Quiet s t ∧ t.pins = s.pins ∧ 4000 ≤ vin t ∧ vin t ≤ 6000)
          ∧ After (.inputVoltageExcursion .soft) s (fun t => Quiet s t ∧ t.pins = s.pins ∧ Recorded t pgPwr 1
              ∧ ((3800 ≤ vin t ∧ vin t < 4000) ∨ (6000 < vin t ∧ vin t ≤ 6200)))
          ∧ After (.inputVoltageExcursion .absent) s (fun t => off t ∧ t.pins.vin = false ∧ t.csr = [] ∧ t.thm = ThmSt.init ∧ t.fuses = s.fuses ∧ t.out = s.out))
      ∧ (s.pins.pwrGood = true → s.pins.vin = true →
          After (.inputVoltageExcursion .softLong) s (fun t => off t ∧ t.pins.lockout = true)
          ∧ After (.inputVoltageExcursion .hard) s (fun t => off t ∧ t.pins.lockout = true ∧ (vin t < 3800 ∨ 6200 < vin t))))
  ∧ (∀ (n : Nat) (s : State), s.pins.pwrGood = true →
      (10000 ≤ n → (∀ e ∈ s.thm.temps, e.1 < 128) → After (.modReset (.rise n)) s (fun t => t.inFault = false ∧ t.flag pgFlt FLT_FSTAT_LATCHED = false
        ∧ t.fld pgFlt FLT_FSTAT_RCOUNT = s.fld pgFlt FLT_FSTAT_RCOUNT ∧ t.fld pgFlt FLT_LOG_HEAD = s.fld pgFlt FLT_LOG_HEAD
        ∧ t.reg pgThm 0x10C = s.reg pgThm 0x10C
        ∧ stage t = 0 ∧ t.cmds = [] ∧ t.flags = [] ∧ t.fpois = [] ∧ t.cores = [] ∧ t.lanes = [] ∧ t.host.sess = [] ∧ t.time = ⟨0, 0, 0⟩
        ∧ t.fuses = s.fuses ∧ t.pins.pwrGood = true ∧ t.pins.resetLow = false))
      ∧ (n < 1000 → exec (.modReset (.rise n)) s = .next { s with pins := { s.pins with resetLow := false } })
      ∧ (1000 ≤ n → n < 10000 → exec (.modReset (.rise n)) s = .fault .resetPulseUndefined))

/-- Fuses, the ROM's self-test, the image's checks and the tests of STAGE 5 come in order, a failure moving STAGE to 7; the last test
brings the device UP with its index; SVN_ADVANCE burns fuses where it may; the heartbeat counts. (R31, R370, R446, R494 to R496, R499
to R505, R529) Rests also on the model's own reading or choice in log entries 60, 62. -/
def Obligations.Startup : Prop :=
  (∀ (s : State), s.pins.pwrGood = true →
      let kinds (t : State) := t.sec.log.map (·.1)
      (s.pins.resetLow = true → exec .fuseLoad s = .next s)
      ∧ (stage s = 0 → s.pins.resetLow = false → After .fuseLoad s (fun t => stage t = 1 ∧ t.fuses = { s.fuses with svnMin := s.fuses.svnBurnt } ∧ t.sec.log = []
          ∧ t.sec.mv = List.replicate 64 0))
      ∧ (stage s = 1 →
          After (.bootRomSelfTest true true) s (fun t => Quiet s t ∧ stage t = 3 ∧ kinds t = kinds s ++ [1, 2]
            ∧ t.flag pgSec SEC_SELFTEST_SHAKE_OK = true ∧ t.flag pgSec SEC_SELFTEST_MLDSA_OK = true)
          ∧ ∀ a b : Bool, (a && b) = false → After (.bootRomSelfTest a b) s (fun t => Quiet s t ∧ stage t = 7 ∧ kinds t = kinds s ∧ Recorded t pgSec 1
            ∧ t.flag pgSec SEC_SELFTEST_SHAKE_OK = a ∧ t.flag pgSec SEC_SELFTEST_MLDSA_OK = b))
      ∧ (stage s = 4 →
          let b := bootImage s
          let reason := imageReason s.fuses b
          After .imageComplete s (fun t => Quiet s t ∧ t.sec.owner = none ∧ t.sec.img = []
            ∧ (reason = 0 → stage t = 5 ∧ t.fld pgSec SEC_SVN_RUN = leAt b 8 4 ∧ t.fld pgSec SEC_KEYSLOT_USED = leAt b 5 1 % 4
                ∧ t.flag pgEas EAS_ESTAT_FW_RUN = true ∧ kinds t = kinds s ++ [3] ++ List.replicate (leAt b 6 2) 4
                ∧ t.counter pgSec 0 = s.counter pgSec 0 + 1)
            ∧ (reason ≠ 0 → stage t = 3 ∧ t.fld pgSec SEC_BSTAT_REASON = reason ∧ Recorded t pgSec 0 ∧ kinds t = kinds s
                ∧ t.counter pgSec 3 = s.counter pgSec 3 + 1)))
      ∧ (let ready := s.flag pgMbr MBR_MSTAT_UP = true ∧ s.fuses.svnBurnt < s.fld pgSec SEC_SVN_RUN;
          After .svnAdvance s (fun t => Quiet s t
            ∧ (ready → t.fuses = { s.fuses with svnBurnt := s.fld pgSec SEC_SVN_RUN } ∧ t.flag pgSec SEC_SVN_CTL_DONE = true)
            ∧ (¬ ready → t.fuses = s.fuses ∧ t.flag pgSec SEC_SVN_CTL_REFUSED = true ∧ Recorded t pgSec 4)))
      ∧ (s.flag pgEas EAS_ESTAT_FW_RUN = true →
          After .heartbeatTick s (fun t => Quiet s t ∧ t.fld pgEas EAS_HEARTBEAT = (s.fld pgEas EAS_HEARTBEAT + 1) % 2 ^ 32
            ∧ SameRegs s t (WordOf pgEas EAS_HEARTBEAT))))
  ∧ (∀ (s : State), s.pins.pwrGood = true → stage s = 5 →
      let passed (n : Nat) (t : State) := Quiet s t ∧ stage t = 5 ∧ t.sec.tests = n
      (s.sec.tests = 0 →
        After (.plateTrainingDone []) s (fun t => passed 1 t ∧ ∀ k, k < s.fuses.part.plates → t.flag (pgPlt k) PLT_PSTAT_READY = true)
        ∧ ∀ k, platePresent s k = true → After (.plateTrainingDone [k]) s (fun t => stage t = 7))
      ∧ (s.sec.tests = 1 →
        After (.coreTestDone []) s (passed 2)
        ∧ ∀ l : List (Nat × Fin 4 × Fin 16), l ≠ [] →
            After (.coreTestDone l) s (fun t => Quiet s t ∧ stage t = 7 ∧ ∀ x ∈ l, Recorded t pgFlt (6 + x.2.1.val)))
      ∧ (s.sec.tests = 2 →
        After (.bridgeTestDone []) s (passed 3)
        ∧ ∀ l : List Nat, l ≠ [] → After (.bridgeTestDone l) s (fun t => Quiet s t ∧ stage t = 7 ∧ ∀ n ∈ l, Recorded t pgFlt (bridgeSource n)))
      ∧ (s.sec.tests = 3 → ∀ (a : StlTests) (b : List Nat) (e : List (Nat × Bool × Nat)),
        (deadPages s a = [] → After (.strelistStartupTest a b e) s (fun t => stage t = 5 ∧ t.sec.tests = 4
          ∧ ∀ d ∈ t.sec.lit, d ∈ s.sec.lit ∨ selQualified s d = true))
        ∧ (∀ p rest, deadPages s a = p :: rest → s.inFault = false → s.hub.entries = [] →
          After (.strelistStartupTest a b e) s (fun t => Quiet s t ∧ stage t = 7 ∧ t.flag pgFlt FLT_FCAUSE_VALID = true ∧ t.hub.entries ≠ [])))
      ∧ (s.sec.tests = 4 → s.inFault = false → NoInjection s pgMbr →
        After .startupComplete s (fun t => Quiet s t ∧ stage t = 6 ∧ t.flag pgMbr MBR_MSTAT_UP = true ∧ t.fld pgMbr MBR_MSTAT_INDEX = s.pins.slotId.toNat % 32
          ∧ (∀ d, d < s.fuses.part.dies → t.flag (pgStl d) STL_SCTRL_EN = true)
          ∧ (countIf (fun i => s.pins.slotId.toNat.testBit i) (List.range 6) % 2 = 0 →
              t.flag pgMbr MBR_MSTAT_SLOT_ERR = true ∧ Recorded t pgMbr 5))))

/-! ### Register pages -/

/-- A read-write register takes its value, a read-only one and an absent page stay, a write-1-to-clear register clears what is written
1; a value above its limit is refused and a locked field stays, each recorded in PG_STAT; a write that meets an injected parity error
is FLT source 10 and nothing else, and one that met a parity error already recorded does nothing. (R15, R16, R443, R515, R516, R519, R520)
That a FLT source 10 that a checker records is of the register access that follows it is the model's choice (log entry 77). -/
def Obligations.RegistersAreWritten : Prop :=
  ∀ (w : Writer) (v : Word) (s : State), s.pins.pwrGood = true →
    let put (page : Nat) (off : BitVec 12) : Instr := .csrRegisterWrite w (BitVec.ofNat 16 page) off v
    let only (t : State) (page off : Nat) : Prop := Quiet s t ∧ SameRegs s t (fun p o => regKey p o = regKey page off)
    (s.hub.csrBad = true → After (put pgMbr 0x12C) s (fun t => t = { s with hub := { s.hub with csrBad := false } }))
    ∧ (NoInjection s pgFlt → s.hub.csrBad = false →
      After (put pgMbr 0x12C) s (fun t => t.reg pgMbr 0x12C = v ∧ only t pgMbr 0x12C)
      ∧ After (put pgMbr 0x108) s (fun t => Quiet s t ∧ SameRegs s t (fun _ _ => False))
      ∧ (∀ (page : BitVec 16) (off : BitVec 12), pageOf s.fuses.part page.toNat = none → exec (.csrRegisterWrite w page off v) s = .next s)
      ∧ (∀ page : BitVec 16, pageOf s.fuses.part page.toNat ≠ none →
          After (.csrRegisterWrite w page 0x020 v) s (fun t => t.reg page.toNat 0x020 = s.reg page.toNat 0x020 &&& ~~~v ∧ only t page.toNat 0x020))
      ∧ (s.flag pgPwr PG_CTRL_LOCK = false → bits v 15 0 ≤ s.fuses.part.tdp →
          After (put pgPwr 0x104) s (fun t => t.fld pgPwr PWR_PLIMIT_WATTS = bits v 15 0 ∧ only t pgPwr 0x104))
      ∧ (s.flag pgPwr PG_CTRL_LOCK = false → s.fuses.part.tdp < bits v 15 0 →
          After (put pgPwr 0x104) s (fun t => t.reg pgPwr 0x104 = s.reg pgPwr 0x104 ∧ t.flag pgPwr PG_STAT_REFUSED = true ∧ only t pgPwr 0x00C
            ∧ (s.flag pgPwr PG_STAT_REFUSED = false → s.flag pgPwr PG_STAT_LOCKED_WR = false → t.fld pgPwr PG_STAT_REJ_OFF = 0x104)))
      ∧ (s.flag pgPwr PG_CTRL_LOCK = true → bits v 15 0 ≠ s.fld pgPwr PWR_PLIMIT_WATTS →
          After (put pgPwr 0x104) s (fun t => t.reg pgPwr 0x104 = s.reg pgPwr 0x104 ∧ t.flag pgPwr PG_STAT_LOCKED_WR = true ∧ only t pgPwr 0x00C)))
    ∧ (s.hub.csrBad = false → s.flag pgFlt ERR_INJECT_ARM = true → s.fld pgFlt ERR_INJECT_SOURCE = 10 → s.fld pgFlt ERR_INJECT_MODE = 0 → 0 < s.fld pgFlt ERR_INJECT_NSYM →
        After (put pgMbr 0x12C) s (fun t => Quiet s t ∧ t.reg pgMbr 0x12C = s.reg pgMbr 0x12C ∧ t.flag pgFlt ERR_INJECT_ARM = false ∧ Recorded t pgFlt 10))

/-- A low word's read captures the counter and the high word's read uses the capture up, neither changing another counter, nor its own
unless that counts cycles (the model's choice, log entry 26); CNT_CLR zeroes the page's counters alone; LOCK sets alone; a CSR_WR
packet writes in its source's name, or is MEM source 0 where no page is. (R27, R315, R516, R517, R520, R521) -/
def Obligations.PagesAndCounters : Prop :=
  ∀ (page : BitVec 16) (i : Fin 8) (s : State), s.pins.pwrGood = true →
    let p := page.toNat
    After (.cntClr page) s (fun t => Quiet s t ∧ t.csr = s.csr ∧ (∀ j : Fin 8, t.counter p j = 0) ∧ ∀ q j, q ≠ p → j < 8 → t.counter q j = s.counter q j)
    ∧ (pageOf s.fuses.part p ≠ none → After (.pageLock page) s (fun t => Quiet s t ∧ t.flag p PG_CTRL_LOCK = true ∧ SameRegs s t (WordOf p PG_CTRL_LOCK)))
    ∧ (hasCounter s p i = true →
        let others (t : State) := ∀ q (j : Fin 8), ¬ (q = p ∧ j = i) → t.counter q j = s.counter q j
        After (.counterLowRead page i) s (fun t => Quiet s t ∧ t.csr = s.csr ∧ others t ∧ smFind t.cap (8 * p + i) = some (t.counter p i)
          ∧ (cycleCounter s p i = false → t.cnt = s.cnt))
        ∧ After (.counterHighRead page i) s (fun t => Quiet s t ∧ t.csr = s.csr ∧ others t ∧ smFind t.cap (8 * p + i) = none
          ∧ (cycleCounter s p i = false ∨ smHas s.cap (8 * p + i) = true → t.cnt = s.cnt)))
    ∧ (∀ r rest, Arrives s 0x05 r rest → isDup s r.pkt = false →
        let y := csrWrite (consumed s r rest) (.device r.pkt.src) (packetPage r.pkt.addr) (csrOff (faOff r.pkt.addr)) (BitVec.ofNat 32 (leAt r.pkt.payload 0 4))
        After .csrWrPacketReceive s (fun t => (y.1 ≠ 3 → t.csr = y.2.csr ∧ t.mem = y.2.mem ∧ t.flags = y.2.flags)
          ∧ (y.1 = 3 → Quiet s t ∧ t.net.rxq = rest ∧ Recorded t pgMem 0 ∧ t.counter pgMem 4 = s.counter pgMem 4 + 1)))

/-- A free resource is claimed for the writer's kind, owner and function; a request that does not fit or meets another's claim is EAS
source 1; the holder's release, and a forced one, frees it; a claimed register is written by its holder alone; the strobe, the observed
die and the counters of the debug block follow their rules. (R525 to R528, R530, R531) Rests also on the model's own reading or choice
in log entry 71. -/
def Obligations.ClaimsAndDebug : Prop :=
  (∀ (w : Writer) (r : Fin 21) (v : Word) (s : State), s.pins.pwrGood = true → claimPresent s r = true →
      let f (x : Fld) : Fld := claim x r
      let ok := requestOk w r (putBits v 2 0 1)
      let mine := s.flag pgEas (f EAS_CLAIM_HELD) = true ∧ s.fld pgEas (f EAS_CLAIM_KIND) = bits v 30 28 ∧ s.fld pgEas (f EAS_CLAIM_OWNER) = bits v 27 14
      let refused (t : State) : Prop := Quiet s t ∧ t.reg pgEas (claimOff r) = s.reg pgEas (claimOff r) ∧ Recorded t pgEas 1
        ∧ t.counter pgEas 1 = s.counter pgEas 1 + 1 ∧ t.flag pgEas PG_STAT_REFUSED = true
      let freed (t : State) : Prop := Quiet s t ∧ t.flag pgEas (f EAS_CLAIM_HELD) = false ∧ SameRegs s t (WordOf pgEas (f EAS_CLAIM_HELD))
      (ok = true → s.flag pgEas (f EAS_CLAIM_HELD) = false →
        After (.claimAcquire w r v) s (fun t => Quiet s t ∧ t.flag pgEas (f EAS_CLAIM_HELD) = true ∧ t.fld pgEas (f EAS_CLAIM_KIND) = bits v 30 28
          ∧ t.fld pgEas (f EAS_CLAIM_OWNER) = bits v 27 14 ∧ t.fld pgEas (f EAS_CLAIM_FUNC) = bits v 13 12
          ∧ t.counter pgEas 0 = s.counter pgEas 0 + 1 ∧ SameRegs s t (WordOf pgEas (f EAS_CLAIM_HELD))))
      ∧ (ok = true → s.flag pgEas (f EAS_CLAIM_HELD) = true → ¬ mine → After (.claimAcquire w r v) s refused)
      ∧ (ok = false → After (.claimAcquire w r v) s refused)
      ∧ (requestOk w r (putBits v 2 0 2) = true →
        (mine → After (.claimRelease w r v) s freed) ∧ (¬ mine → After (.claimRelease w r v) s refused))
      ∧ (requestOk w r (putBits v 2 0 6) = true → (∀ n, w ≠ .device n) → After (.claimForceRelease w r v) s freed)
      ∧ (∀ n, w = .device n → After (.claimForceRelease w r v) s refused)
      ∧ (∀ (k : Fin 4), r.val = k.val → NoInjection s pgFlt → s.hub.csrBad = false → s.flag pgEas (f EAS_CLAIM_HELD) = true → holdsClaim s w r = false →
        After (.csrRegisterWrite w (BitVec.ofNat 16 pgTim) (BitVec.ofNat 12 (0x180 + 16 * k)) v) s (fun t => Quiet s t
          ∧ t.reg pgTim (0x180 + 16 * k) = s.reg pgTim (0x180 + 16 * k) ∧ Recorded t pgEas 1 ∧ t.counter pgEas 1 = s.counter pgEas 1 + 1)))
  ∧ (∀ (s : State), s.pins.pwrGood = true →
      let on := s.flag pgDbg DBG_DCTRL_STROBE_EN = true ∧ strobeHeld s = true ∧ s.pins.ppsHigh = false
      let pulsed (t : State) : Prop := t = { s with pins := { s.pins with ppsHigh := true, strobeLeft := 1000 } }
      (s.fld pgDbg DBG_DCTRL_STROBE_SRC = 0 → After .dbgPulse s (fun t => (on → pulsed t) ∧ (¬ on → t = s)))
      ∧ (∀ ev, s.fld pgDbg DBG_DCTRL_STROBE_SRC = strobeSrc ev → After (.dbgStrobe ev) s (fun t => (on → pulsed t) ∧ (¬ on → t = s)))
      ∧ (∀ (w : Writer) (d : DieId),
          let other := s.flag pgEas (claim EAS_CLAIM_HELD 4) = true ∧ s.fld pgEas (claim EAS_CLAIM_FUNC 4) = 1 ∧ holdsClaim s w 4 = false
          After (.dbgDieChange w d) s (fun t => Quiet s t
            ∧ (¬ other → t.fld pgDbg DBG_DCTRL_DIE = d ∧ SameRegs s t (WordOf pgDbg DBG_DCTRL_DIE)
                ∧ t.dbgRestart = (s.dbgRestart || s.fld pgDbg DBG_DCTRL_DIE != d))
            ∧ (other → t.reg pgDbg 0x100 = s.reg pgDbg 0x100 ∧ Recorded t pgEas 1)))
      ∧ (∀ a b c d : Nat, After (.dbgCounterSample a b c d) s (fun t => Quiet s t ∧ t.csr = s.csr ∧ t.dbgRestart = false
          ∧ (s.dbgRestart = true → ∀ i : Fin 4, t.counter pgDbg i = 0)
          ∧ (s.dbgRestart = false → t.counter pgDbg 0 = s.counter pgDbg 0 + BitVec.ofNat 64 a ∧ t.counter pgDbg 1 = s.counter pgDbg 1 + BitVec.ofNat 64 b
              ∧ t.counter pgDbg 2 = s.counter pgDbg 2 + BitVec.ofNat 64 c ∧ t.counter pgDbg 3 = s.counter pgDbg 3 + BitVec.ofNat 64 d))))
end

