-- ==== Sys2Proof/Laws/Ether.lean ====
section
/-!
SUPPORT. A frame that the device closes with its FCS passes the check of a receiver (R475).
-/

namespace Sys2Proof.Machine

/-- The bytes of a number give it back, less what they do not hold. -/
theorem leNat_leBytes (n v : Nat) : leNat (leBytes n v) = v % 256 ^ n := by
  induction n generalizing v with
  | zero => simp [leNat, leBytes, Nat.mod_one]
  | succ n ih =>
    rw [leBytes, leNat, ih, BitVec.toNat_ofNat, show (2 : Nat) ^ 8 = 256 from rfl, Nat.pow_succ', Nat.mod_mul]

theorem length_leBytes (n v : Nat) : (leBytes n v).length = n := by
  induction n generalizing v with
  | zero => rfl
  | succ n ih => simp [leBytes, ih]

/-- A frame with its padding and FCS is at least 64 bytes long, and the FCS is right. -/
theorem fcsOk_closeFrame (b : List Byte) : 64 ≤ (closeFrame b).length ∧ fcsOk (closeFrame b) = true := by
  have hl (p : List Byte) (n : Nat) : (p ++ leBytes 4 n).length - 4 = p.length := by simp [length_leBytes]
  have hc := (crc32 (b ++ List.replicate (60 - b.length) 0)).isLt
  refine ⟨by simp [closeFrame, length_leBytes]; omega, ?_⟩
  simp only [closeFrame, fcsOk, hl, List.take_left, leAt, List.drop_left, Bool.and_eq_true, beq_iff_eq]
  refine ⟨by simp [length_leBytes]; omega, ?_⟩
  rw [List.take_of_length_le (by simp [length_leBytes]), leNat_leBytes]
  exact (Nat.mod_eq_of_lt (Nat.lt_of_lt_of_eq hc (by decide))).symm

end Sys2Proof.Machine
end

