-- ==== Sys2Proof/Laws/Store.lean ====
section
/-!
SUPPORT. The laws of the sparse store and of memory: what a key reads after a write, and that every write keeps the canonical
form.
-/

namespace Sys2Proof.Machine

variable {α : Type}

@[simp] theorem smFind_nil (k : Nat) : smFind ([] : SMap α) k = none := rfl

theorem smFind_cons (j : Nat) (v : α) (m : SMap α) (k : Nat) :
    smFind ((j, v) :: m) k = if j = k then some v else smFind m k := rfl

/-- A key reads what was listed for it last. -/
theorem smFind_smInsert (m : SMap α) (k i : Nat) (v : α) :
    smFind (smInsert m k v) i = if k = i then some v else smFind m i := by
  induction m with
  | nil => simp [smInsert, smFind]
  | cons e m ih =>
    obtain ⟨j, w⟩ := e
    simp only [smInsert]
    split_ifs with h1 h2 h3 <;> (simp_all [smFind_cons]; try omega)

@[simp] theorem smFind_smInsert_self (m : SMap α) (k : Nat) (v : α) : smFind (smInsert m k v) k = some v := by
  simp [smFind_smInsert]

theorem smFind_smInsert_ne {m : SMap α} {k i : Nat} {v : α} (h : k ≠ i) : smFind (smInsert m k v) i = smFind m i := by
  simp [smFind_smInsert, h]

/-- Unlisting a key touches no other key. -/
theorem smFind_smErase (m : SMap α) (k i : Nat) : smFind (smErase m k) i = if k = i then none else smFind m i := by
  induction m with
  | nil => simp [smErase]
  | cons e m ih =>
    obtain ⟨j, w⟩ := e
    unfold smErase at *
    by_cases hj : j = k
    · subst hj; simp only [List.filter_cons, bne_self_eq_false, Bool.false_eq_true, if_false, ih, smFind_cons]
      split_ifs <;> rfl
    · have : (j != k) = true := by simpa using hj
      simp only [List.filter_cons, this, if_true, smFind_cons, ih]
      split_ifs <;> simp_all

@[simp] theorem smFind_smErase_self (m : SMap α) (k : Nat) : smFind (smErase m k) k = none := by
  simp [smFind_smErase]

/-- What a key reads after a write of any key. -/
theorem smGet_smSet [DecidableEq α] (d : α) (m : SMap α) (k i : Nat) (v : α) :
    smGet d (smSet d m k v) i = if k = i then v else smGet d m i := by
  unfold smGet smSet
  split_ifs <;> simp_all [smFind_smErase, smFind_smInsert]

@[simp] theorem smGet_smSet_self [DecidableEq α] (d : α) (m : SMap α) (k : Nat) (v : α) :
    smGet d (smSet d m k v) k = v := by simp [smGet_smSet]

theorem smGet_smSet_ne [DecidableEq α] {d : α} {m : SMap α} {k i : Nat} {v : α} (h : k ≠ i) :
    smGet d (smSet d m k v) i = smGet d m i := by simp [smGet_smSet, h]

@[simp] theorem smHas_smInsert_self (m : SMap α) (k : Nat) (v : α) : smHas (smInsert m k v) k = true := by
  simp [smHas]

theorem smHas_smInsert (m : SMap α) (k i : Nat) (v : α) : smHas (smInsert m k v) i = (decide (k = i) || smHas m i) := by
  simp only [smHas, smFind_smInsert]; split_ifs <;> simp_all

theorem smHas_smErase (m : SMap α) (k i : Nat) : smHas (smErase m k) i = (!decide (k = i) && smHas m i) := by
  simp only [smHas, smFind_smErase]; split_ifs <;> simp_all

/-! ### The canonical form -/

section wf
variable [DecidableEq α]

theorem smWfFrom_mono {d : α} {lo hi : Nat} {m : SMap α} (h : lo ≤ hi) (hm : smWfFrom d hi m = true) :
    smWfFrom d lo m = true := by
  cases m with
  | nil => rfl
  | cons e m =>
    obtain ⟨j, w⟩ := e
    simp only [smWfFrom, Bool.and_eq_true, decide_eq_true_eq] at hm ⊢; exact ⟨⟨by omega, hm.1.2⟩, hm.2⟩

theorem smWfFrom_smInsert {d v : α} (hv : v ≠ d) (m : SMap α) (k lo : Nat) (hk : lo ≤ k)
    (hm : smWfFrom d lo m = true) : smWfFrom d lo (smInsert m k v) = true := by
  induction m generalizing lo with
  | nil => simp [smInsert, smWfFrom, hk, hv]
  | cons e m ih =>
    obtain ⟨j, w⟩ := e
    simp only [smWfFrom, Bool.and_eq_true, decide_eq_true_eq] at hm
    simp only [smInsert]
    split_ifs with h1 h2
    · simp [smWfFrom, hk, hv, hm.1.2, hm.2]; omega
    · subst h2; simp [smWfFrom, hk, hv, hm.2]
    · have := ih (j + 1) (by omega) hm.2
      simp [smWfFrom, hm.1.1, hm.1.2, this]

theorem smWfFrom_filter {d : α} (p : Nat × α → Bool) (m : SMap α) (lo : Nat) (hm : smWfFrom d lo m = true) :
    smWfFrom d lo (m.filter p) = true := by
  induction m generalizing lo with
  | nil => simpa using hm
  | cons e m ih =>
    obtain ⟨j, w⟩ := e
    simp only [smWfFrom, Bool.and_eq_true, decide_eq_true_eq] at hm
    rw [List.filter_cons]
    split_ifs
    · simp [smWfFrom, hm.1.1, hm.1.2, ih _ hm.2]
    · exact smWfFrom_mono (by omega) (ih _ hm.2)

theorem smWf_smInsert {d v : α} {m : SMap α} (hv : v ≠ d) (hm : smWf d m = true) (k : Nat) :
    smWf d (smInsert m k v) = true := smWfFrom_smInsert hv m k 0 (Nat.zero_le _) hm

theorem smWf_filter {d : α} {m : SMap α} (p : Nat × α → Bool) (hm : smWf d m = true) : smWf d (m.filter p) = true :=
  smWfFrom_filter p m 0 hm

/-- A write keeps the canonical form. -/
theorem smWf_smSet {d : α} {m : SMap α} (hm : smWf d m = true) (k : Nat) (v : α) : smWf d (smSet d m k v) = true := by
  unfold smSet
  split_ifs with h
  · exact smWf_filter _ hm
  · exact smWf_smInsert h hm k

@[simp] theorem smWf_nil (d : α) : smWf d ([] : SMap α) = true := rfl

end wf

/-! ### Memory -/

/-- One byte after a store. -/
theorem memByte_memStore (m : Memory) (a : Nat) (bs : List Byte) (i : Nat) :
    memByte (memStore m a bs) i = if a ≤ i ∧ i < a + bs.length then bs.getD (i - a) 0 else memByte m i := by
  induction bs generalizing m a with
  | nil => simp [memStore]
  | cons b bs ih =>
    simp only [memStore, ih, List.length_cons]
    unfold memByte
    by_cases h0 : a = i
    · subst h0; simp
    · rw [smGet_smSet_ne h0]
      by_cases h1 : a ≤ i ∧ i < a + (bs.length + 1)
      · have h2 : a + 1 ≤ i ∧ i < a + 1 + bs.length := by omega
        rw [if_pos h1, if_pos h2]
        obtain ⟨n, hn⟩ : ∃ n, i - a = n + 1 := ⟨i - a - 1, by omega⟩
        have : i - (a + 1) = n := by omega
        rw [hn, this]; rfl
      · rw [if_neg h1, if_neg (by omega)]

/-- A store leaves every byte outside its range alone. -/
theorem memByte_memStore_out {m : Memory} {a i : Nat} {bs : List Byte} (h : i < a ∨ a + bs.length ≤ i) :
    memByte (memStore m a bs) i = memByte m i := by
  rw [memByte_memStore, if_neg (by omega)]

/-- A store keeps the canonical form of memory. -/
theorem memory_wf_memStore {m : Memory} (hm : Memory.wf m = true) (a : Nat) (bs : List Byte) :
    Memory.wf (memStore m a bs) = true := by
  induction bs generalizing m a with
  | nil => exact hm
  | cons b bs ih => exact ih (smWf_smSet hm a b) (a + 1)

end Sys2Proof.Machine
end

