-- ==== Sys2Proof/Laws/State.lean ====
section
/-!
SUPPORT. The fields of the state after each named update: one lemma for each field the update leaves alone, so that no later proof
unfolds an update.
-/

namespace Sys2Proof.Machine

@[simp] theorem setReg_fuses (s : State) (page off : Nat) (w : Word) :
    (State.setReg s page off w).fuses = s.fuses := by unfold State.setReg; split <;> rfl

@[simp] theorem setReg_pins (s : State) (page off : Nat) (w : Word) :
    (State.setReg s page off w).pins = s.pins := by unfold State.setReg; split <;> rfl

@[simp] theorem setReg_cnt (s : State) (page off : Nat) (w : Word) :
    (State.setReg s page off w).cnt = s.cnt := by unfold State.setReg; split <;> rfl

@[simp] theorem setReg_cap (s : State) (page off : Nat) (w : Word) :
    (State.setReg s page off w).cap = s.cap := by unfold State.setReg; split <;> rfl

@[simp] theorem setReg_hub (s : State) (page off : Nat) (w : Word) :
    (State.setReg s page off w).hub = s.hub := by unfold State.setReg; split <;> rfl

@[simp] theorem setReg_mem (s : State) (page off : Nat) (w : Word) :
    (State.setReg s page off w).mem = s.mem := by unfold State.setReg; split <;> rfl

@[simp] theorem setReg_plates (s : State) (page off : Nat) (w : Word) :
    (State.setReg s page off w).plates = s.plates := by unfold State.setReg; split <;> rfl

@[simp] theorem setReg_plateCodes (s : State) (page off : Nat) (w : Word) :
    (State.setReg s page off w).plateCodes = s.plateCodes := by unfold State.setReg; split <;> rfl

@[simp] theorem setReg_sramCodes (s : State) (page off : Nat) (w : Word) :
    (State.setReg s page off w).sramCodes = s.sramCodes := by unfold State.setReg; split <;> rfl

@[simp] theorem setReg_flags (s : State) (page off : Nat) (w : Word) :
    (State.setReg s page off w).flags = s.flags := by unfold State.setReg; split <;> rfl

@[simp] theorem setReg_fpois (s : State) (page off : Nat) (w : Word) :
    (State.setReg s page off w).fpois = s.fpois := by unfold State.setReg; split <;> rfl

@[simp] theorem setReg_cores (s : State) (page off : Nat) (w : Word) :
    (State.setReg s page off w).cores = s.cores := by unfold State.setReg; split <;> rfl

@[simp] theorem setReg_cmds (s : State) (page off : Nat) (w : Word) :
    (State.setReg s page off w).cmds = s.cmds := by unfold State.setReg; split <;> rfl

@[simp] theorem setReg_nextCmd (s : State) (page off : Nat) (w : Word) :
    (State.setReg s page off w).nextCmd = s.nextCmd := by unfold State.setReg; split <;> rfl

@[simp] theorem setReg_aqts (s : State) (page off : Nat) (w : Word) :
    (State.setReg s page off w).aqts = s.aqts := by unfold State.setReg; split <;> rfl

@[simp] theorem setReg_net (s : State) (page off : Nat) (w : Word) :
    (State.setReg s page off w).net = s.net := by unfold State.setReg; split <;> rfl

@[simp] theorem setReg_coll (s : State) (page off : Nat) (w : Word) :
    (State.setReg s page off w).coll = s.coll := by unfold State.setReg; split <;> rfl

@[simp] theorem setReg_mbr (s : State) (page off : Nat) (w : Word) :
    (State.setReg s page off w).mbr = s.mbr := by unfold State.setReg; split <;> rfl

@[simp] theorem setReg_host (s : State) (page off : Nat) (w : Word) :
    (State.setReg s page off w).host = s.host := by unfold State.setReg; split <;> rfl

@[simp] theorem setReg_sec (s : State) (page off : Nat) (w : Word) :
    (State.setReg s page off w).sec = s.sec := by unfold State.setReg; split <;> rfl

@[simp] theorem setReg_lanes (s : State) (page off : Nat) (w : Word) :
    (State.setReg s page off w).lanes = s.lanes := by unfold State.setReg; split <;> rfl

@[simp] theorem setReg_rings (s : State) (page off : Nat) (w : Word) :
    (State.setReg s page off w).rings = s.rings := by unfold State.setReg; split <;> rfl

@[simp] theorem setReg_dies (s : State) (page off : Nat) (w : Word) :
    (State.setReg s page off w).dies = s.dies := by unfold State.setReg; split <;> rfl

@[simp] theorem setReg_alloc (s : State) (page off : Nat) (w : Word) :
    (State.setReg s page off w).alloc = s.alloc := by unfold State.setReg; split <;> rfl

@[simp] theorem setReg_time (s : State) (page off : Nat) (w : Word) :
    (State.setReg s page off w).time = s.time := by unfold State.setReg; split <;> rfl

@[simp] theorem setReg_tim (s : State) (page off : Nat) (w : Word) :
    (State.setReg s page off w).tim = s.tim := by unfold State.setReg; split <;> rfl

@[simp] theorem setReg_thm (s : State) (page off : Nat) (w : Word) :
    (State.setReg s page off w).thm = s.thm := by unfold State.setReg; split <;> rfl

@[simp] theorem setReg_events (s : State) (page off : Nat) (w : Word) :
    (State.setReg s page off w).events = s.events := by unfold State.setReg; split <;> rfl

@[simp] theorem setReg_out (s : State) (page off : Nat) (w : Word) :
    (State.setReg s page off w).out = s.out := by unfold State.setReg; split <;> rfl

@[simp] theorem setReg_dbgRestart (s : State) (page off : Nat) (w : Word) :
    (State.setReg s page off w).dbgRestart = s.dbgRestart := by unfold State.setReg; split <;> rfl

@[simp] theorem setReg_draw (s : State) (page off : Nat) (w : Word) :
    (State.setReg s page off w).draw = s.draw := by unfold State.setReg; split <;> rfl

@[simp] theorem setReg_pending (s : State) (page off : Nat) (w : Word) :
    (State.setReg s page off w).pending = s.pending := by unfold State.setReg; split <;> rfl

@[simp] theorem setFld_fuses (s : State) (page : Nat) (f : Fld) (v : Nat) :
    (State.setFld s page f v).fuses = s.fuses := by simp [State.setFld]

@[simp] theorem setFld_pins (s : State) (page : Nat) (f : Fld) (v : Nat) :
    (State.setFld s page f v).pins = s.pins := by simp [State.setFld]

@[simp] theorem setFld_cnt (s : State) (page : Nat) (f : Fld) (v : Nat) :
    (State.setFld s page f v).cnt = s.cnt := by simp [State.setFld]

@[simp] theorem setFld_cap (s : State) (page : Nat) (f : Fld) (v : Nat) :
    (State.setFld s page f v).cap = s.cap := by simp [State.setFld]

@[simp] theorem setFld_hub (s : State) (page : Nat) (f : Fld) (v : Nat) :
    (State.setFld s page f v).hub = s.hub := by simp [State.setFld]

@[simp] theorem setFld_mem (s : State) (page : Nat) (f : Fld) (v : Nat) :
    (State.setFld s page f v).mem = s.mem := by simp [State.setFld]

@[simp] theorem setFld_plates (s : State) (page : Nat) (f : Fld) (v : Nat) :
    (State.setFld s page f v).plates = s.plates := by simp [State.setFld]

@[simp] theorem setFld_plateCodes (s : State) (page : Nat) (f : Fld) (v : Nat) :
    (State.setFld s page f v).plateCodes = s.plateCodes := by simp [State.setFld]

@[simp] theorem setFld_sramCodes (s : State) (page : Nat) (f : Fld) (v : Nat) :
    (State.setFld s page f v).sramCodes = s.sramCodes := by simp [State.setFld]

@[simp] theorem setFld_flags (s : State) (page : Nat) (f : Fld) (v : Nat) :
    (State.setFld s page f v).flags = s.flags := by simp [State.setFld]

@[simp] theorem setFld_fpois (s : State) (page : Nat) (f : Fld) (v : Nat) :
    (State.setFld s page f v).fpois = s.fpois := by simp [State.setFld]

@[simp] theorem setFld_cores (s : State) (page : Nat) (f : Fld) (v : Nat) :
    (State.setFld s page f v).cores = s.cores := by simp [State.setFld]

@[simp] theorem setFld_cmds (s : State) (page : Nat) (f : Fld) (v : Nat) :
    (State.setFld s page f v).cmds = s.cmds := by simp [State.setFld]

@[simp] theorem setFld_nextCmd (s : State) (page : Nat) (f : Fld) (v : Nat) :
    (State.setFld s page f v).nextCmd = s.nextCmd := by simp [State.setFld]

@[simp] theorem setFld_aqts (s : State) (page : Nat) (f : Fld) (v : Nat) :
    (State.setFld s page f v).aqts = s.aqts := by simp [State.setFld]

@[simp] theorem setFld_net (s : State) (page : Nat) (f : Fld) (v : Nat) :
    (State.setFld s page f v).net = s.net := by simp [State.setFld]

@[simp] theorem setFld_coll (s : State) (page : Nat) (f : Fld) (v : Nat) :
    (State.setFld s page f v).coll = s.coll := by simp [State.setFld]

@[simp] theorem setFld_mbr (s : State) (page : Nat) (f : Fld) (v : Nat) :
    (State.setFld s page f v).mbr = s.mbr := by simp [State.setFld]

@[simp] theorem setFld_host (s : State) (page : Nat) (f : Fld) (v : Nat) :
    (State.setFld s page f v).host = s.host := by simp [State.setFld]

@[simp] theorem setFld_sec (s : State) (page : Nat) (f : Fld) (v : Nat) :
    (State.setFld s page f v).sec = s.sec := by simp [State.setFld]

@[simp] theorem setFld_lanes (s : State) (page : Nat) (f : Fld) (v : Nat) :
    (State.setFld s page f v).lanes = s.lanes := by simp [State.setFld]

@[simp] theorem setFld_rings (s : State) (page : Nat) (f : Fld) (v : Nat) :
    (State.setFld s page f v).rings = s.rings := by simp [State.setFld]

@[simp] theorem setFld_dies (s : State) (page : Nat) (f : Fld) (v : Nat) :
    (State.setFld s page f v).dies = s.dies := by simp [State.setFld]

@[simp] theorem setFld_alloc (s : State) (page : Nat) (f : Fld) (v : Nat) :
    (State.setFld s page f v).alloc = s.alloc := by simp [State.setFld]

@[simp] theorem setFld_time (s : State) (page : Nat) (f : Fld) (v : Nat) :
    (State.setFld s page f v).time = s.time := by simp [State.setFld]

@[simp] theorem setFld_tim (s : State) (page : Nat) (f : Fld) (v : Nat) :
    (State.setFld s page f v).tim = s.tim := by simp [State.setFld]

@[simp] theorem setFld_thm (s : State) (page : Nat) (f : Fld) (v : Nat) :
    (State.setFld s page f v).thm = s.thm := by simp [State.setFld]

@[simp] theorem setFld_events (s : State) (page : Nat) (f : Fld) (v : Nat) :
    (State.setFld s page f v).events = s.events := by simp [State.setFld]

@[simp] theorem setFld_out (s : State) (page : Nat) (f : Fld) (v : Nat) :
    (State.setFld s page f v).out = s.out := by simp [State.setFld]

@[simp] theorem setFld_dbgRestart (s : State) (page : Nat) (f : Fld) (v : Nat) :
    (State.setFld s page f v).dbgRestart = s.dbgRestart := by simp [State.setFld]

@[simp] theorem setFld_draw (s : State) (page : Nat) (f : Fld) (v : Nat) :
    (State.setFld s page f v).draw = s.draw := by simp [State.setFld]

@[simp] theorem setFld_pending (s : State) (page : Nat) (f : Fld) (v : Nat) :
    (State.setFld s page f v).pending = s.pending := by simp [State.setFld]

@[simp] theorem setFlds_fuses (s : State) (page : Nat) (l : List (Fld × Nat)) :
    (State.setFlds s page l).fuses = s.fuses := by
  unfold State.setFlds; induction l generalizing s with
  | nil => rfl
  | cons a l ih => obtain ⟨x, v⟩ := a; rw [List.foldl_cons, ih]; simp

@[simp] theorem setFlds_pins (s : State) (page : Nat) (l : List (Fld × Nat)) :
    (State.setFlds s page l).pins = s.pins := by
  unfold State.setFlds; induction l generalizing s with
  | nil => rfl
  | cons a l ih => obtain ⟨x, v⟩ := a; rw [List.foldl_cons, ih]; simp

@[simp] theorem setFlds_cnt (s : State) (page : Nat) (l : List (Fld × Nat)) :
    (State.setFlds s page l).cnt = s.cnt := by
  unfold State.setFlds; induction l generalizing s with
  | nil => rfl
  | cons a l ih => obtain ⟨x, v⟩ := a; rw [List.foldl_cons, ih]; simp

@[simp] theorem setFlds_cap (s : State) (page : Nat) (l : List (Fld × Nat)) :
    (State.setFlds s page l).cap = s.cap := by
  unfold State.setFlds; induction l generalizing s with
  | nil => rfl
  | cons a l ih => obtain ⟨x, v⟩ := a; rw [List.foldl_cons, ih]; simp

@[simp] theorem setFlds_hub (s : State) (page : Nat) (l : List (Fld × Nat)) :
    (State.setFlds s page l).hub = s.hub := by
  unfold State.setFlds; induction l generalizing s with
  | nil => rfl
  | cons a l ih => obtain ⟨x, v⟩ := a; rw [List.foldl_cons, ih]; simp

@[simp] theorem setFlds_mem (s : State) (page : Nat) (l : List (Fld × Nat)) :
    (State.setFlds s page l).mem = s.mem := by
  unfold State.setFlds; induction l generalizing s with
  | nil => rfl
  | cons a l ih => obtain ⟨x, v⟩ := a; rw [List.foldl_cons, ih]; simp

@[simp] theorem setFlds_plates (s : State) (page : Nat) (l : List (Fld × Nat)) :
    (State.setFlds s page l).plates = s.plates := by
  unfold State.setFlds; induction l generalizing s with
  | nil => rfl
  | cons a l ih => obtain ⟨x, v⟩ := a; rw [List.foldl_cons, ih]; simp

@[simp] theorem setFlds_plateCodes (s : State) (page : Nat) (l : List (Fld × Nat)) :
    (State.setFlds s page l).plateCodes = s.plateCodes := by
  unfold State.setFlds; induction l generalizing s with
  | nil => rfl
  | cons a l ih => obtain ⟨x, v⟩ := a; rw [List.foldl_cons, ih]; simp

@[simp] theorem setFlds_sramCodes (s : State) (page : Nat) (l : List (Fld × Nat)) :
    (State.setFlds s page l).sramCodes = s.sramCodes := by
  unfold State.setFlds; induction l generalizing s with
  | nil => rfl
  | cons a l ih => obtain ⟨x, v⟩ := a; rw [List.foldl_cons, ih]; simp

@[simp] theorem setFlds_flags (s : State) (page : Nat) (l : List (Fld × Nat)) :
    (State.setFlds s page l).flags = s.flags := by
  unfold State.setFlds; induction l generalizing s with
  | nil => rfl
  | cons a l ih => obtain ⟨x, v⟩ := a; rw [List.foldl_cons, ih]; simp

@[simp] theorem setFlds_fpois (s : State) (page : Nat) (l : List (Fld × Nat)) :
    (State.setFlds s page l).fpois = s.fpois := by
  unfold State.setFlds; induction l generalizing s with
  | nil => rfl
  | cons a l ih => obtain ⟨x, v⟩ := a; rw [List.foldl_cons, ih]; simp

@[simp] theorem setFlds_cores (s : State) (page : Nat) (l : List (Fld × Nat)) :
    (State.setFlds s page l).cores = s.cores := by
  unfold State.setFlds; induction l generalizing s with
  | nil => rfl
  | cons a l ih => obtain ⟨x, v⟩ := a; rw [List.foldl_cons, ih]; simp

@[simp] theorem setFlds_cmds (s : State) (page : Nat) (l : List (Fld × Nat)) :
    (State.setFlds s page l).cmds = s.cmds := by
  unfold State.setFlds; induction l generalizing s with
  | nil => rfl
  | cons a l ih => obtain ⟨x, v⟩ := a; rw [List.foldl_cons, ih]; simp

@[simp] theorem setFlds_nextCmd (s : State) (page : Nat) (l : List (Fld × Nat)) :
    (State.setFlds s page l).nextCmd = s.nextCmd := by
  unfold State.setFlds; induction l generalizing s with
  | nil => rfl
  | cons a l ih => obtain ⟨x, v⟩ := a; rw [List.foldl_cons, ih]; simp

@[simp] theorem setFlds_aqts (s : State) (page : Nat) (l : List (Fld × Nat)) :
    (State.setFlds s page l).aqts = s.aqts := by
  unfold State.setFlds; induction l generalizing s with
  | nil => rfl
  | cons a l ih => obtain ⟨x, v⟩ := a; rw [List.foldl_cons, ih]; simp

@[simp] theorem setFlds_net (s : State) (page : Nat) (l : List (Fld × Nat)) :
    (State.setFlds s page l).net = s.net := by
  unfold State.setFlds; induction l generalizing s with
  | nil => rfl
  | cons a l ih => obtain ⟨x, v⟩ := a; rw [List.foldl_cons, ih]; simp

@[simp] theorem setFlds_coll (s : State) (page : Nat) (l : List (Fld × Nat)) :
    (State.setFlds s page l).coll = s.coll := by
  unfold State.setFlds; induction l generalizing s with
  | nil => rfl
  | cons a l ih => obtain ⟨x, v⟩ := a; rw [List.foldl_cons, ih]; simp

@[simp] theorem setFlds_mbr (s : State) (page : Nat) (l : List (Fld × Nat)) :
    (State.setFlds s page l).mbr = s.mbr := by
  unfold State.setFlds; induction l generalizing s with
  | nil => rfl
  | cons a l ih => obtain ⟨x, v⟩ := a; rw [List.foldl_cons, ih]; simp

@[simp] theorem setFlds_host (s : State) (page : Nat) (l : List (Fld × Nat)) :
    (State.setFlds s page l).host = s.host := by
  unfold State.setFlds; induction l generalizing s with
  | nil => rfl
  | cons a l ih => obtain ⟨x, v⟩ := a; rw [List.foldl_cons, ih]; simp

@[simp] theorem setFlds_sec (s : State) (page : Nat) (l : List (Fld × Nat)) :
    (State.setFlds s page l).sec = s.sec := by
  unfold State.setFlds; induction l generalizing s with
  | nil => rfl
  | cons a l ih => obtain ⟨x, v⟩ := a; rw [List.foldl_cons, ih]; simp

@[simp] theorem setFlds_lanes (s : State) (page : Nat) (l : List (Fld × Nat)) :
    (State.setFlds s page l).lanes = s.lanes := by
  unfold State.setFlds; induction l generalizing s with
  | nil => rfl
  | cons a l ih => obtain ⟨x, v⟩ := a; rw [List.foldl_cons, ih]; simp

@[simp] theorem setFlds_rings (s : State) (page : Nat) (l : List (Fld × Nat)) :
    (State.setFlds s page l).rings = s.rings := by
  unfold State.setFlds; induction l generalizing s with
  | nil => rfl
  | cons a l ih => obtain ⟨x, v⟩ := a; rw [List.foldl_cons, ih]; simp

@[simp] theorem setFlds_dies (s : State) (page : Nat) (l : List (Fld × Nat)) :
    (State.setFlds s page l).dies = s.dies := by
  unfold State.setFlds; induction l generalizing s with
  | nil => rfl
  | cons a l ih => obtain ⟨x, v⟩ := a; rw [List.foldl_cons, ih]; simp

@[simp] theorem setFlds_alloc (s : State) (page : Nat) (l : List (Fld × Nat)) :
    (State.setFlds s page l).alloc = s.alloc := by
  unfold State.setFlds; induction l generalizing s with
  | nil => rfl
  | cons a l ih => obtain ⟨x, v⟩ := a; rw [List.foldl_cons, ih]; simp

@[simp] theorem setFlds_time (s : State) (page : Nat) (l : List (Fld × Nat)) :
    (State.setFlds s page l).time = s.time := by
  unfold State.setFlds; induction l generalizing s with
  | nil => rfl
  | cons a l ih => obtain ⟨x, v⟩ := a; rw [List.foldl_cons, ih]; simp

@[simp] theorem setFlds_tim (s : State) (page : Nat) (l : List (Fld × Nat)) :
    (State.setFlds s page l).tim = s.tim := by
  unfold State.setFlds; induction l generalizing s with
  | nil => rfl
  | cons a l ih => obtain ⟨x, v⟩ := a; rw [List.foldl_cons, ih]; simp

@[simp] theorem setFlds_thm (s : State) (page : Nat) (l : List (Fld × Nat)) :
    (State.setFlds s page l).thm = s.thm := by
  unfold State.setFlds; induction l generalizing s with
  | nil => rfl
  | cons a l ih => obtain ⟨x, v⟩ := a; rw [List.foldl_cons, ih]; simp

@[simp] theorem setFlds_events (s : State) (page : Nat) (l : List (Fld × Nat)) :
    (State.setFlds s page l).events = s.events := by
  unfold State.setFlds; induction l generalizing s with
  | nil => rfl
  | cons a l ih => obtain ⟨x, v⟩ := a; rw [List.foldl_cons, ih]; simp

@[simp] theorem setFlds_out (s : State) (page : Nat) (l : List (Fld × Nat)) :
    (State.setFlds s page l).out = s.out := by
  unfold State.setFlds; induction l generalizing s with
  | nil => rfl
  | cons a l ih => obtain ⟨x, v⟩ := a; rw [List.foldl_cons, ih]; simp

@[simp] theorem setFlds_dbgRestart (s : State) (page : Nat) (l : List (Fld × Nat)) :
    (State.setFlds s page l).dbgRestart = s.dbgRestart := by
  unfold State.setFlds; induction l generalizing s with
  | nil => rfl
  | cons a l ih => obtain ⟨x, v⟩ := a; rw [List.foldl_cons, ih]; simp

@[simp] theorem setFlds_draw (s : State) (page : Nat) (l : List (Fld × Nat)) :
    (State.setFlds s page l).draw = s.draw := by
  unfold State.setFlds; induction l generalizing s with
  | nil => rfl
  | cons a l ih => obtain ⟨x, v⟩ := a; rw [List.foldl_cons, ih]; simp

@[simp] theorem setFlds_pending (s : State) (page : Nat) (l : List (Fld × Nat)) :
    (State.setFlds s page l).pending = s.pending := by
  unfold State.setFlds; induction l generalizing s with
  | nil => rfl
  | cons a l ih => obtain ⟨x, v⟩ := a; rw [List.foldl_cons, ih]; simp

@[simp] theorem setCounter_fuses (s : State) (page i : Nat) (v : DWord) :
    (State.setCounter s page i v).fuses = s.fuses := by rfl

@[simp] theorem setCounter_pins (s : State) (page i : Nat) (v : DWord) :
    (State.setCounter s page i v).pins = s.pins := by rfl

@[simp] theorem setCounter_csr (s : State) (page i : Nat) (v : DWord) :
    (State.setCounter s page i v).csr = s.csr := by rfl

@[simp] theorem setCounter_cap (s : State) (page i : Nat) (v : DWord) :
    (State.setCounter s page i v).cap = s.cap := by rfl

@[simp] theorem setCounter_hub (s : State) (page i : Nat) (v : DWord) :
    (State.setCounter s page i v).hub = s.hub := by rfl

@[simp] theorem setCounter_mem (s : State) (page i : Nat) (v : DWord) :
    (State.setCounter s page i v).mem = s.mem := by rfl

@[simp] theorem setCounter_plates (s : State) (page i : Nat) (v : DWord) :
    (State.setCounter s page i v).plates = s.plates := by rfl

@[simp] theorem setCounter_plateCodes (s : State) (page i : Nat) (v : DWord) :
    (State.setCounter s page i v).plateCodes = s.plateCodes := by rfl

@[simp] theorem setCounter_sramCodes (s : State) (page i : Nat) (v : DWord) :
    (State.setCounter s page i v).sramCodes = s.sramCodes := by rfl

@[simp] theorem setCounter_flags (s : State) (page i : Nat) (v : DWord) :
    (State.setCounter s page i v).flags = s.flags := by rfl

@[simp] theorem setCounter_fpois (s : State) (page i : Nat) (v : DWord) :
    (State.setCounter s page i v).fpois = s.fpois := by rfl

@[simp] theorem setCounter_cores (s : State) (page i : Nat) (v : DWord) :
    (State.setCounter s page i v).cores = s.cores := by rfl

@[simp] theorem setCounter_cmds (s : State) (page i : Nat) (v : DWord) :
    (State.setCounter s page i v).cmds = s.cmds := by rfl

@[simp] theorem setCounter_nextCmd (s : State) (page i : Nat) (v : DWord) :
    (State.setCounter s page i v).nextCmd = s.nextCmd := by rfl

@[simp] theorem setCounter_aqts (s : State) (page i : Nat) (v : DWord) :
    (State.setCounter s page i v).aqts = s.aqts := by rfl

@[simp] theorem setCounter_net (s : State) (page i : Nat) (v : DWord) :
    (State.setCounter s page i v).net = s.net := by rfl

@[simp] theorem setCounter_coll (s : State) (page i : Nat) (v : DWord) :
    (State.setCounter s page i v).coll = s.coll := by rfl

@[simp] theorem setCounter_mbr (s : State) (page i : Nat) (v : DWord) :
    (State.setCounter s page i v).mbr = s.mbr := by rfl

@[simp] theorem setCounter_host (s : State) (page i : Nat) (v : DWord) :
    (State.setCounter s page i v).host = s.host := by rfl

@[simp] theorem setCounter_sec (s : State) (page i : Nat) (v : DWord) :
    (State.setCounter s page i v).sec = s.sec := by rfl

@[simp] theorem setCounter_lanes (s : State) (page i : Nat) (v : DWord) :
    (State.setCounter s page i v).lanes = s.lanes := by rfl

@[simp] theorem setCounter_rings (s : State) (page i : Nat) (v : DWord) :
    (State.setCounter s page i v).rings = s.rings := by rfl

@[simp] theorem setCounter_dies (s : State) (page i : Nat) (v : DWord) :
    (State.setCounter s page i v).dies = s.dies := by rfl

@[simp] theorem setCounter_alloc (s : State) (page i : Nat) (v : DWord) :
    (State.setCounter s page i v).alloc = s.alloc := by rfl

@[simp] theorem setCounter_time (s : State) (page i : Nat) (v : DWord) :
    (State.setCounter s page i v).time = s.time := by rfl

@[simp] theorem setCounter_tim (s : State) (page i : Nat) (v : DWord) :
    (State.setCounter s page i v).tim = s.tim := by rfl

@[simp] theorem setCounter_thm (s : State) (page i : Nat) (v : DWord) :
    (State.setCounter s page i v).thm = s.thm := by rfl

@[simp] theorem setCounter_events (s : State) (page i : Nat) (v : DWord) :
    (State.setCounter s page i v).events = s.events := by rfl

@[simp] theorem setCounter_out (s : State) (page i : Nat) (v : DWord) :
    (State.setCounter s page i v).out = s.out := by rfl

@[simp] theorem setCounter_dbgRestart (s : State) (page i : Nat) (v : DWord) :
    (State.setCounter s page i v).dbgRestart = s.dbgRestart := by rfl

@[simp] theorem setCounter_draw (s : State) (page i : Nat) (v : DWord) :
    (State.setCounter s page i v).draw = s.draw := by rfl

@[simp] theorem setCounter_pending (s : State) (page i : Nat) (v : DWord) :
    (State.setCounter s page i v).pending = s.pending := by rfl

@[simp] theorem bumpBy_fuses (s : State) (page i n : Nat) :
    (State.bumpBy s page i n).fuses = s.fuses := by simp [State.bumpBy]

@[simp] theorem bumpBy_pins (s : State) (page i n : Nat) :
    (State.bumpBy s page i n).pins = s.pins := by simp [State.bumpBy]

@[simp] theorem bumpBy_csr (s : State) (page i n : Nat) :
    (State.bumpBy s page i n).csr = s.csr := by simp [State.bumpBy]

@[simp] theorem bumpBy_cap (s : State) (page i n : Nat) :
    (State.bumpBy s page i n).cap = s.cap := by simp [State.bumpBy]

@[simp] theorem bumpBy_hub (s : State) (page i n : Nat) :
    (State.bumpBy s page i n).hub = s.hub := by simp [State.bumpBy]

@[simp] theorem bumpBy_mem (s : State) (page i n : Nat) :
    (State.bumpBy s page i n).mem = s.mem := by simp [State.bumpBy]

@[simp] theorem bumpBy_plates (s : State) (page i n : Nat) :
    (State.bumpBy s page i n).plates = s.plates := by simp [State.bumpBy]

@[simp] theorem bumpBy_plateCodes (s : State) (page i n : Nat) :
    (State.bumpBy s page i n).plateCodes = s.plateCodes := by simp [State.bumpBy]

@[simp] theorem bumpBy_sramCodes (s : State) (page i n : Nat) :
    (State.bumpBy s page i n).sramCodes = s.sramCodes := by simp [State.bumpBy]

@[simp] theorem bumpBy_flags (s : State) (page i n : Nat) :
    (State.bumpBy s page i n).flags = s.flags := by simp [State.bumpBy]

@[simp] theorem bumpBy_fpois (s : State) (page i n : Nat) :
    (State.bumpBy s page i n).fpois = s.fpois := by simp [State.bumpBy]

@[simp] theorem bumpBy_cores (s : State) (page i n : Nat) :
    (State.bumpBy s page i n).cores = s.cores := by simp [State.bumpBy]

@[simp] theorem bumpBy_cmds (s : State) (page i n : Nat) :
    (State.bumpBy s page i n).cmds = s.cmds := by simp [State.bumpBy]

@[simp] theorem bumpBy_nextCmd (s : State) (page i n : Nat) :
    (State.bumpBy s page i n).nextCmd = s.nextCmd := by simp [State.bumpBy]

@[simp] theorem bumpBy_aqts (s : State) (page i n : Nat) :
    (State.bumpBy s page i n).aqts = s.aqts := by simp [State.bumpBy]

@[simp] theorem bumpBy_net (s : State) (page i n : Nat) :
    (State.bumpBy s page i n).net = s.net := by simp [State.bumpBy]

@[simp] theorem bumpBy_coll (s : State) (page i n : Nat) :
    (State.bumpBy s page i n).coll = s.coll := by simp [State.bumpBy]

@[simp] theorem bumpBy_mbr (s : State) (page i n : Nat) :
    (State.bumpBy s page i n).mbr = s.mbr := by simp [State.bumpBy]

@[simp] theorem bumpBy_host (s : State) (page i n : Nat) :
    (State.bumpBy s page i n).host = s.host := by simp [State.bumpBy]

@[simp] theorem bumpBy_sec (s : State) (page i n : Nat) :
    (State.bumpBy s page i n).sec = s.sec := by simp [State.bumpBy]

@[simp] theorem bumpBy_lanes (s : State) (page i n : Nat) :
    (State.bumpBy s page i n).lanes = s.lanes := by simp [State.bumpBy]

@[simp] theorem bumpBy_rings (s : State) (page i n : Nat) :
    (State.bumpBy s page i n).rings = s.rings := by simp [State.bumpBy]

@[simp] theorem bumpBy_dies (s : State) (page i n : Nat) :
    (State.bumpBy s page i n).dies = s.dies := by simp [State.bumpBy]

@[simp] theorem bumpBy_alloc (s : State) (page i n : Nat) :
    (State.bumpBy s page i n).alloc = s.alloc := by simp [State.bumpBy]

@[simp] theorem bumpBy_time (s : State) (page i n : Nat) :
    (State.bumpBy s page i n).time = s.time := by simp [State.bumpBy]

@[simp] theorem bumpBy_tim (s : State) (page i n : Nat) :
    (State.bumpBy s page i n).tim = s.tim := by simp [State.bumpBy]

@[simp] theorem bumpBy_thm (s : State) (page i n : Nat) :
    (State.bumpBy s page i n).thm = s.thm := by simp [State.bumpBy]

@[simp] theorem bumpBy_events (s : State) (page i n : Nat) :
    (State.bumpBy s page i n).events = s.events := by simp [State.bumpBy]

@[simp] theorem bumpBy_out (s : State) (page i n : Nat) :
    (State.bumpBy s page i n).out = s.out := by simp [State.bumpBy]

@[simp] theorem bumpBy_dbgRestart (s : State) (page i n : Nat) :
    (State.bumpBy s page i n).dbgRestart = s.dbgRestart := by simp [State.bumpBy]

@[simp] theorem bumpBy_draw (s : State) (page i n : Nat) :
    (State.bumpBy s page i n).draw = s.draw := by simp [State.bumpBy]

@[simp] theorem bumpBy_pending (s : State) (page i n : Nat) :
    (State.bumpBy s page i n).pending = s.pending := by simp [State.bumpBy]

@[simp] theorem bump_fuses (s : State) (page i : Nat) :
    (State.bump s page i).fuses = s.fuses := by simp [State.bump]

@[simp] theorem bump_pins (s : State) (page i : Nat) :
    (State.bump s page i).pins = s.pins := by simp [State.bump]

@[simp] theorem bump_csr (s : State) (page i : Nat) :
    (State.bump s page i).csr = s.csr := by simp [State.bump]

@[simp] theorem bump_cap (s : State) (page i : Nat) :
    (State.bump s page i).cap = s.cap := by simp [State.bump]

@[simp] theorem bump_hub (s : State) (page i : Nat) :
    (State.bump s page i).hub = s.hub := by simp [State.bump]

@[simp] theorem bump_mem (s : State) (page i : Nat) :
    (State.bump s page i).mem = s.mem := by simp [State.bump]

@[simp] theorem bump_plates (s : State) (page i : Nat) :
    (State.bump s page i).plates = s.plates := by simp [State.bump]

@[simp] theorem bump_plateCodes (s : State) (page i : Nat) :
    (State.bump s page i).plateCodes = s.plateCodes := by simp [State.bump]

@[simp] theorem bump_sramCodes (s : State) (page i : Nat) :
    (State.bump s page i).sramCodes = s.sramCodes := by simp [State.bump]

@[simp] theorem bump_flags (s : State) (page i : Nat) :
    (State.bump s page i).flags = s.flags := by simp [State.bump]

@[simp] theorem bump_fpois (s : State) (page i : Nat) :
    (State.bump s page i).fpois = s.fpois := by simp [State.bump]

@[simp] theorem bump_cores (s : State) (page i : Nat) :
    (State.bump s page i).cores = s.cores := by simp [State.bump]

@[simp] theorem bump_cmds (s : State) (page i : Nat) :
    (State.bump s page i).cmds = s.cmds := by simp [State.bump]

@[simp] theorem bump_nextCmd (s : State) (page i : Nat) :
    (State.bump s page i).nextCmd = s.nextCmd := by simp [State.bump]

@[simp] theorem bump_aqts (s : State) (page i : Nat) :
    (State.bump s page i).aqts = s.aqts := by simp [State.bump]

@[simp] theorem bump_net (s : State) (page i : Nat) :
    (State.bump s page i).net = s.net := by simp [State.bump]

@[simp] theorem bump_coll (s : State) (page i : Nat) :
    (State.bump s page i).coll = s.coll := by simp [State.bump]

@[simp] theorem bump_mbr (s : State) (page i : Nat) :
    (State.bump s page i).mbr = s.mbr := by simp [State.bump]

@[simp] theorem bump_host (s : State) (page i : Nat) :
    (State.bump s page i).host = s.host := by simp [State.bump]

@[simp] theorem bump_sec (s : State) (page i : Nat) :
    (State.bump s page i).sec = s.sec := by simp [State.bump]

@[simp] theorem bump_lanes (s : State) (page i : Nat) :
    (State.bump s page i).lanes = s.lanes := by simp [State.bump]

@[simp] theorem bump_rings (s : State) (page i : Nat) :
    (State.bump s page i).rings = s.rings := by simp [State.bump]

@[simp] theorem bump_dies (s : State) (page i : Nat) :
    (State.bump s page i).dies = s.dies := by simp [State.bump]

@[simp] theorem bump_alloc (s : State) (page i : Nat) :
    (State.bump s page i).alloc = s.alloc := by simp [State.bump]

@[simp] theorem bump_time (s : State) (page i : Nat) :
    (State.bump s page i).time = s.time := by simp [State.bump]

@[simp] theorem bump_tim (s : State) (page i : Nat) :
    (State.bump s page i).tim = s.tim := by simp [State.bump]

@[simp] theorem bump_thm (s : State) (page i : Nat) :
    (State.bump s page i).thm = s.thm := by simp [State.bump]

@[simp] theorem bump_events (s : State) (page i : Nat) :
    (State.bump s page i).events = s.events := by simp [State.bump]

@[simp] theorem bump_out (s : State) (page i : Nat) :
    (State.bump s page i).out = s.out := by simp [State.bump]

@[simp] theorem bump_dbgRestart (s : State) (page i : Nat) :
    (State.bump s page i).dbgRestart = s.dbgRestart := by simp [State.bump]

@[simp] theorem bump_draw (s : State) (page i : Nat) :
    (State.bump s page i).draw = s.draw := by simp [State.bump]

@[simp] theorem bump_pending (s : State) (page i : Nat) :
    (State.bump s page i).pending = s.pending := by simp [State.bump]

@[simp] theorem noteReject_fuses (s : State) (page off : Nat) (locked : Bool) :
    (State.noteReject s page off locked).fuses = s.fuses := by unfold State.noteReject; repeat' (first | rfl | split | simp)

@[simp] theorem noteReject_pins (s : State) (page off : Nat) (locked : Bool) :
    (State.noteReject s page off locked).pins = s.pins := by unfold State.noteReject; repeat' (first | rfl | split | simp)

@[simp] theorem noteReject_cnt (s : State) (page off : Nat) (locked : Bool) :
    (State.noteReject s page off locked).cnt = s.cnt := by unfold State.noteReject; repeat' (first | rfl | split | simp)

@[simp] theorem noteReject_cap (s : State) (page off : Nat) (locked : Bool) :
    (State.noteReject s page off locked).cap = s.cap := by unfold State.noteReject; repeat' (first | rfl | split | simp)

@[simp] theorem noteReject_hub (s : State) (page off : Nat) (locked : Bool) :
    (State.noteReject s page off locked).hub = s.hub := by unfold State.noteReject; repeat' (first | rfl | split | simp)

@[simp] theorem noteReject_mem (s : State) (page off : Nat) (locked : Bool) :
    (State.noteReject s page off locked).mem = s.mem := by unfold State.noteReject; repeat' (first | rfl | split | simp)

@[simp] theorem noteReject_plates (s : State) (page off : Nat) (locked : Bool) :
    (State.noteReject s page off locked).plates = s.plates := by unfold State.noteReject; repeat' (first | rfl | split | simp)

@[simp] theorem noteReject_plateCodes (s : State) (page off : Nat) (locked : Bool) :
    (State.noteReject s page off locked).plateCodes = s.plateCodes := by unfold State.noteReject; repeat' (first | rfl | split | simp)

@[simp] theorem noteReject_sramCodes (s : State) (page off : Nat) (locked : Bool) :
    (State.noteReject s page off locked).sramCodes = s.sramCodes := by unfold State.noteReject; repeat' (first | rfl | split | simp)

@[simp] theorem noteReject_flags (s : State) (page off : Nat) (locked : Bool) :
    (State.noteReject s page off locked).flags = s.flags := by unfold State.noteReject; repeat' (first | rfl | split | simp)

@[simp] theorem noteReject_fpois (s : State) (page off : Nat) (locked : Bool) :
    (State.noteReject s page off locked).fpois = s.fpois := by unfold State.noteReject; repeat' (first | rfl | split | simp)

@[simp] theorem noteReject_cores (s : State) (page off : Nat) (locked : Bool) :
    (State.noteReject s page off locked).cores = s.cores := by unfold State.noteReject; repeat' (first | rfl | split | simp)

@[simp] theorem noteReject_cmds (s : State) (page off : Nat) (locked : Bool) :
    (State.noteReject s page off locked).cmds = s.cmds := by unfold State.noteReject; repeat' (first | rfl | split | simp)

@[simp] theorem noteReject_nextCmd (s : State) (page off : Nat) (locked : Bool) :
    (State.noteReject s page off locked).nextCmd = s.nextCmd := by unfold State.noteReject; repeat' (first | rfl | split | simp)

@[simp] theorem noteReject_aqts (s : State) (page off : Nat) (locked : Bool) :
    (State.noteReject s page off locked).aqts = s.aqts := by unfold State.noteReject; repeat' (first | rfl | split | simp)

@[simp] theorem noteReject_net (s : State) (page off : Nat) (locked : Bool) :
    (State.noteReject s page off locked).net = s.net := by unfold State.noteReject; repeat' (first | rfl | split | simp)

@[simp] theorem noteReject_coll (s : State) (page off : Nat) (locked : Bool) :
    (State.noteReject s page off locked).coll = s.coll := by unfold State.noteReject; repeat' (first | rfl | split | simp)

@[simp] theorem noteReject_mbr (s : State) (page off : Nat) (locked : Bool) :
    (State.noteReject s page off locked).mbr = s.mbr := by unfold State.noteReject; repeat' (first | rfl | split | simp)

@[simp] theorem noteReject_host (s : State) (page off : Nat) (locked : Bool) :
    (State.noteReject s page off locked).host = s.host := by unfold State.noteReject; repeat' (first | rfl | split | simp)

@[simp] theorem noteReject_sec (s : State) (page off : Nat) (locked : Bool) :
    (State.noteReject s page off locked).sec = s.sec := by unfold State.noteReject; repeat' (first | rfl | split | simp)

@[simp] theorem noteReject_lanes (s : State) (page off : Nat) (locked : Bool) :
    (State.noteReject s page off locked).lanes = s.lanes := by unfold State.noteReject; repeat' (first | rfl | split | simp)

@[simp] theorem noteReject_rings (s : State) (page off : Nat) (locked : Bool) :
    (State.noteReject s page off locked).rings = s.rings := by unfold State.noteReject; repeat' (first | rfl | split | simp)

@[simp] theorem noteReject_dies (s : State) (page off : Nat) (locked : Bool) :
    (State.noteReject s page off locked).dies = s.dies := by unfold State.noteReject; repeat' (first | rfl | split | simp)

@[simp] theorem noteReject_alloc (s : State) (page off : Nat) (locked : Bool) :
    (State.noteReject s page off locked).alloc = s.alloc := by unfold State.noteReject; repeat' (first | rfl | split | simp)

@[simp] theorem noteReject_time (s : State) (page off : Nat) (locked : Bool) :
    (State.noteReject s page off locked).time = s.time := by unfold State.noteReject; repeat' (first | rfl | split | simp)

@[simp] theorem noteReject_tim (s : State) (page off : Nat) (locked : Bool) :
    (State.noteReject s page off locked).tim = s.tim := by unfold State.noteReject; repeat' (first | rfl | split | simp)

@[simp] theorem noteReject_thm (s : State) (page off : Nat) (locked : Bool) :
    (State.noteReject s page off locked).thm = s.thm := by unfold State.noteReject; repeat' (first | rfl | split | simp)

@[simp] theorem noteReject_events (s : State) (page off : Nat) (locked : Bool) :
    (State.noteReject s page off locked).events = s.events := by unfold State.noteReject; repeat' (first | rfl | split | simp)

@[simp] theorem noteReject_out (s : State) (page off : Nat) (locked : Bool) :
    (State.noteReject s page off locked).out = s.out := by unfold State.noteReject; repeat' (first | rfl | split | simp)

@[simp] theorem noteReject_dbgRestart (s : State) (page off : Nat) (locked : Bool) :
    (State.noteReject s page off locked).dbgRestart = s.dbgRestart := by unfold State.noteReject; repeat' (first | rfl | split | simp)

@[simp] theorem noteReject_draw (s : State) (page off : Nat) (locked : Bool) :
    (State.noteReject s page off locked).draw = s.draw := by unfold State.noteReject; repeat' (first | rfl | split | simp)

@[simp] theorem noteReject_pending (s : State) (page off : Nat) (locked : Bool) :
    (State.noteReject s page off locked).pending = s.pending := by unfold State.noteReject; repeat' (first | rfl | split | simp)

@[simp] theorem setCore_fuses (s : State) (c : Nat) (x : CoreSt) :
    (State.setCore s c x).fuses = s.fuses := by rfl

@[simp] theorem setCore_pins (s : State) (c : Nat) (x : CoreSt) :
    (State.setCore s c x).pins = s.pins := by rfl

@[simp] theorem setCore_csr (s : State) (c : Nat) (x : CoreSt) :
    (State.setCore s c x).csr = s.csr := by rfl

@[simp] theorem setCore_cnt (s : State) (c : Nat) (x : CoreSt) :
    (State.setCore s c x).cnt = s.cnt := by rfl

@[simp] theorem setCore_cap (s : State) (c : Nat) (x : CoreSt) :
    (State.setCore s c x).cap = s.cap := by rfl

@[simp] theorem setCore_hub (s : State) (c : Nat) (x : CoreSt) :
    (State.setCore s c x).hub = s.hub := by rfl

@[simp] theorem setCore_mem (s : State) (c : Nat) (x : CoreSt) :
    (State.setCore s c x).mem = s.mem := by rfl

@[simp] theorem setCore_plates (s : State) (c : Nat) (x : CoreSt) :
    (State.setCore s c x).plates = s.plates := by rfl

@[simp] theorem setCore_plateCodes (s : State) (c : Nat) (x : CoreSt) :
    (State.setCore s c x).plateCodes = s.plateCodes := by rfl

@[simp] theorem setCore_sramCodes (s : State) (c : Nat) (x : CoreSt) :
    (State.setCore s c x).sramCodes = s.sramCodes := by rfl

@[simp] theorem setCore_flags (s : State) (c : Nat) (x : CoreSt) :
    (State.setCore s c x).flags = s.flags := by rfl

@[simp] theorem setCore_fpois (s : State) (c : Nat) (x : CoreSt) :
    (State.setCore s c x).fpois = s.fpois := by rfl

@[simp] theorem setCore_cmds (s : State) (c : Nat) (x : CoreSt) :
    (State.setCore s c x).cmds = s.cmds := by rfl

@[simp] theorem setCore_nextCmd (s : State) (c : Nat) (x : CoreSt) :
    (State.setCore s c x).nextCmd = s.nextCmd := by rfl

@[simp] theorem setCore_aqts (s : State) (c : Nat) (x : CoreSt) :
    (State.setCore s c x).aqts = s.aqts := by rfl

@[simp] theorem setCore_net (s : State) (c : Nat) (x : CoreSt) :
    (State.setCore s c x).net = s.net := by rfl

@[simp] theorem setCore_coll (s : State) (c : Nat) (x : CoreSt) :
    (State.setCore s c x).coll = s.coll := by rfl

@[simp] theorem setCore_mbr (s : State) (c : Nat) (x : CoreSt) :
    (State.setCore s c x).mbr = s.mbr := by rfl

@[simp] theorem setCore_host (s : State) (c : Nat) (x : CoreSt) :
    (State.setCore s c x).host = s.host := by rfl

@[simp] theorem setCore_sec (s : State) (c : Nat) (x : CoreSt) :
    (State.setCore s c x).sec = s.sec := by rfl

@[simp] theorem setCore_lanes (s : State) (c : Nat) (x : CoreSt) :
    (State.setCore s c x).lanes = s.lanes := by rfl

@[simp] theorem setCore_rings (s : State) (c : Nat) (x : CoreSt) :
    (State.setCore s c x).rings = s.rings := by rfl

@[simp] theorem setCore_dies (s : State) (c : Nat) (x : CoreSt) :
    (State.setCore s c x).dies = s.dies := by rfl

@[simp] theorem setCore_alloc (s : State) (c : Nat) (x : CoreSt) :
    (State.setCore s c x).alloc = s.alloc := by rfl

@[simp] theorem setCore_time (s : State) (c : Nat) (x : CoreSt) :
    (State.setCore s c x).time = s.time := by rfl

@[simp] theorem setCore_tim (s : State) (c : Nat) (x : CoreSt) :
    (State.setCore s c x).tim = s.tim := by rfl

@[simp] theorem setCore_thm (s : State) (c : Nat) (x : CoreSt) :
    (State.setCore s c x).thm = s.thm := by rfl

@[simp] theorem setCore_events (s : State) (c : Nat) (x : CoreSt) :
    (State.setCore s c x).events = s.events := by rfl

@[simp] theorem setCore_out (s : State) (c : Nat) (x : CoreSt) :
    (State.setCore s c x).out = s.out := by rfl

@[simp] theorem setCore_dbgRestart (s : State) (c : Nat) (x : CoreSt) :
    (State.setCore s c x).dbgRestart = s.dbgRestart := by rfl

@[simp] theorem setCore_draw (s : State) (c : Nat) (x : CoreSt) :
    (State.setCore s c x).draw = s.draw := by rfl

@[simp] theorem setCore_pending (s : State) (c : Nat) (x : CoreSt) :
    (State.setCore s c x).pending = s.pending := by rfl

@[simp] theorem modCore_fuses (s : State) (c : Nat) (f : CoreSt → CoreSt) :
    (State.modCore s c f).fuses = s.fuses := by simp [State.modCore]

@[simp] theorem modCore_pins (s : State) (c : Nat) (f : CoreSt → CoreSt) :
    (State.modCore s c f).pins = s.pins := by simp [State.modCore]

@[simp] theorem modCore_csr (s : State) (c : Nat) (f : CoreSt → CoreSt) :
    (State.modCore s c f).csr = s.csr := by simp [State.modCore]

@[simp] theorem modCore_cnt (s : State) (c : Nat) (f : CoreSt → CoreSt) :
    (State.modCore s c f).cnt = s.cnt := by simp [State.modCore]

@[simp] theorem modCore_cap (s : State) (c : Nat) (f : CoreSt → CoreSt) :
    (State.modCore s c f).cap = s.cap := by simp [State.modCore]

@[simp] theorem modCore_hub (s : State) (c : Nat) (f : CoreSt → CoreSt) :
    (State.modCore s c f).hub = s.hub := by simp [State.modCore]

@[simp] theorem modCore_mem (s : State) (c : Nat) (f : CoreSt → CoreSt) :
    (State.modCore s c f).mem = s.mem := by simp [State.modCore]

@[simp] theorem modCore_plates (s : State) (c : Nat) (f : CoreSt → CoreSt) :
    (State.modCore s c f).plates = s.plates := by simp [State.modCore]

@[simp] theorem modCore_plateCodes (s : State) (c : Nat) (f : CoreSt → CoreSt) :
    (State.modCore s c f).plateCodes = s.plateCodes := by simp [State.modCore]

@[simp] theorem modCore_sramCodes (s : State) (c : Nat) (f : CoreSt → CoreSt) :
    (State.modCore s c f).sramCodes = s.sramCodes := by simp [State.modCore]

@[simp] theorem modCore_flags (s : State) (c : Nat) (f : CoreSt → CoreSt) :
    (State.modCore s c f).flags = s.flags := by simp [State.modCore]

@[simp] theorem modCore_fpois (s : State) (c : Nat) (f : CoreSt → CoreSt) :
    (State.modCore s c f).fpois = s.fpois := by simp [State.modCore]

@[simp] theorem modCore_cmds (s : State) (c : Nat) (f : CoreSt → CoreSt) :
    (State.modCore s c f).cmds = s.cmds := by simp [State.modCore]

@[simp] theorem modCore_nextCmd (s : State) (c : Nat) (f : CoreSt → CoreSt) :
    (State.modCore s c f).nextCmd = s.nextCmd := by simp [State.modCore]

@[simp] theorem modCore_aqts (s : State) (c : Nat) (f : CoreSt → CoreSt) :
    (State.modCore s c f).aqts = s.aqts := by simp [State.modCore]

@[simp] theorem modCore_net (s : State) (c : Nat) (f : CoreSt → CoreSt) :
    (State.modCore s c f).net = s.net := by simp [State.modCore]

@[simp] theorem modCore_coll (s : State) (c : Nat) (f : CoreSt → CoreSt) :
    (State.modCore s c f).coll = s.coll := by simp [State.modCore]

@[simp] theorem modCore_mbr (s : State) (c : Nat) (f : CoreSt → CoreSt) :
    (State.modCore s c f).mbr = s.mbr := by simp [State.modCore]

@[simp] theorem modCore_host (s : State) (c : Nat) (f : CoreSt → CoreSt) :
    (State.modCore s c f).host = s.host := by simp [State.modCore]

@[simp] theorem modCore_sec (s : State) (c : Nat) (f : CoreSt → CoreSt) :
    (State.modCore s c f).sec = s.sec := by simp [State.modCore]

@[simp] theorem modCore_lanes (s : State) (c : Nat) (f : CoreSt → CoreSt) :
    (State.modCore s c f).lanes = s.lanes := by simp [State.modCore]

@[simp] theorem modCore_rings (s : State) (c : Nat) (f : CoreSt → CoreSt) :
    (State.modCore s c f).rings = s.rings := by simp [State.modCore]

@[simp] theorem modCore_dies (s : State) (c : Nat) (f : CoreSt → CoreSt) :
    (State.modCore s c f).dies = s.dies := by simp [State.modCore]

@[simp] theorem modCore_alloc (s : State) (c : Nat) (f : CoreSt → CoreSt) :
    (State.modCore s c f).alloc = s.alloc := by simp [State.modCore]

@[simp] theorem modCore_time (s : State) (c : Nat) (f : CoreSt → CoreSt) :
    (State.modCore s c f).time = s.time := by simp [State.modCore]

@[simp] theorem modCore_tim (s : State) (c : Nat) (f : CoreSt → CoreSt) :
    (State.modCore s c f).tim = s.tim := by simp [State.modCore]

@[simp] theorem modCore_thm (s : State) (c : Nat) (f : CoreSt → CoreSt) :
    (State.modCore s c f).thm = s.thm := by simp [State.modCore]

@[simp] theorem modCore_events (s : State) (c : Nat) (f : CoreSt → CoreSt) :
    (State.modCore s c f).events = s.events := by simp [State.modCore]

@[simp] theorem modCore_out (s : State) (c : Nat) (f : CoreSt → CoreSt) :
    (State.modCore s c f).out = s.out := by simp [State.modCore]

@[simp] theorem modCore_dbgRestart (s : State) (c : Nat) (f : CoreSt → CoreSt) :
    (State.modCore s c f).dbgRestart = s.dbgRestart := by simp [State.modCore]

@[simp] theorem modCore_draw (s : State) (c : Nat) (f : CoreSt → CoreSt) :
    (State.modCore s c f).draw = s.draw := by simp [State.modCore]

@[simp] theorem modCore_pending (s : State) (c : Nat) (f : CoreSt → CoreSt) :
    (State.modCore s c f).pending = s.pending := by simp [State.modCore]

@[simp] theorem recordErr_fuses (s : State) (page src cls detail : Nat) :
    (recordErr s page src cls detail).2.fuses = s.fuses := by unfold recordErr; repeat' (first | rfl | split | simp)

@[simp] theorem recordErr_pins (s : State) (page src cls detail : Nat) :
    (recordErr s page src cls detail).2.pins = s.pins := by unfold recordErr; repeat' (first | rfl | split | simp)

@[simp] theorem recordErr_cnt (s : State) (page src cls detail : Nat) :
    (recordErr s page src cls detail).2.cnt = s.cnt := by unfold recordErr; repeat' (first | rfl | split | simp)

@[simp] theorem recordErr_cap (s : State) (page src cls detail : Nat) :
    (recordErr s page src cls detail).2.cap = s.cap := by unfold recordErr; repeat' (first | rfl | split | simp)

@[simp] theorem recordErr_hub (s : State) (page src cls detail : Nat) :
    (recordErr s page src cls detail).2.hub = s.hub := by unfold recordErr; repeat' (first | rfl | split | simp)

@[simp] theorem recordErr_mem (s : State) (page src cls detail : Nat) :
    (recordErr s page src cls detail).2.mem = s.mem := by unfold recordErr; repeat' (first | rfl | split | simp)

@[simp] theorem recordErr_plates (s : State) (page src cls detail : Nat) :
    (recordErr s page src cls detail).2.plates = s.plates := by unfold recordErr; repeat' (first | rfl | split | simp)

@[simp] theorem recordErr_plateCodes (s : State) (page src cls detail : Nat) :
    (recordErr s page src cls detail).2.plateCodes = s.plateCodes := by unfold recordErr; repeat' (first | rfl | split | simp)

@[simp] theorem recordErr_sramCodes (s : State) (page src cls detail : Nat) :
    (recordErr s page src cls detail).2.sramCodes = s.sramCodes := by unfold recordErr; repeat' (first | rfl | split | simp)

@[simp] theorem recordErr_flags (s : State) (page src cls detail : Nat) :
    (recordErr s page src cls detail).2.flags = s.flags := by unfold recordErr; repeat' (first | rfl | split | simp)

@[simp] theorem recordErr_fpois (s : State) (page src cls detail : Nat) :
    (recordErr s page src cls detail).2.fpois = s.fpois := by unfold recordErr; repeat' (first | rfl | split | simp)

@[simp] theorem recordErr_cores (s : State) (page src cls detail : Nat) :
    (recordErr s page src cls detail).2.cores = s.cores := by unfold recordErr; repeat' (first | rfl | split | simp)

@[simp] theorem recordErr_cmds (s : State) (page src cls detail : Nat) :
    (recordErr s page src cls detail).2.cmds = s.cmds := by unfold recordErr; repeat' (first | rfl | split | simp)

@[simp] theorem recordErr_nextCmd (s : State) (page src cls detail : Nat) :
    (recordErr s page src cls detail).2.nextCmd = s.nextCmd := by unfold recordErr; repeat' (first | rfl | split | simp)

@[simp] theorem recordErr_aqts (s : State) (page src cls detail : Nat) :
    (recordErr s page src cls detail).2.aqts = s.aqts := by unfold recordErr; repeat' (first | rfl | split | simp)

@[simp] theorem recordErr_net (s : State) (page src cls detail : Nat) :
    (recordErr s page src cls detail).2.net = s.net := by unfold recordErr; repeat' (first | rfl | split | simp)

@[simp] theorem recordErr_coll (s : State) (page src cls detail : Nat) :
    (recordErr s page src cls detail).2.coll = s.coll := by unfold recordErr; repeat' (first | rfl | split | simp)

@[simp] theorem recordErr_mbr (s : State) (page src cls detail : Nat) :
    (recordErr s page src cls detail).2.mbr = s.mbr := by unfold recordErr; repeat' (first | rfl | split | simp)

@[simp] theorem recordErr_host (s : State) (page src cls detail : Nat) :
    (recordErr s page src cls detail).2.host = s.host := by unfold recordErr; repeat' (first | rfl | split | simp)

@[simp] theorem recordErr_sec (s : State) (page src cls detail : Nat) :
    (recordErr s page src cls detail).2.sec = s.sec := by unfold recordErr; repeat' (first | rfl | split | simp)

@[simp] theorem recordErr_lanes (s : State) (page src cls detail : Nat) :
    (recordErr s page src cls detail).2.lanes = s.lanes := by unfold recordErr; repeat' (first | rfl | split | simp)

@[simp] theorem recordErr_rings (s : State) (page src cls detail : Nat) :
    (recordErr s page src cls detail).2.rings = s.rings := by unfold recordErr; repeat' (first | rfl | split | simp)

@[simp] theorem recordErr_dies (s : State) (page src cls detail : Nat) :
    (recordErr s page src cls detail).2.dies = s.dies := by unfold recordErr; repeat' (first | rfl | split | simp)

@[simp] theorem recordErr_alloc (s : State) (page src cls detail : Nat) :
    (recordErr s page src cls detail).2.alloc = s.alloc := by unfold recordErr; repeat' (first | rfl | split | simp)

@[simp] theorem recordErr_time (s : State) (page src cls detail : Nat) :
    (recordErr s page src cls detail).2.time = s.time := by unfold recordErr; repeat' (first | rfl | split | simp)

@[simp] theorem recordErr_tim (s : State) (page src cls detail : Nat) :
    (recordErr s page src cls detail).2.tim = s.tim := by unfold recordErr; repeat' (first | rfl | split | simp)

@[simp] theorem recordErr_thm (s : State) (page src cls detail : Nat) :
    (recordErr s page src cls detail).2.thm = s.thm := by unfold recordErr; repeat' (first | rfl | split | simp)

@[simp] theorem recordErr_events (s : State) (page src cls detail : Nat) :
    (recordErr s page src cls detail).2.events = s.events := by unfold recordErr; repeat' (first | rfl | split | simp)

@[simp] theorem recordErr_out (s : State) (page src cls detail : Nat) :
    (recordErr s page src cls detail).2.out = s.out := by unfold recordErr; repeat' (first | rfl | split | simp)

@[simp] theorem recordErr_dbgRestart (s : State) (page src cls detail : Nat) :
    (recordErr s page src cls detail).2.dbgRestart = s.dbgRestart := by unfold recordErr; repeat' (first | rfl | split | simp)

@[simp] theorem recordErr_draw (s : State) (page src cls detail : Nat) :
    (recordErr s page src cls detail).2.draw = s.draw := by unfold recordErr; repeat' (first | rfl | split | simp)

@[simp] theorem recordErr_pending (s : State) (page src cls detail : Nat) :
    (recordErr s page src cls detail).2.pending = s.pending := by unfold recordErr; repeat' (first | rfl | split | simp)

@[simp] theorem errOcc_fuses (s : State) (page src detail : Nat) :
    (errOcc s page src detail).fuses = s.fuses := by unfold errOcc; repeat' (first | rfl | (split <;> try simp))

@[simp] theorem errOcc_pins (s : State) (page src detail : Nat) :
    (errOcc s page src detail).pins = s.pins := by unfold errOcc; repeat' (first | rfl | (split <;> try simp))

@[simp] theorem errOcc_cap (s : State) (page src detail : Nat) :
    (errOcc s page src detail).cap = s.cap := by unfold errOcc; repeat' (first | rfl | (split <;> try simp))

@[simp] theorem errOcc_mem (s : State) (page src detail : Nat) :
    (errOcc s page src detail).mem = s.mem := by unfold errOcc; repeat' (first | rfl | (split <;> try simp))

@[simp] theorem errOcc_plates (s : State) (page src detail : Nat) :
    (errOcc s page src detail).plates = s.plates := by unfold errOcc; repeat' (first | rfl | (split <;> try simp))

@[simp] theorem errOcc_plateCodes (s : State) (page src detail : Nat) :
    (errOcc s page src detail).plateCodes = s.plateCodes := by unfold errOcc; repeat' (first | rfl | (split <;> try simp))

@[simp] theorem errOcc_sramCodes (s : State) (page src detail : Nat) :
    (errOcc s page src detail).sramCodes = s.sramCodes := by unfold errOcc; repeat' (first | rfl | (split <;> try simp))

@[simp] theorem errOcc_flags (s : State) (page src detail : Nat) :
    (errOcc s page src detail).flags = s.flags := by unfold errOcc; repeat' (first | rfl | (split <;> try simp))

@[simp] theorem errOcc_fpois (s : State) (page src detail : Nat) :
    (errOcc s page src detail).fpois = s.fpois := by unfold errOcc; repeat' (first | rfl | (split <;> try simp))

@[simp] theorem errOcc_cores (s : State) (page src detail : Nat) :
    (errOcc s page src detail).cores = s.cores := by unfold errOcc; repeat' (first | rfl | (split <;> try simp))

@[simp] theorem errOcc_cmds (s : State) (page src detail : Nat) :
    (errOcc s page src detail).cmds = s.cmds := by unfold errOcc; repeat' (first | rfl | (split <;> try simp))

@[simp] theorem errOcc_nextCmd (s : State) (page src detail : Nat) :
    (errOcc s page src detail).nextCmd = s.nextCmd := by unfold errOcc; repeat' (first | rfl | (split <;> try simp))

@[simp] theorem errOcc_aqts (s : State) (page src detail : Nat) :
    (errOcc s page src detail).aqts = s.aqts := by unfold errOcc; repeat' (first | rfl | (split <;> try simp))

@[simp] theorem errOcc_net (s : State) (page src detail : Nat) :
    (errOcc s page src detail).net = s.net := by unfold errOcc; repeat' (first | rfl | (split <;> try simp))

@[simp] theorem errOcc_coll (s : State) (page src detail : Nat) :
    (errOcc s page src detail).coll = s.coll := by unfold errOcc; repeat' (first | rfl | (split <;> try simp))

@[simp] theorem errOcc_mbr (s : State) (page src detail : Nat) :
    (errOcc s page src detail).mbr = s.mbr := by unfold errOcc; repeat' (first | rfl | (split <;> try simp))

@[simp] theorem errOcc_host (s : State) (page src detail : Nat) :
    (errOcc s page src detail).host = s.host := by unfold errOcc; repeat' (first | rfl | (split <;> try simp))

@[simp] theorem errOcc_sec (s : State) (page src detail : Nat) :
    (errOcc s page src detail).sec = s.sec := by unfold errOcc; repeat' (first | rfl | (split <;> try simp))

@[simp] theorem errOcc_lanes (s : State) (page src detail : Nat) :
    (errOcc s page src detail).lanes = s.lanes := by unfold errOcc; repeat' (first | rfl | (split <;> try simp))

@[simp] theorem errOcc_rings (s : State) (page src detail : Nat) :
    (errOcc s page src detail).rings = s.rings := by unfold errOcc; repeat' (first | rfl | (split <;> try simp))

@[simp] theorem errOcc_dies (s : State) (page src detail : Nat) :
    (errOcc s page src detail).dies = s.dies := by unfold errOcc; repeat' (first | rfl | (split <;> try simp))

@[simp] theorem errOcc_alloc (s : State) (page src detail : Nat) :
    (errOcc s page src detail).alloc = s.alloc := by unfold errOcc; repeat' (first | rfl | (split <;> try simp))

@[simp] theorem errOcc_time (s : State) (page src detail : Nat) :
    (errOcc s page src detail).time = s.time := by unfold errOcc; repeat' (first | rfl | (split <;> try simp))

@[simp] theorem errOcc_tim (s : State) (page src detail : Nat) :
    (errOcc s page src detail).tim = s.tim := by unfold errOcc; repeat' (first | rfl | (split <;> try simp))

@[simp] theorem errOcc_thm (s : State) (page src detail : Nat) :
    (errOcc s page src detail).thm = s.thm := by unfold errOcc; repeat' (first | rfl | (split <;> try simp))

@[simp] theorem errOcc_events (s : State) (page src detail : Nat) :
    (errOcc s page src detail).events = s.events := by unfold errOcc; repeat' (first | rfl | (split <;> try simp))

@[simp] theorem errOcc_out (s : State) (page src detail : Nat) :
    (errOcc s page src detail).out = s.out := by unfold errOcc; repeat' (first | rfl | (split <;> try simp))

@[simp] theorem errOcc_dbgRestart (s : State) (page src detail : Nat) :
    (errOcc s page src detail).dbgRestart = s.dbgRestart := by unfold errOcc; repeat' (first | rfl | (split <;> try simp))

@[simp] theorem errOcc_draw (s : State) (page src detail : Nat) :
    (errOcc s page src detail).draw = s.draw := by unfold errOcc; repeat' (first | rfl | (split <;> try simp))

@[simp] theorem errOcc_pending (s : State) (page src detail : Nat) :
    (errOcc s page src detail).pending = s.pending := by unfold errOcc; repeat' (first | rfl | (split <;> try simp))

@[simp] theorem queueEvent_fuses (s : State) (e : HostEvent) :
    (queueEvent s e).fuses = s.fuses := by unfold queueEvent; repeat' (first | rfl | split | simp)

@[simp] theorem queueEvent_pins (s : State) (e : HostEvent) :
    (queueEvent s e).pins = s.pins := by unfold queueEvent; repeat' (first | rfl | split | simp)

@[simp] theorem queueEvent_cap (s : State) (e : HostEvent) :
    (queueEvent s e).cap = s.cap := by unfold queueEvent; repeat' (first | rfl | split | simp)

@[simp] theorem queueEvent_mem (s : State) (e : HostEvent) :
    (queueEvent s e).mem = s.mem := by unfold queueEvent; repeat' (first | rfl | split | simp)

@[simp] theorem queueEvent_plates (s : State) (e : HostEvent) :
    (queueEvent s e).plates = s.plates := by unfold queueEvent; repeat' (first | rfl | split | simp)

@[simp] theorem queueEvent_plateCodes (s : State) (e : HostEvent) :
    (queueEvent s e).plateCodes = s.plateCodes := by unfold queueEvent; repeat' (first | rfl | split | simp)

@[simp] theorem queueEvent_sramCodes (s : State) (e : HostEvent) :
    (queueEvent s e).sramCodes = s.sramCodes := by unfold queueEvent; repeat' (first | rfl | split | simp)

@[simp] theorem queueEvent_flags (s : State) (e : HostEvent) :
    (queueEvent s e).flags = s.flags := by unfold queueEvent; repeat' (first | rfl | split | simp)

@[simp] theorem queueEvent_fpois (s : State) (e : HostEvent) :
    (queueEvent s e).fpois = s.fpois := by unfold queueEvent; repeat' (first | rfl | split | simp)

@[simp] theorem queueEvent_cores (s : State) (e : HostEvent) :
    (queueEvent s e).cores = s.cores := by unfold queueEvent; repeat' (first | rfl | split | simp)

@[simp] theorem queueEvent_cmds (s : State) (e : HostEvent) :
    (queueEvent s e).cmds = s.cmds := by unfold queueEvent; repeat' (first | rfl | split | simp)

@[simp] theorem queueEvent_nextCmd (s : State) (e : HostEvent) :
    (queueEvent s e).nextCmd = s.nextCmd := by unfold queueEvent; repeat' (first | rfl | split | simp)

@[simp] theorem queueEvent_aqts (s : State) (e : HostEvent) :
    (queueEvent s e).aqts = s.aqts := by unfold queueEvent; repeat' (first | rfl | split | simp)

@[simp] theorem queueEvent_net (s : State) (e : HostEvent) :
    (queueEvent s e).net = s.net := by unfold queueEvent; repeat' (first | rfl | split | simp)

@[simp] theorem queueEvent_coll (s : State) (e : HostEvent) :
    (queueEvent s e).coll = s.coll := by unfold queueEvent; repeat' (first | rfl | split | simp)

@[simp] theorem queueEvent_mbr (s : State) (e : HostEvent) :
    (queueEvent s e).mbr = s.mbr := by unfold queueEvent; repeat' (first | rfl | split | simp)

@[simp] theorem queueEvent_host (s : State) (e : HostEvent) :
    (queueEvent s e).host = s.host := by unfold queueEvent; repeat' (first | rfl | split | simp)

@[simp] theorem queueEvent_sec (s : State) (e : HostEvent) :
    (queueEvent s e).sec = s.sec := by unfold queueEvent; repeat' (first | rfl | split | simp)

@[simp] theorem queueEvent_lanes (s : State) (e : HostEvent) :
    (queueEvent s e).lanes = s.lanes := by unfold queueEvent; repeat' (first | rfl | split | simp)

@[simp] theorem queueEvent_rings (s : State) (e : HostEvent) :
    (queueEvent s e).rings = s.rings := by unfold queueEvent; repeat' (first | rfl | split | simp)

@[simp] theorem queueEvent_dies (s : State) (e : HostEvent) :
    (queueEvent s e).dies = s.dies := by unfold queueEvent; repeat' (first | rfl | split | simp)

@[simp] theorem queueEvent_alloc (s : State) (e : HostEvent) :
    (queueEvent s e).alloc = s.alloc := by unfold queueEvent; repeat' (first | rfl | split | simp)

@[simp] theorem queueEvent_time (s : State) (e : HostEvent) :
    (queueEvent s e).time = s.time := by unfold queueEvent; repeat' (first | rfl | split | simp)

@[simp] theorem queueEvent_tim (s : State) (e : HostEvent) :
    (queueEvent s e).tim = s.tim := by unfold queueEvent; repeat' (first | rfl | split | simp)

@[simp] theorem queueEvent_thm (s : State) (e : HostEvent) :
    (queueEvent s e).thm = s.thm := by unfold queueEvent; repeat' (first | rfl | split | simp)

@[simp] theorem queueEvent_out (s : State) (e : HostEvent) :
    (queueEvent s e).out = s.out := by unfold queueEvent; repeat' (first | rfl | split | simp)

@[simp] theorem queueEvent_dbgRestart (s : State) (e : HostEvent) :
    (queueEvent s e).dbgRestart = s.dbgRestart := by unfold queueEvent; repeat' (first | rfl | split | simp)

@[simp] theorem queueEvent_draw (s : State) (e : HostEvent) :
    (queueEvent s e).draw = s.draw := by unfold queueEvent; repeat' (first | rfl | split | simp)

@[simp] theorem queueEvent_pending (s : State) (e : HostEvent) :
    (queueEvent s e).pending = s.pending := by unfold queueEvent; repeat' (first | rfl | split | simp)

@[simp] theorem setPlate_fuses (s : State) (k : Nat) (p : PlateSt) :
    (State.setPlate s k p).fuses = s.fuses := by rfl

@[simp] theorem setPlate_pins (s : State) (k : Nat) (p : PlateSt) :
    (State.setPlate s k p).pins = s.pins := by rfl

@[simp] theorem setPlate_csr (s : State) (k : Nat) (p : PlateSt) :
    (State.setPlate s k p).csr = s.csr := by rfl

@[simp] theorem setPlate_cnt (s : State) (k : Nat) (p : PlateSt) :
    (State.setPlate s k p).cnt = s.cnt := by rfl

@[simp] theorem setPlate_cap (s : State) (k : Nat) (p : PlateSt) :
    (State.setPlate s k p).cap = s.cap := by rfl

@[simp] theorem setPlate_hub (s : State) (k : Nat) (p : PlateSt) :
    (State.setPlate s k p).hub = s.hub := by rfl

@[simp] theorem setPlate_mem (s : State) (k : Nat) (p : PlateSt) :
    (State.setPlate s k p).mem = s.mem := by rfl

@[simp] theorem setPlate_plateCodes (s : State) (k : Nat) (p : PlateSt) :
    (State.setPlate s k p).plateCodes = s.plateCodes := by rfl

@[simp] theorem setPlate_sramCodes (s : State) (k : Nat) (p : PlateSt) :
    (State.setPlate s k p).sramCodes = s.sramCodes := by rfl

@[simp] theorem setPlate_flags (s : State) (k : Nat) (p : PlateSt) :
    (State.setPlate s k p).flags = s.flags := by rfl

@[simp] theorem setPlate_fpois (s : State) (k : Nat) (p : PlateSt) :
    (State.setPlate s k p).fpois = s.fpois := by rfl

@[simp] theorem setPlate_cores (s : State) (k : Nat) (p : PlateSt) :
    (State.setPlate s k p).cores = s.cores := by rfl

@[simp] theorem setPlate_cmds (s : State) (k : Nat) (p : PlateSt) :
    (State.setPlate s k p).cmds = s.cmds := by rfl

@[simp] theorem setPlate_nextCmd (s : State) (k : Nat) (p : PlateSt) :
    (State.setPlate s k p).nextCmd = s.nextCmd := by rfl

@[simp] theorem setPlate_aqts (s : State) (k : Nat) (p : PlateSt) :
    (State.setPlate s k p).aqts = s.aqts := by rfl

@[simp] theorem setPlate_net (s : State) (k : Nat) (p : PlateSt) :
    (State.setPlate s k p).net = s.net := by rfl

@[simp] theorem setPlate_coll (s : State) (k : Nat) (p : PlateSt) :
    (State.setPlate s k p).coll = s.coll := by rfl

@[simp] theorem setPlate_mbr (s : State) (k : Nat) (p : PlateSt) :
    (State.setPlate s k p).mbr = s.mbr := by rfl

@[simp] theorem setPlate_host (s : State) (k : Nat) (p : PlateSt) :
    (State.setPlate s k p).host = s.host := by rfl

@[simp] theorem setPlate_sec (s : State) (k : Nat) (p : PlateSt) :
    (State.setPlate s k p).sec = s.sec := by rfl

@[simp] theorem setPlate_lanes (s : State) (k : Nat) (p : PlateSt) :
    (State.setPlate s k p).lanes = s.lanes := by rfl

@[simp] theorem setPlate_rings (s : State) (k : Nat) (p : PlateSt) :
    (State.setPlate s k p).rings = s.rings := by rfl

@[simp] theorem setPlate_dies (s : State) (k : Nat) (p : PlateSt) :
    (State.setPlate s k p).dies = s.dies := by rfl

@[simp] theorem setPlate_alloc (s : State) (k : Nat) (p : PlateSt) :
    (State.setPlate s k p).alloc = s.alloc := by rfl

@[simp] theorem setPlate_time (s : State) (k : Nat) (p : PlateSt) :
    (State.setPlate s k p).time = s.time := by rfl

@[simp] theorem setPlate_tim (s : State) (k : Nat) (p : PlateSt) :
    (State.setPlate s k p).tim = s.tim := by rfl

@[simp] theorem setPlate_thm (s : State) (k : Nat) (p : PlateSt) :
    (State.setPlate s k p).thm = s.thm := by rfl

@[simp] theorem setPlate_events (s : State) (k : Nat) (p : PlateSt) :
    (State.setPlate s k p).events = s.events := by rfl

@[simp] theorem setPlate_out (s : State) (k : Nat) (p : PlateSt) :
    (State.setPlate s k p).out = s.out := by rfl

@[simp] theorem setPlate_dbgRestart (s : State) (k : Nat) (p : PlateSt) :
    (State.setPlate s k p).dbgRestart = s.dbgRestart := by rfl

@[simp] theorem setPlate_draw (s : State) (k : Nat) (p : PlateSt) :
    (State.setPlate s k p).draw = s.draw := by rfl

@[simp] theorem setPlate_pending (s : State) (k : Nat) (p : PlateSt) :
    (State.setPlate s k p).pending = s.pending := by rfl

@[simp] theorem setCodes_fuses (s : State) (a : Nat) (c : Codes) :
    (State.setCodes s a c).fuses = s.fuses := by unfold State.setCodes; split <;> rfl

@[simp] theorem setCodes_pins (s : State) (a : Nat) (c : Codes) :
    (State.setCodes s a c).pins = s.pins := by unfold State.setCodes; split <;> rfl

@[simp] theorem setCodes_csr (s : State) (a : Nat) (c : Codes) :
    (State.setCodes s a c).csr = s.csr := by unfold State.setCodes; split <;> rfl

@[simp] theorem setCodes_cnt (s : State) (a : Nat) (c : Codes) :
    (State.setCodes s a c).cnt = s.cnt := by unfold State.setCodes; split <;> rfl

@[simp] theorem setCodes_cap (s : State) (a : Nat) (c : Codes) :
    (State.setCodes s a c).cap = s.cap := by unfold State.setCodes; split <;> rfl

@[simp] theorem setCodes_hub (s : State) (a : Nat) (c : Codes) :
    (State.setCodes s a c).hub = s.hub := by unfold State.setCodes; split <;> rfl

@[simp] theorem setCodes_mem (s : State) (a : Nat) (c : Codes) :
    (State.setCodes s a c).mem = s.mem := by unfold State.setCodes; split <;> rfl

@[simp] theorem setCodes_plates (s : State) (a : Nat) (c : Codes) :
    (State.setCodes s a c).plates = s.plates := by unfold State.setCodes; split <;> rfl

@[simp] theorem setCodes_flags (s : State) (a : Nat) (c : Codes) :
    (State.setCodes s a c).flags = s.flags := by unfold State.setCodes; split <;> rfl

@[simp] theorem setCodes_fpois (s : State) (a : Nat) (c : Codes) :
    (State.setCodes s a c).fpois = s.fpois := by unfold State.setCodes; split <;> rfl

@[simp] theorem setCodes_cores (s : State) (a : Nat) (c : Codes) :
    (State.setCodes s a c).cores = s.cores := by unfold State.setCodes; split <;> rfl

@[simp] theorem setCodes_cmds (s : State) (a : Nat) (c : Codes) :
    (State.setCodes s a c).cmds = s.cmds := by unfold State.setCodes; split <;> rfl

@[simp] theorem setCodes_nextCmd (s : State) (a : Nat) (c : Codes) :
    (State.setCodes s a c).nextCmd = s.nextCmd := by unfold State.setCodes; split <;> rfl

@[simp] theorem setCodes_aqts (s : State) (a : Nat) (c : Codes) :
    (State.setCodes s a c).aqts = s.aqts := by unfold State.setCodes; split <;> rfl

@[simp] theorem setCodes_net (s : State) (a : Nat) (c : Codes) :
    (State.setCodes s a c).net = s.net := by unfold State.setCodes; split <;> rfl

@[simp] theorem setCodes_coll (s : State) (a : Nat) (c : Codes) :
    (State.setCodes s a c).coll = s.coll := by unfold State.setCodes; split <;> rfl

@[simp] theorem setCodes_mbr (s : State) (a : Nat) (c : Codes) :
    (State.setCodes s a c).mbr = s.mbr := by unfold State.setCodes; split <;> rfl

@[simp] theorem setCodes_host (s : State) (a : Nat) (c : Codes) :
    (State.setCodes s a c).host = s.host := by unfold State.setCodes; split <;> rfl

@[simp] theorem setCodes_sec (s : State) (a : Nat) (c : Codes) :
    (State.setCodes s a c).sec = s.sec := by unfold State.setCodes; split <;> rfl

@[simp] theorem setCodes_lanes (s : State) (a : Nat) (c : Codes) :
    (State.setCodes s a c).lanes = s.lanes := by unfold State.setCodes; split <;> rfl

@[simp] theorem setCodes_rings (s : State) (a : Nat) (c : Codes) :
    (State.setCodes s a c).rings = s.rings := by unfold State.setCodes; split <;> rfl

@[simp] theorem setCodes_dies (s : State) (a : Nat) (c : Codes) :
    (State.setCodes s a c).dies = s.dies := by unfold State.setCodes; split <;> rfl

@[simp] theorem setCodes_alloc (s : State) (a : Nat) (c : Codes) :
    (State.setCodes s a c).alloc = s.alloc := by unfold State.setCodes; split <;> rfl

@[simp] theorem setCodes_time (s : State) (a : Nat) (c : Codes) :
    (State.setCodes s a c).time = s.time := by unfold State.setCodes; split <;> rfl

@[simp] theorem setCodes_tim (s : State) (a : Nat) (c : Codes) :
    (State.setCodes s a c).tim = s.tim := by unfold State.setCodes; split <;> rfl

@[simp] theorem setCodes_thm (s : State) (a : Nat) (c : Codes) :
    (State.setCodes s a c).thm = s.thm := by unfold State.setCodes; split <;> rfl

@[simp] theorem setCodes_events (s : State) (a : Nat) (c : Codes) :
    (State.setCodes s a c).events = s.events := by unfold State.setCodes; split <;> rfl

@[simp] theorem setCodes_out (s : State) (a : Nat) (c : Codes) :
    (State.setCodes s a c).out = s.out := by unfold State.setCodes; split <;> rfl

@[simp] theorem setCodes_dbgRestart (s : State) (a : Nat) (c : Codes) :
    (State.setCodes s a c).dbgRestart = s.dbgRestart := by unfold State.setCodes; split <;> rfl

@[simp] theorem setCodes_draw (s : State) (a : Nat) (c : Codes) :
    (State.setCodes s a c).draw = s.draw := by unfold State.setCodes; split <;> rfl

@[simp] theorem setCodes_pending (s : State) (a : Nat) (c : Codes) :
    (State.setCodes s a c).pending = s.pending := by unfold State.setCodes; split <;> rfl

@[simp] theorem markCw_fuses (s : State) (a : Nat) (pois : Bool) :
    (State.markCw s a pois).fuses = s.fuses := by simp [State.markCw]

@[simp] theorem markCw_pins (s : State) (a : Nat) (pois : Bool) :
    (State.markCw s a pois).pins = s.pins := by simp [State.markCw]

@[simp] theorem markCw_csr (s : State) (a : Nat) (pois : Bool) :
    (State.markCw s a pois).csr = s.csr := by simp [State.markCw]

@[simp] theorem markCw_cnt (s : State) (a : Nat) (pois : Bool) :
    (State.markCw s a pois).cnt = s.cnt := by simp [State.markCw]

@[simp] theorem markCw_cap (s : State) (a : Nat) (pois : Bool) :
    (State.markCw s a pois).cap = s.cap := by simp [State.markCw]

@[simp] theorem markCw_hub (s : State) (a : Nat) (pois : Bool) :
    (State.markCw s a pois).hub = s.hub := by simp [State.markCw]

@[simp] theorem markCw_mem (s : State) (a : Nat) (pois : Bool) :
    (State.markCw s a pois).mem = s.mem := by simp [State.markCw]

@[simp] theorem markCw_plates (s : State) (a : Nat) (pois : Bool) :
    (State.markCw s a pois).plates = s.plates := by simp [State.markCw]

@[simp] theorem markCw_flags (s : State) (a : Nat) (pois : Bool) :
    (State.markCw s a pois).flags = s.flags := by simp [State.markCw]

@[simp] theorem markCw_fpois (s : State) (a : Nat) (pois : Bool) :
    (State.markCw s a pois).fpois = s.fpois := by simp [State.markCw]

@[simp] theorem markCw_cores (s : State) (a : Nat) (pois : Bool) :
    (State.markCw s a pois).cores = s.cores := by simp [State.markCw]

@[simp] theorem markCw_cmds (s : State) (a : Nat) (pois : Bool) :
    (State.markCw s a pois).cmds = s.cmds := by simp [State.markCw]

@[simp] theorem markCw_nextCmd (s : State) (a : Nat) (pois : Bool) :
    (State.markCw s a pois).nextCmd = s.nextCmd := by simp [State.markCw]

@[simp] theorem markCw_aqts (s : State) (a : Nat) (pois : Bool) :
    (State.markCw s a pois).aqts = s.aqts := by simp [State.markCw]

@[simp] theorem markCw_net (s : State) (a : Nat) (pois : Bool) :
    (State.markCw s a pois).net = s.net := by simp [State.markCw]

@[simp] theorem markCw_coll (s : State) (a : Nat) (pois : Bool) :
    (State.markCw s a pois).coll = s.coll := by simp [State.markCw]

@[simp] theorem markCw_mbr (s : State) (a : Nat) (pois : Bool) :
    (State.markCw s a pois).mbr = s.mbr := by simp [State.markCw]

@[simp] theorem markCw_host (s : State) (a : Nat) (pois : Bool) :
    (State.markCw s a pois).host = s.host := by simp [State.markCw]

@[simp] theorem markCw_sec (s : State) (a : Nat) (pois : Bool) :
    (State.markCw s a pois).sec = s.sec := by simp [State.markCw]

@[simp] theorem markCw_lanes (s : State) (a : Nat) (pois : Bool) :
    (State.markCw s a pois).lanes = s.lanes := by simp [State.markCw]

@[simp] theorem markCw_rings (s : State) (a : Nat) (pois : Bool) :
    (State.markCw s a pois).rings = s.rings := by simp [State.markCw]

@[simp] theorem markCw_dies (s : State) (a : Nat) (pois : Bool) :
    (State.markCw s a pois).dies = s.dies := by simp [State.markCw]

@[simp] theorem markCw_alloc (s : State) (a : Nat) (pois : Bool) :
    (State.markCw s a pois).alloc = s.alloc := by simp [State.markCw]

@[simp] theorem markCw_time (s : State) (a : Nat) (pois : Bool) :
    (State.markCw s a pois).time = s.time := by simp [State.markCw]

@[simp] theorem markCw_tim (s : State) (a : Nat) (pois : Bool) :
    (State.markCw s a pois).tim = s.tim := by simp [State.markCw]

@[simp] theorem markCw_thm (s : State) (a : Nat) (pois : Bool) :
    (State.markCw s a pois).thm = s.thm := by simp [State.markCw]

@[simp] theorem markCw_events (s : State) (a : Nat) (pois : Bool) :
    (State.markCw s a pois).events = s.events := by simp [State.markCw]

@[simp] theorem markCw_out (s : State) (a : Nat) (pois : Bool) :
    (State.markCw s a pois).out = s.out := by simp [State.markCw]

@[simp] theorem markCw_dbgRestart (s : State) (a : Nat) (pois : Bool) :
    (State.markCw s a pois).dbgRestart = s.dbgRestart := by simp [State.markCw]

@[simp] theorem markCw_draw (s : State) (a : Nat) (pois : Bool) :
    (State.markCw s a pois).draw = s.draw := by simp [State.markCw]

@[simp] theorem markCw_pending (s : State) (a : Nat) (pois : Bool) :
    (State.markCw s a pois).pending = s.pending := by simp [State.markCw]

@[simp] theorem setErrs_fuses (s : State) (a : Nat) (l : SMap Nat) :
    (State.setErrs s a l).fuses = s.fuses := by simp [State.setErrs]

@[simp] theorem setErrs_pins (s : State) (a : Nat) (l : SMap Nat) :
    (State.setErrs s a l).pins = s.pins := by simp [State.setErrs]

@[simp] theorem setErrs_csr (s : State) (a : Nat) (l : SMap Nat) :
    (State.setErrs s a l).csr = s.csr := by simp [State.setErrs]

@[simp] theorem setErrs_cnt (s : State) (a : Nat) (l : SMap Nat) :
    (State.setErrs s a l).cnt = s.cnt := by simp [State.setErrs]

@[simp] theorem setErrs_cap (s : State) (a : Nat) (l : SMap Nat) :
    (State.setErrs s a l).cap = s.cap := by simp [State.setErrs]

@[simp] theorem setErrs_hub (s : State) (a : Nat) (l : SMap Nat) :
    (State.setErrs s a l).hub = s.hub := by simp [State.setErrs]

@[simp] theorem setErrs_mem (s : State) (a : Nat) (l : SMap Nat) :
    (State.setErrs s a l).mem = s.mem := by simp [State.setErrs]

@[simp] theorem setErrs_plates (s : State) (a : Nat) (l : SMap Nat) :
    (State.setErrs s a l).plates = s.plates := by simp [State.setErrs]

@[simp] theorem setErrs_flags (s : State) (a : Nat) (l : SMap Nat) :
    (State.setErrs s a l).flags = s.flags := by simp [State.setErrs]

@[simp] theorem setErrs_fpois (s : State) (a : Nat) (l : SMap Nat) :
    (State.setErrs s a l).fpois = s.fpois := by simp [State.setErrs]

@[simp] theorem setErrs_cores (s : State) (a : Nat) (l : SMap Nat) :
    (State.setErrs s a l).cores = s.cores := by simp [State.setErrs]

@[simp] theorem setErrs_cmds (s : State) (a : Nat) (l : SMap Nat) :
    (State.setErrs s a l).cmds = s.cmds := by simp [State.setErrs]

@[simp] theorem setErrs_nextCmd (s : State) (a : Nat) (l : SMap Nat) :
    (State.setErrs s a l).nextCmd = s.nextCmd := by simp [State.setErrs]

@[simp] theorem setErrs_aqts (s : State) (a : Nat) (l : SMap Nat) :
    (State.setErrs s a l).aqts = s.aqts := by simp [State.setErrs]

@[simp] theorem setErrs_net (s : State) (a : Nat) (l : SMap Nat) :
    (State.setErrs s a l).net = s.net := by simp [State.setErrs]

@[simp] theorem setErrs_coll (s : State) (a : Nat) (l : SMap Nat) :
    (State.setErrs s a l).coll = s.coll := by simp [State.setErrs]

@[simp] theorem setErrs_mbr (s : State) (a : Nat) (l : SMap Nat) :
    (State.setErrs s a l).mbr = s.mbr := by simp [State.setErrs]

@[simp] theorem setErrs_host (s : State) (a : Nat) (l : SMap Nat) :
    (State.setErrs s a l).host = s.host := by simp [State.setErrs]

@[simp] theorem setErrs_sec (s : State) (a : Nat) (l : SMap Nat) :
    (State.setErrs s a l).sec = s.sec := by simp [State.setErrs]

@[simp] theorem setErrs_lanes (s : State) (a : Nat) (l : SMap Nat) :
    (State.setErrs s a l).lanes = s.lanes := by simp [State.setErrs]

@[simp] theorem setErrs_rings (s : State) (a : Nat) (l : SMap Nat) :
    (State.setErrs s a l).rings = s.rings := by simp [State.setErrs]

@[simp] theorem setErrs_dies (s : State) (a : Nat) (l : SMap Nat) :
    (State.setErrs s a l).dies = s.dies := by simp [State.setErrs]

@[simp] theorem setErrs_alloc (s : State) (a : Nat) (l : SMap Nat) :
    (State.setErrs s a l).alloc = s.alloc := by simp [State.setErrs]

@[simp] theorem setErrs_time (s : State) (a : Nat) (l : SMap Nat) :
    (State.setErrs s a l).time = s.time := by simp [State.setErrs]

@[simp] theorem setErrs_tim (s : State) (a : Nat) (l : SMap Nat) :
    (State.setErrs s a l).tim = s.tim := by simp [State.setErrs]

@[simp] theorem setErrs_thm (s : State) (a : Nat) (l : SMap Nat) :
    (State.setErrs s a l).thm = s.thm := by simp [State.setErrs]

@[simp] theorem setErrs_events (s : State) (a : Nat) (l : SMap Nat) :
    (State.setErrs s a l).events = s.events := by simp [State.setErrs]

@[simp] theorem setErrs_out (s : State) (a : Nat) (l : SMap Nat) :
    (State.setErrs s a l).out = s.out := by simp [State.setErrs]

@[simp] theorem setErrs_dbgRestart (s : State) (a : Nat) (l : SMap Nat) :
    (State.setErrs s a l).dbgRestart = s.dbgRestart := by simp [State.setErrs]

@[simp] theorem setErrs_draw (s : State) (a : Nat) (l : SMap Nat) :
    (State.setErrs s a l).draw = s.draw := by simp [State.setErrs]

@[simp] theorem setErrs_pending (s : State) (a : Nat) (l : SMap Nat) :
    (State.setErrs s a l).pending = s.pending := by simp [State.setErrs]

@[simp] theorem setFlagVal_fuses (s : State) (c f : Nat) (v : Word) :
    (State.setFlagVal s c f v).fuses = s.fuses := by rfl

@[simp] theorem setFlagVal_pins (s : State) (c f : Nat) (v : Word) :
    (State.setFlagVal s c f v).pins = s.pins := by rfl

@[simp] theorem setFlagVal_csr (s : State) (c f : Nat) (v : Word) :
    (State.setFlagVal s c f v).csr = s.csr := by rfl

@[simp] theorem setFlagVal_cnt (s : State) (c f : Nat) (v : Word) :
    (State.setFlagVal s c f v).cnt = s.cnt := by rfl

@[simp] theorem setFlagVal_cap (s : State) (c f : Nat) (v : Word) :
    (State.setFlagVal s c f v).cap = s.cap := by rfl

@[simp] theorem setFlagVal_hub (s : State) (c f : Nat) (v : Word) :
    (State.setFlagVal s c f v).hub = s.hub := by rfl

@[simp] theorem setFlagVal_mem (s : State) (c f : Nat) (v : Word) :
    (State.setFlagVal s c f v).mem = s.mem := by rfl

@[simp] theorem setFlagVal_plates (s : State) (c f : Nat) (v : Word) :
    (State.setFlagVal s c f v).plates = s.plates := by rfl

@[simp] theorem setFlagVal_plateCodes (s : State) (c f : Nat) (v : Word) :
    (State.setFlagVal s c f v).plateCodes = s.plateCodes := by rfl

@[simp] theorem setFlagVal_sramCodes (s : State) (c f : Nat) (v : Word) :
    (State.setFlagVal s c f v).sramCodes = s.sramCodes := by rfl

@[simp] theorem setFlagVal_fpois (s : State) (c f : Nat) (v : Word) :
    (State.setFlagVal s c f v).fpois = s.fpois := by rfl

@[simp] theorem setFlagVal_cores (s : State) (c f : Nat) (v : Word) :
    (State.setFlagVal s c f v).cores = s.cores := by rfl

@[simp] theorem setFlagVal_cmds (s : State) (c f : Nat) (v : Word) :
    (State.setFlagVal s c f v).cmds = s.cmds := by rfl

@[simp] theorem setFlagVal_nextCmd (s : State) (c f : Nat) (v : Word) :
    (State.setFlagVal s c f v).nextCmd = s.nextCmd := by rfl

@[simp] theorem setFlagVal_aqts (s : State) (c f : Nat) (v : Word) :
    (State.setFlagVal s c f v).aqts = s.aqts := by rfl

@[simp] theorem setFlagVal_net (s : State) (c f : Nat) (v : Word) :
    (State.setFlagVal s c f v).net = s.net := by rfl

@[simp] theorem setFlagVal_coll (s : State) (c f : Nat) (v : Word) :
    (State.setFlagVal s c f v).coll = s.coll := by rfl

@[simp] theorem setFlagVal_mbr (s : State) (c f : Nat) (v : Word) :
    (State.setFlagVal s c f v).mbr = s.mbr := by rfl

@[simp] theorem setFlagVal_host (s : State) (c f : Nat) (v : Word) :
    (State.setFlagVal s c f v).host = s.host := by rfl

@[simp] theorem setFlagVal_sec (s : State) (c f : Nat) (v : Word) :
    (State.setFlagVal s c f v).sec = s.sec := by rfl

@[simp] theorem setFlagVal_lanes (s : State) (c f : Nat) (v : Word) :
    (State.setFlagVal s c f v).lanes = s.lanes := by rfl

@[simp] theorem setFlagVal_rings (s : State) (c f : Nat) (v : Word) :
    (State.setFlagVal s c f v).rings = s.rings := by rfl

@[simp] theorem setFlagVal_dies (s : State) (c f : Nat) (v : Word) :
    (State.setFlagVal s c f v).dies = s.dies := by rfl

@[simp] theorem setFlagVal_alloc (s : State) (c f : Nat) (v : Word) :
    (State.setFlagVal s c f v).alloc = s.alloc := by rfl

@[simp] theorem setFlagVal_time (s : State) (c f : Nat) (v : Word) :
    (State.setFlagVal s c f v).time = s.time := by rfl

@[simp] theorem setFlagVal_tim (s : State) (c f : Nat) (v : Word) :
    (State.setFlagVal s c f v).tim = s.tim := by rfl

@[simp] theorem setFlagVal_thm (s : State) (c f : Nat) (v : Word) :
    (State.setFlagVal s c f v).thm = s.thm := by rfl

@[simp] theorem setFlagVal_events (s : State) (c f : Nat) (v : Word) :
    (State.setFlagVal s c f v).events = s.events := by rfl

@[simp] theorem setFlagVal_out (s : State) (c f : Nat) (v : Word) :
    (State.setFlagVal s c f v).out = s.out := by rfl

@[simp] theorem setFlagVal_dbgRestart (s : State) (c f : Nat) (v : Word) :
    (State.setFlagVal s c f v).dbgRestart = s.dbgRestart := by rfl

@[simp] theorem setFlagVal_draw (s : State) (c f : Nat) (v : Word) :
    (State.setFlagVal s c f v).draw = s.draw := by rfl

@[simp] theorem setFlagVal_pending (s : State) (c f : Nat) (v : Word) :
    (State.setFlagVal s c f v).pending = s.pending := by rfl

@[simp] theorem setFlagPois_fuses (s : State) (c f : Nat) (b : Bool) :
    (State.setFlagPois s c f b).fuses = s.fuses := by rfl

@[simp] theorem setFlagPois_pins (s : State) (c f : Nat) (b : Bool) :
    (State.setFlagPois s c f b).pins = s.pins := by rfl

@[simp] theorem setFlagPois_csr (s : State) (c f : Nat) (b : Bool) :
    (State.setFlagPois s c f b).csr = s.csr := by rfl

@[simp] theorem setFlagPois_cnt (s : State) (c f : Nat) (b : Bool) :
    (State.setFlagPois s c f b).cnt = s.cnt := by rfl

@[simp] theorem setFlagPois_cap (s : State) (c f : Nat) (b : Bool) :
    (State.setFlagPois s c f b).cap = s.cap := by rfl

@[simp] theorem setFlagPois_hub (s : State) (c f : Nat) (b : Bool) :
    (State.setFlagPois s c f b).hub = s.hub := by rfl

@[simp] theorem setFlagPois_mem (s : State) (c f : Nat) (b : Bool) :
    (State.setFlagPois s c f b).mem = s.mem := by rfl

@[simp] theorem setFlagPois_plates (s : State) (c f : Nat) (b : Bool) :
    (State.setFlagPois s c f b).plates = s.plates := by rfl

@[simp] theorem setFlagPois_plateCodes (s : State) (c f : Nat) (b : Bool) :
    (State.setFlagPois s c f b).plateCodes = s.plateCodes := by rfl

@[simp] theorem setFlagPois_sramCodes (s : State) (c f : Nat) (b : Bool) :
    (State.setFlagPois s c f b).sramCodes = s.sramCodes := by rfl

@[simp] theorem setFlagPois_flags (s : State) (c f : Nat) (b : Bool) :
    (State.setFlagPois s c f b).flags = s.flags := by rfl

@[simp] theorem setFlagPois_cores (s : State) (c f : Nat) (b : Bool) :
    (State.setFlagPois s c f b).cores = s.cores := by rfl

@[simp] theorem setFlagPois_cmds (s : State) (c f : Nat) (b : Bool) :
    (State.setFlagPois s c f b).cmds = s.cmds := by rfl

@[simp] theorem setFlagPois_nextCmd (s : State) (c f : Nat) (b : Bool) :
    (State.setFlagPois s c f b).nextCmd = s.nextCmd := by rfl

@[simp] theorem setFlagPois_aqts (s : State) (c f : Nat) (b : Bool) :
    (State.setFlagPois s c f b).aqts = s.aqts := by rfl

@[simp] theorem setFlagPois_net (s : State) (c f : Nat) (b : Bool) :
    (State.setFlagPois s c f b).net = s.net := by rfl

@[simp] theorem setFlagPois_coll (s : State) (c f : Nat) (b : Bool) :
    (State.setFlagPois s c f b).coll = s.coll := by rfl

@[simp] theorem setFlagPois_mbr (s : State) (c f : Nat) (b : Bool) :
    (State.setFlagPois s c f b).mbr = s.mbr := by rfl

@[simp] theorem setFlagPois_host (s : State) (c f : Nat) (b : Bool) :
    (State.setFlagPois s c f b).host = s.host := by rfl

@[simp] theorem setFlagPois_sec (s : State) (c f : Nat) (b : Bool) :
    (State.setFlagPois s c f b).sec = s.sec := by rfl

@[simp] theorem setFlagPois_lanes (s : State) (c f : Nat) (b : Bool) :
    (State.setFlagPois s c f b).lanes = s.lanes := by rfl

@[simp] theorem setFlagPois_rings (s : State) (c f : Nat) (b : Bool) :
    (State.setFlagPois s c f b).rings = s.rings := by rfl

@[simp] theorem setFlagPois_dies (s : State) (c f : Nat) (b : Bool) :
    (State.setFlagPois s c f b).dies = s.dies := by rfl

@[simp] theorem setFlagPois_alloc (s : State) (c f : Nat) (b : Bool) :
    (State.setFlagPois s c f b).alloc = s.alloc := by rfl

@[simp] theorem setFlagPois_time (s : State) (c f : Nat) (b : Bool) :
    (State.setFlagPois s c f b).time = s.time := by rfl

@[simp] theorem setFlagPois_tim (s : State) (c f : Nat) (b : Bool) :
    (State.setFlagPois s c f b).tim = s.tim := by rfl

@[simp] theorem setFlagPois_thm (s : State) (c f : Nat) (b : Bool) :
    (State.setFlagPois s c f b).thm = s.thm := by rfl

@[simp] theorem setFlagPois_events (s : State) (c f : Nat) (b : Bool) :
    (State.setFlagPois s c f b).events = s.events := by rfl

@[simp] theorem setFlagPois_out (s : State) (c f : Nat) (b : Bool) :
    (State.setFlagPois s c f b).out = s.out := by rfl

@[simp] theorem setFlagPois_dbgRestart (s : State) (c f : Nat) (b : Bool) :
    (State.setFlagPois s c f b).dbgRestart = s.dbgRestart := by rfl

@[simp] theorem setFlagPois_draw (s : State) (c f : Nat) (b : Bool) :
    (State.setFlagPois s c f b).draw = s.draw := by rfl

@[simp] theorem setFlagPois_pending (s : State) (c f : Nat) (b : Bool) :
    (State.setFlagPois s c f b).pending = s.pending := by rfl

@[simp] theorem setTxDst_fuses (s : State) (d : Nat) (x : TxDst) :
    (State.setTxDst s d x).fuses = s.fuses := by rfl

@[simp] theorem setTxDst_pins (s : State) (d : Nat) (x : TxDst) :
    (State.setTxDst s d x).pins = s.pins := by rfl

@[simp] theorem setTxDst_csr (s : State) (d : Nat) (x : TxDst) :
    (State.setTxDst s d x).csr = s.csr := by rfl

@[simp] theorem setTxDst_cnt (s : State) (d : Nat) (x : TxDst) :
    (State.setTxDst s d x).cnt = s.cnt := by rfl

@[simp] theorem setTxDst_cap (s : State) (d : Nat) (x : TxDst) :
    (State.setTxDst s d x).cap = s.cap := by rfl

@[simp] theorem setTxDst_hub (s : State) (d : Nat) (x : TxDst) :
    (State.setTxDst s d x).hub = s.hub := by rfl

@[simp] theorem setTxDst_mem (s : State) (d : Nat) (x : TxDst) :
    (State.setTxDst s d x).mem = s.mem := by rfl

@[simp] theorem setTxDst_plates (s : State) (d : Nat) (x : TxDst) :
    (State.setTxDst s d x).plates = s.plates := by rfl

@[simp] theorem setTxDst_plateCodes (s : State) (d : Nat) (x : TxDst) :
    (State.setTxDst s d x).plateCodes = s.plateCodes := by rfl

@[simp] theorem setTxDst_sramCodes (s : State) (d : Nat) (x : TxDst) :
    (State.setTxDst s d x).sramCodes = s.sramCodes := by rfl

@[simp] theorem setTxDst_flags (s : State) (d : Nat) (x : TxDst) :
    (State.setTxDst s d x).flags = s.flags := by rfl

@[simp] theorem setTxDst_fpois (s : State) (d : Nat) (x : TxDst) :
    (State.setTxDst s d x).fpois = s.fpois := by rfl

@[simp] theorem setTxDst_cores (s : State) (d : Nat) (x : TxDst) :
    (State.setTxDst s d x).cores = s.cores := by rfl

@[simp] theorem setTxDst_cmds (s : State) (d : Nat) (x : TxDst) :
    (State.setTxDst s d x).cmds = s.cmds := by rfl

@[simp] theorem setTxDst_nextCmd (s : State) (d : Nat) (x : TxDst) :
    (State.setTxDst s d x).nextCmd = s.nextCmd := by rfl

@[simp] theorem setTxDst_aqts (s : State) (d : Nat) (x : TxDst) :
    (State.setTxDst s d x).aqts = s.aqts := by rfl

@[simp] theorem setTxDst_coll (s : State) (d : Nat) (x : TxDst) :
    (State.setTxDst s d x).coll = s.coll := by rfl

@[simp] theorem setTxDst_mbr (s : State) (d : Nat) (x : TxDst) :
    (State.setTxDst s d x).mbr = s.mbr := by rfl

@[simp] theorem setTxDst_host (s : State) (d : Nat) (x : TxDst) :
    (State.setTxDst s d x).host = s.host := by rfl

@[simp] theorem setTxDst_sec (s : State) (d : Nat) (x : TxDst) :
    (State.setTxDst s d x).sec = s.sec := by rfl

@[simp] theorem setTxDst_lanes (s : State) (d : Nat) (x : TxDst) :
    (State.setTxDst s d x).lanes = s.lanes := by rfl

@[simp] theorem setTxDst_rings (s : State) (d : Nat) (x : TxDst) :
    (State.setTxDst s d x).rings = s.rings := by rfl

@[simp] theorem setTxDst_dies (s : State) (d : Nat) (x : TxDst) :
    (State.setTxDst s d x).dies = s.dies := by rfl

@[simp] theorem setTxDst_alloc (s : State) (d : Nat) (x : TxDst) :
    (State.setTxDst s d x).alloc = s.alloc := by rfl

@[simp] theorem setTxDst_time (s : State) (d : Nat) (x : TxDst) :
    (State.setTxDst s d x).time = s.time := by rfl

@[simp] theorem setTxDst_tim (s : State) (d : Nat) (x : TxDst) :
    (State.setTxDst s d x).tim = s.tim := by rfl

@[simp] theorem setTxDst_thm (s : State) (d : Nat) (x : TxDst) :
    (State.setTxDst s d x).thm = s.thm := by rfl

@[simp] theorem setTxDst_events (s : State) (d : Nat) (x : TxDst) :
    (State.setTxDst s d x).events = s.events := by rfl

@[simp] theorem setTxDst_out (s : State) (d : Nat) (x : TxDst) :
    (State.setTxDst s d x).out = s.out := by rfl

@[simp] theorem setTxDst_dbgRestart (s : State) (d : Nat) (x : TxDst) :
    (State.setTxDst s d x).dbgRestart = s.dbgRestart := by rfl

@[simp] theorem setTxDst_draw (s : State) (d : Nat) (x : TxDst) :
    (State.setTxDst s d x).draw = s.draw := by rfl

@[simp] theorem setTxDst_pending (s : State) (d : Nat) (x : TxDst) :
    (State.setTxDst s d x).pending = s.pending := by rfl

@[simp] theorem setCmd_fuses (s : State) (id : Nat) (x : Cmd) :
    (State.setCmd s id x).fuses = s.fuses := by rfl

@[simp] theorem setCmd_pins (s : State) (id : Nat) (x : Cmd) :
    (State.setCmd s id x).pins = s.pins := by rfl

@[simp] theorem setCmd_csr (s : State) (id : Nat) (x : Cmd) :
    (State.setCmd s id x).csr = s.csr := by rfl

@[simp] theorem setCmd_cnt (s : State) (id : Nat) (x : Cmd) :
    (State.setCmd s id x).cnt = s.cnt := by rfl

@[simp] theorem setCmd_cap (s : State) (id : Nat) (x : Cmd) :
    (State.setCmd s id x).cap = s.cap := by rfl

@[simp] theorem setCmd_hub (s : State) (id : Nat) (x : Cmd) :
    (State.setCmd s id x).hub = s.hub := by rfl

@[simp] theorem setCmd_mem (s : State) (id : Nat) (x : Cmd) :
    (State.setCmd s id x).mem = s.mem := by rfl

@[simp] theorem setCmd_plates (s : State) (id : Nat) (x : Cmd) :
    (State.setCmd s id x).plates = s.plates := by rfl

@[simp] theorem setCmd_plateCodes (s : State) (id : Nat) (x : Cmd) :
    (State.setCmd s id x).plateCodes = s.plateCodes := by rfl

@[simp] theorem setCmd_sramCodes (s : State) (id : Nat) (x : Cmd) :
    (State.setCmd s id x).sramCodes = s.sramCodes := by rfl

@[simp] theorem setCmd_flags (s : State) (id : Nat) (x : Cmd) :
    (State.setCmd s id x).flags = s.flags := by rfl

@[simp] theorem setCmd_fpois (s : State) (id : Nat) (x : Cmd) :
    (State.setCmd s id x).fpois = s.fpois := by rfl

@[simp] theorem setCmd_cores (s : State) (id : Nat) (x : Cmd) :
    (State.setCmd s id x).cores = s.cores := by rfl

@[simp] theorem setCmd_nextCmd (s : State) (id : Nat) (x : Cmd) :
    (State.setCmd s id x).nextCmd = s.nextCmd := by rfl

@[simp] theorem setCmd_aqts (s : State) (id : Nat) (x : Cmd) :
    (State.setCmd s id x).aqts = s.aqts := by rfl

@[simp] theorem setCmd_net (s : State) (id : Nat) (x : Cmd) :
    (State.setCmd s id x).net = s.net := by rfl

@[simp] theorem setCmd_coll (s : State) (id : Nat) (x : Cmd) :
    (State.setCmd s id x).coll = s.coll := by rfl

@[simp] theorem setCmd_mbr (s : State) (id : Nat) (x : Cmd) :
    (State.setCmd s id x).mbr = s.mbr := by rfl

@[simp] theorem setCmd_host (s : State) (id : Nat) (x : Cmd) :
    (State.setCmd s id x).host = s.host := by rfl

@[simp] theorem setCmd_sec (s : State) (id : Nat) (x : Cmd) :
    (State.setCmd s id x).sec = s.sec := by rfl

@[simp] theorem setCmd_lanes (s : State) (id : Nat) (x : Cmd) :
    (State.setCmd s id x).lanes = s.lanes := by rfl

@[simp] theorem setCmd_rings (s : State) (id : Nat) (x : Cmd) :
    (State.setCmd s id x).rings = s.rings := by rfl

@[simp] theorem setCmd_dies (s : State) (id : Nat) (x : Cmd) :
    (State.setCmd s id x).dies = s.dies := by rfl

@[simp] theorem setCmd_alloc (s : State) (id : Nat) (x : Cmd) :
    (State.setCmd s id x).alloc = s.alloc := by rfl

@[simp] theorem setCmd_time (s : State) (id : Nat) (x : Cmd) :
    (State.setCmd s id x).time = s.time := by rfl

@[simp] theorem setCmd_tim (s : State) (id : Nat) (x : Cmd) :
    (State.setCmd s id x).tim = s.tim := by rfl

@[simp] theorem setCmd_thm (s : State) (id : Nat) (x : Cmd) :
    (State.setCmd s id x).thm = s.thm := by rfl

@[simp] theorem setCmd_events (s : State) (id : Nat) (x : Cmd) :
    (State.setCmd s id x).events = s.events := by rfl

@[simp] theorem setCmd_out (s : State) (id : Nat) (x : Cmd) :
    (State.setCmd s id x).out = s.out := by rfl

@[simp] theorem setCmd_dbgRestart (s : State) (id : Nat) (x : Cmd) :
    (State.setCmd s id x).dbgRestart = s.dbgRestart := by rfl

@[simp] theorem setCmd_draw (s : State) (id : Nat) (x : Cmd) :
    (State.setCmd s id x).draw = s.draw := by rfl

@[simp] theorem setCmd_pending (s : State) (id : Nat) (x : Cmd) :
    (State.setCmd s id x).pending = s.pending := by rfl

@[simp] theorem modCmd_fuses (s : State) (id : Nat) (f : Cmd → Cmd) :
    (State.modCmd s id f).fuses = s.fuses := by unfold State.modCmd; split <;> simp

@[simp] theorem modCmd_pins (s : State) (id : Nat) (f : Cmd → Cmd) :
    (State.modCmd s id f).pins = s.pins := by unfold State.modCmd; split <;> simp

@[simp] theorem modCmd_csr (s : State) (id : Nat) (f : Cmd → Cmd) :
    (State.modCmd s id f).csr = s.csr := by unfold State.modCmd; split <;> simp

@[simp] theorem modCmd_cnt (s : State) (id : Nat) (f : Cmd → Cmd) :
    (State.modCmd s id f).cnt = s.cnt := by unfold State.modCmd; split <;> simp

@[simp] theorem modCmd_cap (s : State) (id : Nat) (f : Cmd → Cmd) :
    (State.modCmd s id f).cap = s.cap := by unfold State.modCmd; split <;> simp

@[simp] theorem modCmd_hub (s : State) (id : Nat) (f : Cmd → Cmd) :
    (State.modCmd s id f).hub = s.hub := by unfold State.modCmd; split <;> simp

@[simp] theorem modCmd_mem (s : State) (id : Nat) (f : Cmd → Cmd) :
    (State.modCmd s id f).mem = s.mem := by unfold State.modCmd; split <;> simp

@[simp] theorem modCmd_plates (s : State) (id : Nat) (f : Cmd → Cmd) :
    (State.modCmd s id f).plates = s.plates := by unfold State.modCmd; split <;> simp

@[simp] theorem modCmd_plateCodes (s : State) (id : Nat) (f : Cmd → Cmd) :
    (State.modCmd s id f).plateCodes = s.plateCodes := by unfold State.modCmd; split <;> simp

@[simp] theorem modCmd_sramCodes (s : State) (id : Nat) (f : Cmd → Cmd) :
    (State.modCmd s id f).sramCodes = s.sramCodes := by unfold State.modCmd; split <;> simp

@[simp] theorem modCmd_flags (s : State) (id : Nat) (f : Cmd → Cmd) :
    (State.modCmd s id f).flags = s.flags := by unfold State.modCmd; split <;> simp

@[simp] theorem modCmd_fpois (s : State) (id : Nat) (f : Cmd → Cmd) :
    (State.modCmd s id f).fpois = s.fpois := by unfold State.modCmd; split <;> simp

@[simp] theorem modCmd_cores (s : State) (id : Nat) (f : Cmd → Cmd) :
    (State.modCmd s id f).cores = s.cores := by unfold State.modCmd; split <;> simp

@[simp] theorem modCmd_nextCmd (s : State) (id : Nat) (f : Cmd → Cmd) :
    (State.modCmd s id f).nextCmd = s.nextCmd := by unfold State.modCmd; split <;> simp

@[simp] theorem modCmd_aqts (s : State) (id : Nat) (f : Cmd → Cmd) :
    (State.modCmd s id f).aqts = s.aqts := by unfold State.modCmd; split <;> simp

@[simp] theorem modCmd_net (s : State) (id : Nat) (f : Cmd → Cmd) :
    (State.modCmd s id f).net = s.net := by unfold State.modCmd; split <;> simp

@[simp] theorem modCmd_coll (s : State) (id : Nat) (f : Cmd → Cmd) :
    (State.modCmd s id f).coll = s.coll := by unfold State.modCmd; split <;> simp

@[simp] theorem modCmd_mbr (s : State) (id : Nat) (f : Cmd → Cmd) :
    (State.modCmd s id f).mbr = s.mbr := by unfold State.modCmd; split <;> simp

@[simp] theorem modCmd_host (s : State) (id : Nat) (f : Cmd → Cmd) :
    (State.modCmd s id f).host = s.host := by unfold State.modCmd; split <;> simp

@[simp] theorem modCmd_sec (s : State) (id : Nat) (f : Cmd → Cmd) :
    (State.modCmd s id f).sec = s.sec := by unfold State.modCmd; split <;> simp

@[simp] theorem modCmd_lanes (s : State) (id : Nat) (f : Cmd → Cmd) :
    (State.modCmd s id f).lanes = s.lanes := by unfold State.modCmd; split <;> simp

@[simp] theorem modCmd_rings (s : State) (id : Nat) (f : Cmd → Cmd) :
    (State.modCmd s id f).rings = s.rings := by unfold State.modCmd; split <;> simp

@[simp] theorem modCmd_dies (s : State) (id : Nat) (f : Cmd → Cmd) :
    (State.modCmd s id f).dies = s.dies := by unfold State.modCmd; split <;> simp

@[simp] theorem modCmd_alloc (s : State) (id : Nat) (f : Cmd → Cmd) :
    (State.modCmd s id f).alloc = s.alloc := by unfold State.modCmd; split <;> simp

@[simp] theorem modCmd_time (s : State) (id : Nat) (f : Cmd → Cmd) :
    (State.modCmd s id f).time = s.time := by unfold State.modCmd; split <;> simp

@[simp] theorem modCmd_tim (s : State) (id : Nat) (f : Cmd → Cmd) :
    (State.modCmd s id f).tim = s.tim := by unfold State.modCmd; split <;> simp

@[simp] theorem modCmd_thm (s : State) (id : Nat) (f : Cmd → Cmd) :
    (State.modCmd s id f).thm = s.thm := by unfold State.modCmd; split <;> simp

@[simp] theorem modCmd_events (s : State) (id : Nat) (f : Cmd → Cmd) :
    (State.modCmd s id f).events = s.events := by unfold State.modCmd; split <;> simp

@[simp] theorem modCmd_out (s : State) (id : Nat) (f : Cmd → Cmd) :
    (State.modCmd s id f).out = s.out := by unfold State.modCmd; split <;> simp

@[simp] theorem modCmd_dbgRestart (s : State) (id : Nat) (f : Cmd → Cmd) :
    (State.modCmd s id f).dbgRestart = s.dbgRestart := by unfold State.modCmd; split <;> simp

@[simp] theorem modCmd_draw (s : State) (id : Nat) (f : Cmd → Cmd) :
    (State.modCmd s id f).draw = s.draw := by unfold State.modCmd; split <;> simp

@[simp] theorem modCmd_pending (s : State) (id : Nat) (f : Cmd → Cmd) :
    (State.modCmd s id f).pending = s.pending := by unfold State.modCmd; split <;> simp

@[simp] theorem dropCmd_fuses (s : State) (id : Nat) :
    (State.dropCmd s id).fuses = s.fuses := by rfl

@[simp] theorem dropCmd_pins (s : State) (id : Nat) :
    (State.dropCmd s id).pins = s.pins := by rfl

@[simp] theorem dropCmd_csr (s : State) (id : Nat) :
    (State.dropCmd s id).csr = s.csr := by rfl

@[simp] theorem dropCmd_cnt (s : State) (id : Nat) :
    (State.dropCmd s id).cnt = s.cnt := by rfl

@[simp] theorem dropCmd_cap (s : State) (id : Nat) :
    (State.dropCmd s id).cap = s.cap := by rfl

@[simp] theorem dropCmd_hub (s : State) (id : Nat) :
    (State.dropCmd s id).hub = s.hub := by rfl

@[simp] theorem dropCmd_mem (s : State) (id : Nat) :
    (State.dropCmd s id).mem = s.mem := by rfl

@[simp] theorem dropCmd_plates (s : State) (id : Nat) :
    (State.dropCmd s id).plates = s.plates := by rfl

@[simp] theorem dropCmd_plateCodes (s : State) (id : Nat) :
    (State.dropCmd s id).plateCodes = s.plateCodes := by rfl

@[simp] theorem dropCmd_sramCodes (s : State) (id : Nat) :
    (State.dropCmd s id).sramCodes = s.sramCodes := by rfl

@[simp] theorem dropCmd_flags (s : State) (id : Nat) :
    (State.dropCmd s id).flags = s.flags := by rfl

@[simp] theorem dropCmd_fpois (s : State) (id : Nat) :
    (State.dropCmd s id).fpois = s.fpois := by rfl

@[simp] theorem dropCmd_cores (s : State) (id : Nat) :
    (State.dropCmd s id).cores = s.cores := by rfl

@[simp] theorem dropCmd_nextCmd (s : State) (id : Nat) :
    (State.dropCmd s id).nextCmd = s.nextCmd := by rfl

@[simp] theorem dropCmd_aqts (s : State) (id : Nat) :
    (State.dropCmd s id).aqts = s.aqts := by rfl

@[simp] theorem dropCmd_net (s : State) (id : Nat) :
    (State.dropCmd s id).net = s.net := by rfl

@[simp] theorem dropCmd_coll (s : State) (id : Nat) :
    (State.dropCmd s id).coll = s.coll := by rfl

@[simp] theorem dropCmd_mbr (s : State) (id : Nat) :
    (State.dropCmd s id).mbr = s.mbr := by rfl

@[simp] theorem dropCmd_host (s : State) (id : Nat) :
    (State.dropCmd s id).host = s.host := by rfl

@[simp] theorem dropCmd_sec (s : State) (id : Nat) :
    (State.dropCmd s id).sec = s.sec := by rfl

@[simp] theorem dropCmd_lanes (s : State) (id : Nat) :
    (State.dropCmd s id).lanes = s.lanes := by rfl

@[simp] theorem dropCmd_rings (s : State) (id : Nat) :
    (State.dropCmd s id).rings = s.rings := by rfl

@[simp] theorem dropCmd_dies (s : State) (id : Nat) :
    (State.dropCmd s id).dies = s.dies := by rfl

@[simp] theorem dropCmd_alloc (s : State) (id : Nat) :
    (State.dropCmd s id).alloc = s.alloc := by rfl

@[simp] theorem dropCmd_time (s : State) (id : Nat) :
    (State.dropCmd s id).time = s.time := by rfl

@[simp] theorem dropCmd_tim (s : State) (id : Nat) :
    (State.dropCmd s id).tim = s.tim := by rfl

@[simp] theorem dropCmd_thm (s : State) (id : Nat) :
    (State.dropCmd s id).thm = s.thm := by rfl

@[simp] theorem dropCmd_events (s : State) (id : Nat) :
    (State.dropCmd s id).events = s.events := by rfl

@[simp] theorem dropCmd_out (s : State) (id : Nat) :
    (State.dropCmd s id).out = s.out := by rfl

@[simp] theorem dropCmd_dbgRestart (s : State) (id : Nat) :
    (State.dropCmd s id).dbgRestart = s.dbgRestart := by rfl

@[simp] theorem dropCmd_draw (s : State) (id : Nat) :
    (State.dropCmd s id).draw = s.draw := by rfl

@[simp] theorem dropCmd_pending (s : State) (id : Nat) :
    (State.dropCmd s id).pending = s.pending := by rfl

@[simp] theorem modArr_fuses (s : State) (c a : Nat) (f : ArrSt → ArrSt) :
    (State.modArr s c a f).fuses = s.fuses := by simp [State.modArr]

@[simp] theorem modArr_pins (s : State) (c a : Nat) (f : ArrSt → ArrSt) :
    (State.modArr s c a f).pins = s.pins := by simp [State.modArr]

@[simp] theorem modArr_csr (s : State) (c a : Nat) (f : ArrSt → ArrSt) :
    (State.modArr s c a f).csr = s.csr := by simp [State.modArr]

@[simp] theorem modArr_cnt (s : State) (c a : Nat) (f : ArrSt → ArrSt) :
    (State.modArr s c a f).cnt = s.cnt := by simp [State.modArr]

@[simp] theorem modArr_cap (s : State) (c a : Nat) (f : ArrSt → ArrSt) :
    (State.modArr s c a f).cap = s.cap := by simp [State.modArr]

@[simp] theorem modArr_hub (s : State) (c a : Nat) (f : ArrSt → ArrSt) :
    (State.modArr s c a f).hub = s.hub := by simp [State.modArr]

@[simp] theorem modArr_mem (s : State) (c a : Nat) (f : ArrSt → ArrSt) :
    (State.modArr s c a f).mem = s.mem := by simp [State.modArr]

@[simp] theorem modArr_plates (s : State) (c a : Nat) (f : ArrSt → ArrSt) :
    (State.modArr s c a f).plates = s.plates := by simp [State.modArr]

@[simp] theorem modArr_plateCodes (s : State) (c a : Nat) (f : ArrSt → ArrSt) :
    (State.modArr s c a f).plateCodes = s.plateCodes := by simp [State.modArr]

@[simp] theorem modArr_sramCodes (s : State) (c a : Nat) (f : ArrSt → ArrSt) :
    (State.modArr s c a f).sramCodes = s.sramCodes := by simp [State.modArr]

@[simp] theorem modArr_flags (s : State) (c a : Nat) (f : ArrSt → ArrSt) :
    (State.modArr s c a f).flags = s.flags := by simp [State.modArr]

@[simp] theorem modArr_fpois (s : State) (c a : Nat) (f : ArrSt → ArrSt) :
    (State.modArr s c a f).fpois = s.fpois := by simp [State.modArr]

@[simp] theorem modArr_cmds (s : State) (c a : Nat) (f : ArrSt → ArrSt) :
    (State.modArr s c a f).cmds = s.cmds := by simp [State.modArr]

@[simp] theorem modArr_nextCmd (s : State) (c a : Nat) (f : ArrSt → ArrSt) :
    (State.modArr s c a f).nextCmd = s.nextCmd := by simp [State.modArr]

@[simp] theorem modArr_aqts (s : State) (c a : Nat) (f : ArrSt → ArrSt) :
    (State.modArr s c a f).aqts = s.aqts := by simp [State.modArr]

@[simp] theorem modArr_net (s : State) (c a : Nat) (f : ArrSt → ArrSt) :
    (State.modArr s c a f).net = s.net := by simp [State.modArr]

@[simp] theorem modArr_coll (s : State) (c a : Nat) (f : ArrSt → ArrSt) :
    (State.modArr s c a f).coll = s.coll := by simp [State.modArr]

@[simp] theorem modArr_mbr (s : State) (c a : Nat) (f : ArrSt → ArrSt) :
    (State.modArr s c a f).mbr = s.mbr := by simp [State.modArr]

@[simp] theorem modArr_host (s : State) (c a : Nat) (f : ArrSt → ArrSt) :
    (State.modArr s c a f).host = s.host := by simp [State.modArr]

@[simp] theorem modArr_sec (s : State) (c a : Nat) (f : ArrSt → ArrSt) :
    (State.modArr s c a f).sec = s.sec := by simp [State.modArr]

@[simp] theorem modArr_lanes (s : State) (c a : Nat) (f : ArrSt → ArrSt) :
    (State.modArr s c a f).lanes = s.lanes := by simp [State.modArr]

@[simp] theorem modArr_rings (s : State) (c a : Nat) (f : ArrSt → ArrSt) :
    (State.modArr s c a f).rings = s.rings := by simp [State.modArr]

@[simp] theorem modArr_dies (s : State) (c a : Nat) (f : ArrSt → ArrSt) :
    (State.modArr s c a f).dies = s.dies := by simp [State.modArr]

@[simp] theorem modArr_alloc (s : State) (c a : Nat) (f : ArrSt → ArrSt) :
    (State.modArr s c a f).alloc = s.alloc := by simp [State.modArr]

@[simp] theorem modArr_time (s : State) (c a : Nat) (f : ArrSt → ArrSt) :
    (State.modArr s c a f).time = s.time := by simp [State.modArr]

@[simp] theorem modArr_tim (s : State) (c a : Nat) (f : ArrSt → ArrSt) :
    (State.modArr s c a f).tim = s.tim := by simp [State.modArr]

@[simp] theorem modArr_thm (s : State) (c a : Nat) (f : ArrSt → ArrSt) :
    (State.modArr s c a f).thm = s.thm := by simp [State.modArr]

@[simp] theorem modArr_events (s : State) (c a : Nat) (f : ArrSt → ArrSt) :
    (State.modArr s c a f).events = s.events := by simp [State.modArr]

@[simp] theorem modArr_out (s : State) (c a : Nat) (f : ArrSt → ArrSt) :
    (State.modArr s c a f).out = s.out := by simp [State.modArr]

@[simp] theorem modArr_dbgRestart (s : State) (c a : Nat) (f : ArrSt → ArrSt) :
    (State.modArr s c a f).dbgRestart = s.dbgRestart := by simp [State.modArr]

@[simp] theorem modArr_draw (s : State) (c a : Nat) (f : ArrSt → ArrSt) :
    (State.modArr s c a f).draw = s.draw := by simp [State.modArr]

@[simp] theorem modArr_pending (s : State) (c a : Nat) (f : ArrSt → ArrSt) :
    (State.modArr s c a f).pending = s.pending := by simp [State.modArr]

@[simp] theorem modEng_fuses (s : State) (c cls inst : Nat) (f : EngSt → EngSt) :
    (State.modEng s c cls inst f).fuses = s.fuses := by simp [State.modEng]

@[simp] theorem modEng_pins (s : State) (c cls inst : Nat) (f : EngSt → EngSt) :
    (State.modEng s c cls inst f).pins = s.pins := by simp [State.modEng]

@[simp] theorem modEng_csr (s : State) (c cls inst : Nat) (f : EngSt → EngSt) :
    (State.modEng s c cls inst f).csr = s.csr := by simp [State.modEng]

@[simp] theorem modEng_cnt (s : State) (c cls inst : Nat) (f : EngSt → EngSt) :
    (State.modEng s c cls inst f).cnt = s.cnt := by simp [State.modEng]

@[simp] theorem modEng_cap (s : State) (c cls inst : Nat) (f : EngSt → EngSt) :
    (State.modEng s c cls inst f).cap = s.cap := by simp [State.modEng]

@[simp] theorem modEng_hub (s : State) (c cls inst : Nat) (f : EngSt → EngSt) :
    (State.modEng s c cls inst f).hub = s.hub := by simp [State.modEng]

@[simp] theorem modEng_mem (s : State) (c cls inst : Nat) (f : EngSt → EngSt) :
    (State.modEng s c cls inst f).mem = s.mem := by simp [State.modEng]

@[simp] theorem modEng_plates (s : State) (c cls inst : Nat) (f : EngSt → EngSt) :
    (State.modEng s c cls inst f).plates = s.plates := by simp [State.modEng]

@[simp] theorem modEng_plateCodes (s : State) (c cls inst : Nat) (f : EngSt → EngSt) :
    (State.modEng s c cls inst f).plateCodes = s.plateCodes := by simp [State.modEng]

@[simp] theorem modEng_sramCodes (s : State) (c cls inst : Nat) (f : EngSt → EngSt) :
    (State.modEng s c cls inst f).sramCodes = s.sramCodes := by simp [State.modEng]

@[simp] theorem modEng_flags (s : State) (c cls inst : Nat) (f : EngSt → EngSt) :
    (State.modEng s c cls inst f).flags = s.flags := by simp [State.modEng]

@[simp] theorem modEng_fpois (s : State) (c cls inst : Nat) (f : EngSt → EngSt) :
    (State.modEng s c cls inst f).fpois = s.fpois := by simp [State.modEng]

@[simp] theorem modEng_cmds (s : State) (c cls inst : Nat) (f : EngSt → EngSt) :
    (State.modEng s c cls inst f).cmds = s.cmds := by simp [State.modEng]

@[simp] theorem modEng_nextCmd (s : State) (c cls inst : Nat) (f : EngSt → EngSt) :
    (State.modEng s c cls inst f).nextCmd = s.nextCmd := by simp [State.modEng]

@[simp] theorem modEng_aqts (s : State) (c cls inst : Nat) (f : EngSt → EngSt) :
    (State.modEng s c cls inst f).aqts = s.aqts := by simp [State.modEng]

@[simp] theorem modEng_net (s : State) (c cls inst : Nat) (f : EngSt → EngSt) :
    (State.modEng s c cls inst f).net = s.net := by simp [State.modEng]

@[simp] theorem modEng_coll (s : State) (c cls inst : Nat) (f : EngSt → EngSt) :
    (State.modEng s c cls inst f).coll = s.coll := by simp [State.modEng]

@[simp] theorem modEng_mbr (s : State) (c cls inst : Nat) (f : EngSt → EngSt) :
    (State.modEng s c cls inst f).mbr = s.mbr := by simp [State.modEng]

@[simp] theorem modEng_host (s : State) (c cls inst : Nat) (f : EngSt → EngSt) :
    (State.modEng s c cls inst f).host = s.host := by simp [State.modEng]

@[simp] theorem modEng_sec (s : State) (c cls inst : Nat) (f : EngSt → EngSt) :
    (State.modEng s c cls inst f).sec = s.sec := by simp [State.modEng]

@[simp] theorem modEng_lanes (s : State) (c cls inst : Nat) (f : EngSt → EngSt) :
    (State.modEng s c cls inst f).lanes = s.lanes := by simp [State.modEng]

@[simp] theorem modEng_rings (s : State) (c cls inst : Nat) (f : EngSt → EngSt) :
    (State.modEng s c cls inst f).rings = s.rings := by simp [State.modEng]

@[simp] theorem modEng_dies (s : State) (c cls inst : Nat) (f : EngSt → EngSt) :
    (State.modEng s c cls inst f).dies = s.dies := by simp [State.modEng]

@[simp] theorem modEng_alloc (s : State) (c cls inst : Nat) (f : EngSt → EngSt) :
    (State.modEng s c cls inst f).alloc = s.alloc := by simp [State.modEng]

@[simp] theorem modEng_time (s : State) (c cls inst : Nat) (f : EngSt → EngSt) :
    (State.modEng s c cls inst f).time = s.time := by simp [State.modEng]

@[simp] theorem modEng_tim (s : State) (c cls inst : Nat) (f : EngSt → EngSt) :
    (State.modEng s c cls inst f).tim = s.tim := by simp [State.modEng]

@[simp] theorem modEng_thm (s : State) (c cls inst : Nat) (f : EngSt → EngSt) :
    (State.modEng s c cls inst f).thm = s.thm := by simp [State.modEng]

@[simp] theorem modEng_events (s : State) (c cls inst : Nat) (f : EngSt → EngSt) :
    (State.modEng s c cls inst f).events = s.events := by simp [State.modEng]

@[simp] theorem modEng_out (s : State) (c cls inst : Nat) (f : EngSt → EngSt) :
    (State.modEng s c cls inst f).out = s.out := by simp [State.modEng]

@[simp] theorem modEng_dbgRestart (s : State) (c cls inst : Nat) (f : EngSt → EngSt) :
    (State.modEng s c cls inst f).dbgRestart = s.dbgRestart := by simp [State.modEng]

@[simp] theorem modEng_draw (s : State) (c cls inst : Nat) (f : EngSt → EngSt) :
    (State.modEng s c cls inst f).draw = s.draw := by simp [State.modEng]

@[simp] theorem modEng_pending (s : State) (c cls inst : Nat) (f : EngSt → EngSt) :
    (State.modEng s c cls inst f).pending = s.pending := by simp [State.modEng]

@[simp] theorem setAqt_fuses (s : State) (e : Nat) (x : AqtSt) :
    (State.setAqt s e x).fuses = s.fuses := by rfl

@[simp] theorem setAqt_pins (s : State) (e : Nat) (x : AqtSt) :
    (State.setAqt s e x).pins = s.pins := by rfl

@[simp] theorem setAqt_csr (s : State) (e : Nat) (x : AqtSt) :
    (State.setAqt s e x).csr = s.csr := by rfl

@[simp] theorem setAqt_cnt (s : State) (e : Nat) (x : AqtSt) :
    (State.setAqt s e x).cnt = s.cnt := by rfl

@[simp] theorem setAqt_cap (s : State) (e : Nat) (x : AqtSt) :
    (State.setAqt s e x).cap = s.cap := by rfl

@[simp] theorem setAqt_hub (s : State) (e : Nat) (x : AqtSt) :
    (State.setAqt s e x).hub = s.hub := by rfl

@[simp] theorem setAqt_mem (s : State) (e : Nat) (x : AqtSt) :
    (State.setAqt s e x).mem = s.mem := by rfl

@[simp] theorem setAqt_plates (s : State) (e : Nat) (x : AqtSt) :
    (State.setAqt s e x).plates = s.plates := by rfl

@[simp] theorem setAqt_plateCodes (s : State) (e : Nat) (x : AqtSt) :
    (State.setAqt s e x).plateCodes = s.plateCodes := by rfl

@[simp] theorem setAqt_sramCodes (s : State) (e : Nat) (x : AqtSt) :
    (State.setAqt s e x).sramCodes = s.sramCodes := by rfl

@[simp] theorem setAqt_flags (s : State) (e : Nat) (x : AqtSt) :
    (State.setAqt s e x).flags = s.flags := by rfl

@[simp] theorem setAqt_fpois (s : State) (e : Nat) (x : AqtSt) :
    (State.setAqt s e x).fpois = s.fpois := by rfl

@[simp] theorem setAqt_cores (s : State) (e : Nat) (x : AqtSt) :
    (State.setAqt s e x).cores = s.cores := by rfl

@[simp] theorem setAqt_cmds (s : State) (e : Nat) (x : AqtSt) :
    (State.setAqt s e x).cmds = s.cmds := by rfl

@[simp] theorem setAqt_nextCmd (s : State) (e : Nat) (x : AqtSt) :
    (State.setAqt s e x).nextCmd = s.nextCmd := by rfl

@[simp] theorem setAqt_net (s : State) (e : Nat) (x : AqtSt) :
    (State.setAqt s e x).net = s.net := by rfl

@[simp] theorem setAqt_coll (s : State) (e : Nat) (x : AqtSt) :
    (State.setAqt s e x).coll = s.coll := by rfl

@[simp] theorem setAqt_mbr (s : State) (e : Nat) (x : AqtSt) :
    (State.setAqt s e x).mbr = s.mbr := by rfl

@[simp] theorem setAqt_host (s : State) (e : Nat) (x : AqtSt) :
    (State.setAqt s e x).host = s.host := by rfl

@[simp] theorem setAqt_sec (s : State) (e : Nat) (x : AqtSt) :
    (State.setAqt s e x).sec = s.sec := by rfl

@[simp] theorem setAqt_lanes (s : State) (e : Nat) (x : AqtSt) :
    (State.setAqt s e x).lanes = s.lanes := by rfl

@[simp] theorem setAqt_rings (s : State) (e : Nat) (x : AqtSt) :
    (State.setAqt s e x).rings = s.rings := by rfl

@[simp] theorem setAqt_dies (s : State) (e : Nat) (x : AqtSt) :
    (State.setAqt s e x).dies = s.dies := by rfl

@[simp] theorem setAqt_alloc (s : State) (e : Nat) (x : AqtSt) :
    (State.setAqt s e x).alloc = s.alloc := by rfl

@[simp] theorem setAqt_time (s : State) (e : Nat) (x : AqtSt) :
    (State.setAqt s e x).time = s.time := by rfl

@[simp] theorem setAqt_tim (s : State) (e : Nat) (x : AqtSt) :
    (State.setAqt s e x).tim = s.tim := by rfl

@[simp] theorem setAqt_thm (s : State) (e : Nat) (x : AqtSt) :
    (State.setAqt s e x).thm = s.thm := by rfl

@[simp] theorem setAqt_events (s : State) (e : Nat) (x : AqtSt) :
    (State.setAqt s e x).events = s.events := by rfl

@[simp] theorem setAqt_out (s : State) (e : Nat) (x : AqtSt) :
    (State.setAqt s e x).out = s.out := by rfl

@[simp] theorem setAqt_dbgRestart (s : State) (e : Nat) (x : AqtSt) :
    (State.setAqt s e x).dbgRestart = s.dbgRestart := by rfl

@[simp] theorem setAqt_draw (s : State) (e : Nat) (x : AqtSt) :
    (State.setAqt s e x).draw = s.draw := by rfl

@[simp] theorem setAqt_pending (s : State) (e : Nat) (x : AqtSt) :
    (State.setAqt s e x).pending = s.pending := by rfl

@[simp] theorem modAqt_fuses (s : State) (e : Nat) (f : AqtSt → AqtSt) :
    (State.modAqt s e f).fuses = s.fuses := by simp [State.modAqt]

@[simp] theorem modAqt_pins (s : State) (e : Nat) (f : AqtSt → AqtSt) :
    (State.modAqt s e f).pins = s.pins := by simp [State.modAqt]

@[simp] theorem modAqt_csr (s : State) (e : Nat) (f : AqtSt → AqtSt) :
    (State.modAqt s e f).csr = s.csr := by simp [State.modAqt]

@[simp] theorem modAqt_cnt (s : State) (e : Nat) (f : AqtSt → AqtSt) :
    (State.modAqt s e f).cnt = s.cnt := by simp [State.modAqt]

@[simp] theorem modAqt_cap (s : State) (e : Nat) (f : AqtSt → AqtSt) :
    (State.modAqt s e f).cap = s.cap := by simp [State.modAqt]

@[simp] theorem modAqt_hub (s : State) (e : Nat) (f : AqtSt → AqtSt) :
    (State.modAqt s e f).hub = s.hub := by simp [State.modAqt]

@[simp] theorem modAqt_mem (s : State) (e : Nat) (f : AqtSt → AqtSt) :
    (State.modAqt s e f).mem = s.mem := by simp [State.modAqt]

@[simp] theorem modAqt_plates (s : State) (e : Nat) (f : AqtSt → AqtSt) :
    (State.modAqt s e f).plates = s.plates := by simp [State.modAqt]

@[simp] theorem modAqt_plateCodes (s : State) (e : Nat) (f : AqtSt → AqtSt) :
    (State.modAqt s e f).plateCodes = s.plateCodes := by simp [State.modAqt]

@[simp] theorem modAqt_sramCodes (s : State) (e : Nat) (f : AqtSt → AqtSt) :
    (State.modAqt s e f).sramCodes = s.sramCodes := by simp [State.modAqt]

@[simp] theorem modAqt_flags (s : State) (e : Nat) (f : AqtSt → AqtSt) :
    (State.modAqt s e f).flags = s.flags := by simp [State.modAqt]

@[simp] theorem modAqt_fpois (s : State) (e : Nat) (f : AqtSt → AqtSt) :
    (State.modAqt s e f).fpois = s.fpois := by simp [State.modAqt]

@[simp] theorem modAqt_cores (s : State) (e : Nat) (f : AqtSt → AqtSt) :
    (State.modAqt s e f).cores = s.cores := by simp [State.modAqt]

@[simp] theorem modAqt_cmds (s : State) (e : Nat) (f : AqtSt → AqtSt) :
    (State.modAqt s e f).cmds = s.cmds := by simp [State.modAqt]

@[simp] theorem modAqt_nextCmd (s : State) (e : Nat) (f : AqtSt → AqtSt) :
    (State.modAqt s e f).nextCmd = s.nextCmd := by simp [State.modAqt]

@[simp] theorem modAqt_net (s : State) (e : Nat) (f : AqtSt → AqtSt) :
    (State.modAqt s e f).net = s.net := by simp [State.modAqt]

@[simp] theorem modAqt_coll (s : State) (e : Nat) (f : AqtSt → AqtSt) :
    (State.modAqt s e f).coll = s.coll := by simp [State.modAqt]

@[simp] theorem modAqt_mbr (s : State) (e : Nat) (f : AqtSt → AqtSt) :
    (State.modAqt s e f).mbr = s.mbr := by simp [State.modAqt]

@[simp] theorem modAqt_host (s : State) (e : Nat) (f : AqtSt → AqtSt) :
    (State.modAqt s e f).host = s.host := by simp [State.modAqt]

@[simp] theorem modAqt_sec (s : State) (e : Nat) (f : AqtSt → AqtSt) :
    (State.modAqt s e f).sec = s.sec := by simp [State.modAqt]

@[simp] theorem modAqt_lanes (s : State) (e : Nat) (f : AqtSt → AqtSt) :
    (State.modAqt s e f).lanes = s.lanes := by simp [State.modAqt]

@[simp] theorem modAqt_rings (s : State) (e : Nat) (f : AqtSt → AqtSt) :
    (State.modAqt s e f).rings = s.rings := by simp [State.modAqt]

@[simp] theorem modAqt_dies (s : State) (e : Nat) (f : AqtSt → AqtSt) :
    (State.modAqt s e f).dies = s.dies := by simp [State.modAqt]

@[simp] theorem modAqt_alloc (s : State) (e : Nat) (f : AqtSt → AqtSt) :
    (State.modAqt s e f).alloc = s.alloc := by simp [State.modAqt]

@[simp] theorem modAqt_time (s : State) (e : Nat) (f : AqtSt → AqtSt) :
    (State.modAqt s e f).time = s.time := by simp [State.modAqt]

@[simp] theorem modAqt_tim (s : State) (e : Nat) (f : AqtSt → AqtSt) :
    (State.modAqt s e f).tim = s.tim := by simp [State.modAqt]

@[simp] theorem modAqt_thm (s : State) (e : Nat) (f : AqtSt → AqtSt) :
    (State.modAqt s e f).thm = s.thm := by simp [State.modAqt]

@[simp] theorem modAqt_events (s : State) (e : Nat) (f : AqtSt → AqtSt) :
    (State.modAqt s e f).events = s.events := by simp [State.modAqt]

@[simp] theorem modAqt_out (s : State) (e : Nat) (f : AqtSt → AqtSt) :
    (State.modAqt s e f).out = s.out := by simp [State.modAqt]

@[simp] theorem modAqt_dbgRestart (s : State) (e : Nat) (f : AqtSt → AqtSt) :
    (State.modAqt s e f).dbgRestart = s.dbgRestart := by simp [State.modAqt]

@[simp] theorem modAqt_draw (s : State) (e : Nat) (f : AqtSt → AqtSt) :
    (State.modAqt s e f).draw = s.draw := by simp [State.modAqt]

@[simp] theorem modAqt_pending (s : State) (e : Nat) (f : AqtSt → AqtSt) :
    (State.modAqt s e f).pending = s.pending := by simp [State.modAqt]

@[simp] theorem setLane_fuses (s : State) (key : Nat) (x : LaneSt) :
    (State.setLane s key x).fuses = s.fuses := by rfl

@[simp] theorem setLane_pins (s : State) (key : Nat) (x : LaneSt) :
    (State.setLane s key x).pins = s.pins := by rfl

@[simp] theorem setLane_csr (s : State) (key : Nat) (x : LaneSt) :
    (State.setLane s key x).csr = s.csr := by rfl

@[simp] theorem setLane_cnt (s : State) (key : Nat) (x : LaneSt) :
    (State.setLane s key x).cnt = s.cnt := by rfl

@[simp] theorem setLane_cap (s : State) (key : Nat) (x : LaneSt) :
    (State.setLane s key x).cap = s.cap := by rfl

@[simp] theorem setLane_hub (s : State) (key : Nat) (x : LaneSt) :
    (State.setLane s key x).hub = s.hub := by rfl

@[simp] theorem setLane_mem (s : State) (key : Nat) (x : LaneSt) :
    (State.setLane s key x).mem = s.mem := by rfl

@[simp] theorem setLane_plates (s : State) (key : Nat) (x : LaneSt) :
    (State.setLane s key x).plates = s.plates := by rfl

@[simp] theorem setLane_plateCodes (s : State) (key : Nat) (x : LaneSt) :
    (State.setLane s key x).plateCodes = s.plateCodes := by rfl

@[simp] theorem setLane_sramCodes (s : State) (key : Nat) (x : LaneSt) :
    (State.setLane s key x).sramCodes = s.sramCodes := by rfl

@[simp] theorem setLane_flags (s : State) (key : Nat) (x : LaneSt) :
    (State.setLane s key x).flags = s.flags := by rfl

@[simp] theorem setLane_fpois (s : State) (key : Nat) (x : LaneSt) :
    (State.setLane s key x).fpois = s.fpois := by rfl

@[simp] theorem setLane_cores (s : State) (key : Nat) (x : LaneSt) :
    (State.setLane s key x).cores = s.cores := by rfl

@[simp] theorem setLane_cmds (s : State) (key : Nat) (x : LaneSt) :
    (State.setLane s key x).cmds = s.cmds := by rfl

@[simp] theorem setLane_nextCmd (s : State) (key : Nat) (x : LaneSt) :
    (State.setLane s key x).nextCmd = s.nextCmd := by rfl

@[simp] theorem setLane_aqts (s : State) (key : Nat) (x : LaneSt) :
    (State.setLane s key x).aqts = s.aqts := by rfl

@[simp] theorem setLane_net (s : State) (key : Nat) (x : LaneSt) :
    (State.setLane s key x).net = s.net := by rfl

@[simp] theorem setLane_coll (s : State) (key : Nat) (x : LaneSt) :
    (State.setLane s key x).coll = s.coll := by rfl

@[simp] theorem setLane_mbr (s : State) (key : Nat) (x : LaneSt) :
    (State.setLane s key x).mbr = s.mbr := by rfl

@[simp] theorem setLane_host (s : State) (key : Nat) (x : LaneSt) :
    (State.setLane s key x).host = s.host := by rfl

@[simp] theorem setLane_sec (s : State) (key : Nat) (x : LaneSt) :
    (State.setLane s key x).sec = s.sec := by rfl

@[simp] theorem setLane_rings (s : State) (key : Nat) (x : LaneSt) :
    (State.setLane s key x).rings = s.rings := by rfl

@[simp] theorem setLane_dies (s : State) (key : Nat) (x : LaneSt) :
    (State.setLane s key x).dies = s.dies := by rfl

@[simp] theorem setLane_alloc (s : State) (key : Nat) (x : LaneSt) :
    (State.setLane s key x).alloc = s.alloc := by rfl

@[simp] theorem setLane_time (s : State) (key : Nat) (x : LaneSt) :
    (State.setLane s key x).time = s.time := by rfl

@[simp] theorem setLane_tim (s : State) (key : Nat) (x : LaneSt) :
    (State.setLane s key x).tim = s.tim := by rfl

@[simp] theorem setLane_thm (s : State) (key : Nat) (x : LaneSt) :
    (State.setLane s key x).thm = s.thm := by rfl

@[simp] theorem setLane_events (s : State) (key : Nat) (x : LaneSt) :
    (State.setLane s key x).events = s.events := by rfl

@[simp] theorem setLane_out (s : State) (key : Nat) (x : LaneSt) :
    (State.setLane s key x).out = s.out := by rfl

@[simp] theorem setLane_dbgRestart (s : State) (key : Nat) (x : LaneSt) :
    (State.setLane s key x).dbgRestart = s.dbgRestart := by rfl

@[simp] theorem setLane_draw (s : State) (key : Nat) (x : LaneSt) :
    (State.setLane s key x).draw = s.draw := by rfl

@[simp] theorem setLane_pending (s : State) (key : Nat) (x : LaneSt) :
    (State.setLane s key x).pending = s.pending := by rfl

@[simp] theorem modLane_fuses (s : State) (key : Nat) (f : LaneSt → LaneSt) :
    (State.modLane s key f).fuses = s.fuses := by simp [State.modLane]

@[simp] theorem modLane_pins (s : State) (key : Nat) (f : LaneSt → LaneSt) :
    (State.modLane s key f).pins = s.pins := by simp [State.modLane]

@[simp] theorem modLane_csr (s : State) (key : Nat) (f : LaneSt → LaneSt) :
    (State.modLane s key f).csr = s.csr := by simp [State.modLane]

@[simp] theorem modLane_cnt (s : State) (key : Nat) (f : LaneSt → LaneSt) :
    (State.modLane s key f).cnt = s.cnt := by simp [State.modLane]

@[simp] theorem modLane_cap (s : State) (key : Nat) (f : LaneSt → LaneSt) :
    (State.modLane s key f).cap = s.cap := by simp [State.modLane]

@[simp] theorem modLane_hub (s : State) (key : Nat) (f : LaneSt → LaneSt) :
    (State.modLane s key f).hub = s.hub := by simp [State.modLane]

@[simp] theorem modLane_mem (s : State) (key : Nat) (f : LaneSt → LaneSt) :
    (State.modLane s key f).mem = s.mem := by simp [State.modLane]

@[simp] theorem modLane_plates (s : State) (key : Nat) (f : LaneSt → LaneSt) :
    (State.modLane s key f).plates = s.plates := by simp [State.modLane]

@[simp] theorem modLane_plateCodes (s : State) (key : Nat) (f : LaneSt → LaneSt) :
    (State.modLane s key f).plateCodes = s.plateCodes := by simp [State.modLane]

@[simp] theorem modLane_sramCodes (s : State) (key : Nat) (f : LaneSt → LaneSt) :
    (State.modLane s key f).sramCodes = s.sramCodes := by simp [State.modLane]

@[simp] theorem modLane_flags (s : State) (key : Nat) (f : LaneSt → LaneSt) :
    (State.modLane s key f).flags = s.flags := by simp [State.modLane]

@[simp] theorem modLane_fpois (s : State) (key : Nat) (f : LaneSt → LaneSt) :
    (State.modLane s key f).fpois = s.fpois := by simp [State.modLane]

@[simp] theorem modLane_cores (s : State) (key : Nat) (f : LaneSt → LaneSt) :
    (State.modLane s key f).cores = s.cores := by simp [State.modLane]

@[simp] theorem modLane_cmds (s : State) (key : Nat) (f : LaneSt → LaneSt) :
    (State.modLane s key f).cmds = s.cmds := by simp [State.modLane]

@[simp] theorem modLane_nextCmd (s : State) (key : Nat) (f : LaneSt → LaneSt) :
    (State.modLane s key f).nextCmd = s.nextCmd := by simp [State.modLane]

@[simp] theorem modLane_aqts (s : State) (key : Nat) (f : LaneSt → LaneSt) :
    (State.modLane s key f).aqts = s.aqts := by simp [State.modLane]

@[simp] theorem modLane_net (s : State) (key : Nat) (f : LaneSt → LaneSt) :
    (State.modLane s key f).net = s.net := by simp [State.modLane]

@[simp] theorem modLane_coll (s : State) (key : Nat) (f : LaneSt → LaneSt) :
    (State.modLane s key f).coll = s.coll := by simp [State.modLane]

@[simp] theorem modLane_mbr (s : State) (key : Nat) (f : LaneSt → LaneSt) :
    (State.modLane s key f).mbr = s.mbr := by simp [State.modLane]

@[simp] theorem modLane_host (s : State) (key : Nat) (f : LaneSt → LaneSt) :
    (State.modLane s key f).host = s.host := by simp [State.modLane]

@[simp] theorem modLane_sec (s : State) (key : Nat) (f : LaneSt → LaneSt) :
    (State.modLane s key f).sec = s.sec := by simp [State.modLane]

@[simp] theorem modLane_rings (s : State) (key : Nat) (f : LaneSt → LaneSt) :
    (State.modLane s key f).rings = s.rings := by simp [State.modLane]

@[simp] theorem modLane_dies (s : State) (key : Nat) (f : LaneSt → LaneSt) :
    (State.modLane s key f).dies = s.dies := by simp [State.modLane]

@[simp] theorem modLane_alloc (s : State) (key : Nat) (f : LaneSt → LaneSt) :
    (State.modLane s key f).alloc = s.alloc := by simp [State.modLane]

@[simp] theorem modLane_time (s : State) (key : Nat) (f : LaneSt → LaneSt) :
    (State.modLane s key f).time = s.time := by simp [State.modLane]

@[simp] theorem modLane_tim (s : State) (key : Nat) (f : LaneSt → LaneSt) :
    (State.modLane s key f).tim = s.tim := by simp [State.modLane]

@[simp] theorem modLane_thm (s : State) (key : Nat) (f : LaneSt → LaneSt) :
    (State.modLane s key f).thm = s.thm := by simp [State.modLane]

@[simp] theorem modLane_events (s : State) (key : Nat) (f : LaneSt → LaneSt) :
    (State.modLane s key f).events = s.events := by simp [State.modLane]

@[simp] theorem modLane_out (s : State) (key : Nat) (f : LaneSt → LaneSt) :
    (State.modLane s key f).out = s.out := by simp [State.modLane]

@[simp] theorem modLane_dbgRestart (s : State) (key : Nat) (f : LaneSt → LaneSt) :
    (State.modLane s key f).dbgRestart = s.dbgRestart := by simp [State.modLane]

@[simp] theorem modLane_draw (s : State) (key : Nat) (f : LaneSt → LaneSt) :
    (State.modLane s key f).draw = s.draw := by simp [State.modLane]

@[simp] theorem modLane_pending (s : State) (key : Nat) (f : LaneSt → LaneSt) :
    (State.modLane s key f).pending = s.pending := by simp [State.modLane]

@[simp] theorem setLink_fuses (s : State) (l : Nat) (x : LinkSt) :
    (State.setLink s l x).fuses = s.fuses := by rfl

@[simp] theorem setLink_pins (s : State) (l : Nat) (x : LinkSt) :
    (State.setLink s l x).pins = s.pins := by rfl

@[simp] theorem setLink_csr (s : State) (l : Nat) (x : LinkSt) :
    (State.setLink s l x).csr = s.csr := by rfl

@[simp] theorem setLink_cnt (s : State) (l : Nat) (x : LinkSt) :
    (State.setLink s l x).cnt = s.cnt := by rfl

@[simp] theorem setLink_cap (s : State) (l : Nat) (x : LinkSt) :
    (State.setLink s l x).cap = s.cap := by rfl

@[simp] theorem setLink_hub (s : State) (l : Nat) (x : LinkSt) :
    (State.setLink s l x).hub = s.hub := by rfl

@[simp] theorem setLink_mem (s : State) (l : Nat) (x : LinkSt) :
    (State.setLink s l x).mem = s.mem := by rfl

@[simp] theorem setLink_plates (s : State) (l : Nat) (x : LinkSt) :
    (State.setLink s l x).plates = s.plates := by rfl

@[simp] theorem setLink_plateCodes (s : State) (l : Nat) (x : LinkSt) :
    (State.setLink s l x).plateCodes = s.plateCodes := by rfl

@[simp] theorem setLink_sramCodes (s : State) (l : Nat) (x : LinkSt) :
    (State.setLink s l x).sramCodes = s.sramCodes := by rfl

@[simp] theorem setLink_flags (s : State) (l : Nat) (x : LinkSt) :
    (State.setLink s l x).flags = s.flags := by rfl

@[simp] theorem setLink_fpois (s : State) (l : Nat) (x : LinkSt) :
    (State.setLink s l x).fpois = s.fpois := by rfl

@[simp] theorem setLink_cores (s : State) (l : Nat) (x : LinkSt) :
    (State.setLink s l x).cores = s.cores := by rfl

@[simp] theorem setLink_cmds (s : State) (l : Nat) (x : LinkSt) :
    (State.setLink s l x).cmds = s.cmds := by rfl

@[simp] theorem setLink_nextCmd (s : State) (l : Nat) (x : LinkSt) :
    (State.setLink s l x).nextCmd = s.nextCmd := by rfl

@[simp] theorem setLink_aqts (s : State) (l : Nat) (x : LinkSt) :
    (State.setLink s l x).aqts = s.aqts := by rfl

@[simp] theorem setLink_coll (s : State) (l : Nat) (x : LinkSt) :
    (State.setLink s l x).coll = s.coll := by rfl

@[simp] theorem setLink_mbr (s : State) (l : Nat) (x : LinkSt) :
    (State.setLink s l x).mbr = s.mbr := by rfl

@[simp] theorem setLink_host (s : State) (l : Nat) (x : LinkSt) :
    (State.setLink s l x).host = s.host := by rfl

@[simp] theorem setLink_sec (s : State) (l : Nat) (x : LinkSt) :
    (State.setLink s l x).sec = s.sec := by rfl

@[simp] theorem setLink_lanes (s : State) (l : Nat) (x : LinkSt) :
    (State.setLink s l x).lanes = s.lanes := by rfl

@[simp] theorem setLink_rings (s : State) (l : Nat) (x : LinkSt) :
    (State.setLink s l x).rings = s.rings := by rfl

@[simp] theorem setLink_dies (s : State) (l : Nat) (x : LinkSt) :
    (State.setLink s l x).dies = s.dies := by rfl

@[simp] theorem setLink_alloc (s : State) (l : Nat) (x : LinkSt) :
    (State.setLink s l x).alloc = s.alloc := by rfl

@[simp] theorem setLink_time (s : State) (l : Nat) (x : LinkSt) :
    (State.setLink s l x).time = s.time := by rfl

@[simp] theorem setLink_tim (s : State) (l : Nat) (x : LinkSt) :
    (State.setLink s l x).tim = s.tim := by rfl

@[simp] theorem setLink_thm (s : State) (l : Nat) (x : LinkSt) :
    (State.setLink s l x).thm = s.thm := by rfl

@[simp] theorem setLink_events (s : State) (l : Nat) (x : LinkSt) :
    (State.setLink s l x).events = s.events := by rfl

@[simp] theorem setLink_out (s : State) (l : Nat) (x : LinkSt) :
    (State.setLink s l x).out = s.out := by rfl

@[simp] theorem setLink_dbgRestart (s : State) (l : Nat) (x : LinkSt) :
    (State.setLink s l x).dbgRestart = s.dbgRestart := by rfl

@[simp] theorem setLink_draw (s : State) (l : Nat) (x : LinkSt) :
    (State.setLink s l x).draw = s.draw := by rfl

@[simp] theorem setLink_pending (s : State) (l : Nat) (x : LinkSt) :
    (State.setLink s l x).pending = s.pending := by rfl

@[simp] theorem modLink_fuses (s : State) (l : Nat) (f : LinkSt → LinkSt) :
    (State.modLink s l f).fuses = s.fuses := by simp [State.modLink]

@[simp] theorem modLink_pins (s : State) (l : Nat) (f : LinkSt → LinkSt) :
    (State.modLink s l f).pins = s.pins := by simp [State.modLink]

@[simp] theorem modLink_csr (s : State) (l : Nat) (f : LinkSt → LinkSt) :
    (State.modLink s l f).csr = s.csr := by simp [State.modLink]

@[simp] theorem modLink_cnt (s : State) (l : Nat) (f : LinkSt → LinkSt) :
    (State.modLink s l f).cnt = s.cnt := by simp [State.modLink]

@[simp] theorem modLink_cap (s : State) (l : Nat) (f : LinkSt → LinkSt) :
    (State.modLink s l f).cap = s.cap := by simp [State.modLink]

@[simp] theorem modLink_hub (s : State) (l : Nat) (f : LinkSt → LinkSt) :
    (State.modLink s l f).hub = s.hub := by simp [State.modLink]

@[simp] theorem modLink_mem (s : State) (l : Nat) (f : LinkSt → LinkSt) :
    (State.modLink s l f).mem = s.mem := by simp [State.modLink]

@[simp] theorem modLink_plates (s : State) (l : Nat) (f : LinkSt → LinkSt) :
    (State.modLink s l f).plates = s.plates := by simp [State.modLink]

@[simp] theorem modLink_plateCodes (s : State) (l : Nat) (f : LinkSt → LinkSt) :
    (State.modLink s l f).plateCodes = s.plateCodes := by simp [State.modLink]

@[simp] theorem modLink_sramCodes (s : State) (l : Nat) (f : LinkSt → LinkSt) :
    (State.modLink s l f).sramCodes = s.sramCodes := by simp [State.modLink]

@[simp] theorem modLink_flags (s : State) (l : Nat) (f : LinkSt → LinkSt) :
    (State.modLink s l f).flags = s.flags := by simp [State.modLink]

@[simp] theorem modLink_fpois (s : State) (l : Nat) (f : LinkSt → LinkSt) :
    (State.modLink s l f).fpois = s.fpois := by simp [State.modLink]

@[simp] theorem modLink_cores (s : State) (l : Nat) (f : LinkSt → LinkSt) :
    (State.modLink s l f).cores = s.cores := by simp [State.modLink]

@[simp] theorem modLink_cmds (s : State) (l : Nat) (f : LinkSt → LinkSt) :
    (State.modLink s l f).cmds = s.cmds := by simp [State.modLink]

@[simp] theorem modLink_nextCmd (s : State) (l : Nat) (f : LinkSt → LinkSt) :
    (State.modLink s l f).nextCmd = s.nextCmd := by simp [State.modLink]

@[simp] theorem modLink_aqts (s : State) (l : Nat) (f : LinkSt → LinkSt) :
    (State.modLink s l f).aqts = s.aqts := by simp [State.modLink]

@[simp] theorem modLink_coll (s : State) (l : Nat) (f : LinkSt → LinkSt) :
    (State.modLink s l f).coll = s.coll := by simp [State.modLink]

@[simp] theorem modLink_mbr (s : State) (l : Nat) (f : LinkSt → LinkSt) :
    (State.modLink s l f).mbr = s.mbr := by simp [State.modLink]

@[simp] theorem modLink_host (s : State) (l : Nat) (f : LinkSt → LinkSt) :
    (State.modLink s l f).host = s.host := by simp [State.modLink]

@[simp] theorem modLink_sec (s : State) (l : Nat) (f : LinkSt → LinkSt) :
    (State.modLink s l f).sec = s.sec := by simp [State.modLink]

@[simp] theorem modLink_lanes (s : State) (l : Nat) (f : LinkSt → LinkSt) :
    (State.modLink s l f).lanes = s.lanes := by simp [State.modLink]

@[simp] theorem modLink_rings (s : State) (l : Nat) (f : LinkSt → LinkSt) :
    (State.modLink s l f).rings = s.rings := by simp [State.modLink]

@[simp] theorem modLink_dies (s : State) (l : Nat) (f : LinkSt → LinkSt) :
    (State.modLink s l f).dies = s.dies := by simp [State.modLink]

@[simp] theorem modLink_alloc (s : State) (l : Nat) (f : LinkSt → LinkSt) :
    (State.modLink s l f).alloc = s.alloc := by simp [State.modLink]

@[simp] theorem modLink_time (s : State) (l : Nat) (f : LinkSt → LinkSt) :
    (State.modLink s l f).time = s.time := by simp [State.modLink]

@[simp] theorem modLink_tim (s : State) (l : Nat) (f : LinkSt → LinkSt) :
    (State.modLink s l f).tim = s.tim := by simp [State.modLink]

@[simp] theorem modLink_thm (s : State) (l : Nat) (f : LinkSt → LinkSt) :
    (State.modLink s l f).thm = s.thm := by simp [State.modLink]

@[simp] theorem modLink_events (s : State) (l : Nat) (f : LinkSt → LinkSt) :
    (State.modLink s l f).events = s.events := by simp [State.modLink]

@[simp] theorem modLink_out (s : State) (l : Nat) (f : LinkSt → LinkSt) :
    (State.modLink s l f).out = s.out := by simp [State.modLink]

@[simp] theorem modLink_dbgRestart (s : State) (l : Nat) (f : LinkSt → LinkSt) :
    (State.modLink s l f).dbgRestart = s.dbgRestart := by simp [State.modLink]

@[simp] theorem modLink_draw (s : State) (l : Nat) (f : LinkSt → LinkSt) :
    (State.modLink s l f).draw = s.draw := by simp [State.modLink]

@[simp] theorem modLink_pending (s : State) (l : Nat) (f : LinkSt → LinkSt) :
    (State.modLink s l f).pending = s.pending := by simp [State.modLink]

@[simp] theorem setTree_fuses (s : State) (t : Nat) (x : TreeSt) :
    (State.setTree s t x).fuses = s.fuses := by rfl

@[simp] theorem setTree_pins (s : State) (t : Nat) (x : TreeSt) :
    (State.setTree s t x).pins = s.pins := by rfl

@[simp] theorem setTree_csr (s : State) (t : Nat) (x : TreeSt) :
    (State.setTree s t x).csr = s.csr := by rfl

@[simp] theorem setTree_cnt (s : State) (t : Nat) (x : TreeSt) :
    (State.setTree s t x).cnt = s.cnt := by rfl

@[simp] theorem setTree_cap (s : State) (t : Nat) (x : TreeSt) :
    (State.setTree s t x).cap = s.cap := by rfl

@[simp] theorem setTree_hub (s : State) (t : Nat) (x : TreeSt) :
    (State.setTree s t x).hub = s.hub := by rfl

@[simp] theorem setTree_mem (s : State) (t : Nat) (x : TreeSt) :
    (State.setTree s t x).mem = s.mem := by rfl

@[simp] theorem setTree_plates (s : State) (t : Nat) (x : TreeSt) :
    (State.setTree s t x).plates = s.plates := by rfl

@[simp] theorem setTree_plateCodes (s : State) (t : Nat) (x : TreeSt) :
    (State.setTree s t x).plateCodes = s.plateCodes := by rfl

@[simp] theorem setTree_sramCodes (s : State) (t : Nat) (x : TreeSt) :
    (State.setTree s t x).sramCodes = s.sramCodes := by rfl

@[simp] theorem setTree_flags (s : State) (t : Nat) (x : TreeSt) :
    (State.setTree s t x).flags = s.flags := by rfl

@[simp] theorem setTree_fpois (s : State) (t : Nat) (x : TreeSt) :
    (State.setTree s t x).fpois = s.fpois := by rfl

@[simp] theorem setTree_cores (s : State) (t : Nat) (x : TreeSt) :
    (State.setTree s t x).cores = s.cores := by rfl

@[simp] theorem setTree_cmds (s : State) (t : Nat) (x : TreeSt) :
    (State.setTree s t x).cmds = s.cmds := by rfl

@[simp] theorem setTree_nextCmd (s : State) (t : Nat) (x : TreeSt) :
    (State.setTree s t x).nextCmd = s.nextCmd := by rfl

@[simp] theorem setTree_aqts (s : State) (t : Nat) (x : TreeSt) :
    (State.setTree s t x).aqts = s.aqts := by rfl

@[simp] theorem setTree_coll (s : State) (t : Nat) (x : TreeSt) :
    (State.setTree s t x).coll = s.coll := by rfl

@[simp] theorem setTree_mbr (s : State) (t : Nat) (x : TreeSt) :
    (State.setTree s t x).mbr = s.mbr := by rfl

@[simp] theorem setTree_host (s : State) (t : Nat) (x : TreeSt) :
    (State.setTree s t x).host = s.host := by rfl

@[simp] theorem setTree_sec (s : State) (t : Nat) (x : TreeSt) :
    (State.setTree s t x).sec = s.sec := by rfl

@[simp] theorem setTree_lanes (s : State) (t : Nat) (x : TreeSt) :
    (State.setTree s t x).lanes = s.lanes := by rfl

@[simp] theorem setTree_rings (s : State) (t : Nat) (x : TreeSt) :
    (State.setTree s t x).rings = s.rings := by rfl

@[simp] theorem setTree_dies (s : State) (t : Nat) (x : TreeSt) :
    (State.setTree s t x).dies = s.dies := by rfl

@[simp] theorem setTree_alloc (s : State) (t : Nat) (x : TreeSt) :
    (State.setTree s t x).alloc = s.alloc := by rfl

@[simp] theorem setTree_time (s : State) (t : Nat) (x : TreeSt) :
    (State.setTree s t x).time = s.time := by rfl

@[simp] theorem setTree_tim (s : State) (t : Nat) (x : TreeSt) :
    (State.setTree s t x).tim = s.tim := by rfl

@[simp] theorem setTree_thm (s : State) (t : Nat) (x : TreeSt) :
    (State.setTree s t x).thm = s.thm := by rfl

@[simp] theorem setTree_events (s : State) (t : Nat) (x : TreeSt) :
    (State.setTree s t x).events = s.events := by rfl

@[simp] theorem setTree_out (s : State) (t : Nat) (x : TreeSt) :
    (State.setTree s t x).out = s.out := by rfl

@[simp] theorem setTree_dbgRestart (s : State) (t : Nat) (x : TreeSt) :
    (State.setTree s t x).dbgRestart = s.dbgRestart := by rfl

@[simp] theorem setTree_draw (s : State) (t : Nat) (x : TreeSt) :
    (State.setTree s t x).draw = s.draw := by rfl

@[simp] theorem setTree_pending (s : State) (t : Nat) (x : TreeSt) :
    (State.setTree s t x).pending = s.pending := by rfl

@[simp] theorem modTree_fuses (s : State) (t : Nat) (f : TreeSt → TreeSt) :
    (State.modTree s t f).fuses = s.fuses := by simp [State.modTree]

@[simp] theorem modTree_pins (s : State) (t : Nat) (f : TreeSt → TreeSt) :
    (State.modTree s t f).pins = s.pins := by simp [State.modTree]

@[simp] theorem modTree_csr (s : State) (t : Nat) (f : TreeSt → TreeSt) :
    (State.modTree s t f).csr = s.csr := by simp [State.modTree]

@[simp] theorem modTree_cnt (s : State) (t : Nat) (f : TreeSt → TreeSt) :
    (State.modTree s t f).cnt = s.cnt := by simp [State.modTree]

@[simp] theorem modTree_cap (s : State) (t : Nat) (f : TreeSt → TreeSt) :
    (State.modTree s t f).cap = s.cap := by simp [State.modTree]

@[simp] theorem modTree_hub (s : State) (t : Nat) (f : TreeSt → TreeSt) :
    (State.modTree s t f).hub = s.hub := by simp [State.modTree]

@[simp] theorem modTree_mem (s : State) (t : Nat) (f : TreeSt → TreeSt) :
    (State.modTree s t f).mem = s.mem := by simp [State.modTree]

@[simp] theorem modTree_plates (s : State) (t : Nat) (f : TreeSt → TreeSt) :
    (State.modTree s t f).plates = s.plates := by simp [State.modTree]

@[simp] theorem modTree_plateCodes (s : State) (t : Nat) (f : TreeSt → TreeSt) :
    (State.modTree s t f).plateCodes = s.plateCodes := by simp [State.modTree]

@[simp] theorem modTree_sramCodes (s : State) (t : Nat) (f : TreeSt → TreeSt) :
    (State.modTree s t f).sramCodes = s.sramCodes := by simp [State.modTree]

@[simp] theorem modTree_flags (s : State) (t : Nat) (f : TreeSt → TreeSt) :
    (State.modTree s t f).flags = s.flags := by simp [State.modTree]

@[simp] theorem modTree_fpois (s : State) (t : Nat) (f : TreeSt → TreeSt) :
    (State.modTree s t f).fpois = s.fpois := by simp [State.modTree]

@[simp] theorem modTree_cores (s : State) (t : Nat) (f : TreeSt → TreeSt) :
    (State.modTree s t f).cores = s.cores := by simp [State.modTree]

@[simp] theorem modTree_cmds (s : State) (t : Nat) (f : TreeSt → TreeSt) :
    (State.modTree s t f).cmds = s.cmds := by simp [State.modTree]

@[simp] theorem modTree_nextCmd (s : State) (t : Nat) (f : TreeSt → TreeSt) :
    (State.modTree s t f).nextCmd = s.nextCmd := by simp [State.modTree]

@[simp] theorem modTree_aqts (s : State) (t : Nat) (f : TreeSt → TreeSt) :
    (State.modTree s t f).aqts = s.aqts := by simp [State.modTree]

@[simp] theorem modTree_coll (s : State) (t : Nat) (f : TreeSt → TreeSt) :
    (State.modTree s t f).coll = s.coll := by simp [State.modTree]

@[simp] theorem modTree_mbr (s : State) (t : Nat) (f : TreeSt → TreeSt) :
    (State.modTree s t f).mbr = s.mbr := by simp [State.modTree]

@[simp] theorem modTree_host (s : State) (t : Nat) (f : TreeSt → TreeSt) :
    (State.modTree s t f).host = s.host := by simp [State.modTree]

@[simp] theorem modTree_sec (s : State) (t : Nat) (f : TreeSt → TreeSt) :
    (State.modTree s t f).sec = s.sec := by simp [State.modTree]

@[simp] theorem modTree_lanes (s : State) (t : Nat) (f : TreeSt → TreeSt) :
    (State.modTree s t f).lanes = s.lanes := by simp [State.modTree]

@[simp] theorem modTree_rings (s : State) (t : Nat) (f : TreeSt → TreeSt) :
    (State.modTree s t f).rings = s.rings := by simp [State.modTree]

@[simp] theorem modTree_dies (s : State) (t : Nat) (f : TreeSt → TreeSt) :
    (State.modTree s t f).dies = s.dies := by simp [State.modTree]

@[simp] theorem modTree_alloc (s : State) (t : Nat) (f : TreeSt → TreeSt) :
    (State.modTree s t f).alloc = s.alloc := by simp [State.modTree]

@[simp] theorem modTree_time (s : State) (t : Nat) (f : TreeSt → TreeSt) :
    (State.modTree s t f).time = s.time := by simp [State.modTree]

@[simp] theorem modTree_tim (s : State) (t : Nat) (f : TreeSt → TreeSt) :
    (State.modTree s t f).tim = s.tim := by simp [State.modTree]

@[simp] theorem modTree_thm (s : State) (t : Nat) (f : TreeSt → TreeSt) :
    (State.modTree s t f).thm = s.thm := by simp [State.modTree]

@[simp] theorem modTree_events (s : State) (t : Nat) (f : TreeSt → TreeSt) :
    (State.modTree s t f).events = s.events := by simp [State.modTree]

@[simp] theorem modTree_out (s : State) (t : Nat) (f : TreeSt → TreeSt) :
    (State.modTree s t f).out = s.out := by simp [State.modTree]

@[simp] theorem modTree_dbgRestart (s : State) (t : Nat) (f : TreeSt → TreeSt) :
    (State.modTree s t f).dbgRestart = s.dbgRestart := by simp [State.modTree]

@[simp] theorem modTree_draw (s : State) (t : Nat) (f : TreeSt → TreeSt) :
    (State.modTree s t f).draw = s.draw := by simp [State.modTree]

@[simp] theorem modTree_pending (s : State) (t : Nat) (f : TreeSt → TreeSt) :
    (State.modTree s t f).pending = s.pending := by simp [State.modTree]

@[simp] theorem setRxSrc_fuses (s : State) (d : Nat) (x : RxSrc) :
    (State.setRxSrc s d x).fuses = s.fuses := by rfl

@[simp] theorem setRxSrc_pins (s : State) (d : Nat) (x : RxSrc) :
    (State.setRxSrc s d x).pins = s.pins := by rfl

@[simp] theorem setRxSrc_csr (s : State) (d : Nat) (x : RxSrc) :
    (State.setRxSrc s d x).csr = s.csr := by rfl

@[simp] theorem setRxSrc_cnt (s : State) (d : Nat) (x : RxSrc) :
    (State.setRxSrc s d x).cnt = s.cnt := by rfl

@[simp] theorem setRxSrc_cap (s : State) (d : Nat) (x : RxSrc) :
    (State.setRxSrc s d x).cap = s.cap := by rfl

@[simp] theorem setRxSrc_hub (s : State) (d : Nat) (x : RxSrc) :
    (State.setRxSrc s d x).hub = s.hub := by rfl

@[simp] theorem setRxSrc_mem (s : State) (d : Nat) (x : RxSrc) :
    (State.setRxSrc s d x).mem = s.mem := by rfl

@[simp] theorem setRxSrc_plates (s : State) (d : Nat) (x : RxSrc) :
    (State.setRxSrc s d x).plates = s.plates := by rfl

@[simp] theorem setRxSrc_plateCodes (s : State) (d : Nat) (x : RxSrc) :
    (State.setRxSrc s d x).plateCodes = s.plateCodes := by rfl

@[simp] theorem setRxSrc_sramCodes (s : State) (d : Nat) (x : RxSrc) :
    (State.setRxSrc s d x).sramCodes = s.sramCodes := by rfl

@[simp] theorem setRxSrc_flags (s : State) (d : Nat) (x : RxSrc) :
    (State.setRxSrc s d x).flags = s.flags := by rfl

@[simp] theorem setRxSrc_fpois (s : State) (d : Nat) (x : RxSrc) :
    (State.setRxSrc s d x).fpois = s.fpois := by rfl

@[simp] theorem setRxSrc_cores (s : State) (d : Nat) (x : RxSrc) :
    (State.setRxSrc s d x).cores = s.cores := by rfl

@[simp] theorem setRxSrc_cmds (s : State) (d : Nat) (x : RxSrc) :
    (State.setRxSrc s d x).cmds = s.cmds := by rfl

@[simp] theorem setRxSrc_nextCmd (s : State) (d : Nat) (x : RxSrc) :
    (State.setRxSrc s d x).nextCmd = s.nextCmd := by rfl

@[simp] theorem setRxSrc_aqts (s : State) (d : Nat) (x : RxSrc) :
    (State.setRxSrc s d x).aqts = s.aqts := by rfl

@[simp] theorem setRxSrc_coll (s : State) (d : Nat) (x : RxSrc) :
    (State.setRxSrc s d x).coll = s.coll := by rfl

@[simp] theorem setRxSrc_mbr (s : State) (d : Nat) (x : RxSrc) :
    (State.setRxSrc s d x).mbr = s.mbr := by rfl

@[simp] theorem setRxSrc_host (s : State) (d : Nat) (x : RxSrc) :
    (State.setRxSrc s d x).host = s.host := by rfl

@[simp] theorem setRxSrc_sec (s : State) (d : Nat) (x : RxSrc) :
    (State.setRxSrc s d x).sec = s.sec := by rfl

@[simp] theorem setRxSrc_lanes (s : State) (d : Nat) (x : RxSrc) :
    (State.setRxSrc s d x).lanes = s.lanes := by rfl

@[simp] theorem setRxSrc_rings (s : State) (d : Nat) (x : RxSrc) :
    (State.setRxSrc s d x).rings = s.rings := by rfl

@[simp] theorem setRxSrc_dies (s : State) (d : Nat) (x : RxSrc) :
    (State.setRxSrc s d x).dies = s.dies := by rfl

@[simp] theorem setRxSrc_alloc (s : State) (d : Nat) (x : RxSrc) :
    (State.setRxSrc s d x).alloc = s.alloc := by rfl

@[simp] theorem setRxSrc_time (s : State) (d : Nat) (x : RxSrc) :
    (State.setRxSrc s d x).time = s.time := by rfl

@[simp] theorem setRxSrc_tim (s : State) (d : Nat) (x : RxSrc) :
    (State.setRxSrc s d x).tim = s.tim := by rfl

@[simp] theorem setRxSrc_thm (s : State) (d : Nat) (x : RxSrc) :
    (State.setRxSrc s d x).thm = s.thm := by rfl

@[simp] theorem setRxSrc_events (s : State) (d : Nat) (x : RxSrc) :
    (State.setRxSrc s d x).events = s.events := by rfl

@[simp] theorem setRxSrc_out (s : State) (d : Nat) (x : RxSrc) :
    (State.setRxSrc s d x).out = s.out := by rfl

@[simp] theorem setRxSrc_dbgRestart (s : State) (d : Nat) (x : RxSrc) :
    (State.setRxSrc s d x).dbgRestart = s.dbgRestart := by rfl

@[simp] theorem setRxSrc_draw (s : State) (d : Nat) (x : RxSrc) :
    (State.setRxSrc s d x).draw = s.draw := by rfl

@[simp] theorem setRxSrc_pending (s : State) (d : Nat) (x : RxSrc) :
    (State.setRxSrc s d x).pending = s.pending := by rfl

@[simp] theorem setDie_fuses (s : State) (d : Nat) (x : DieSt) :
    (State.setDie s d x).fuses = s.fuses := by rfl

@[simp] theorem setDie_pins (s : State) (d : Nat) (x : DieSt) :
    (State.setDie s d x).pins = s.pins := by rfl

@[simp] theorem setDie_csr (s : State) (d : Nat) (x : DieSt) :
    (State.setDie s d x).csr = s.csr := by rfl

@[simp] theorem setDie_cnt (s : State) (d : Nat) (x : DieSt) :
    (State.setDie s d x).cnt = s.cnt := by rfl

@[simp] theorem setDie_cap (s : State) (d : Nat) (x : DieSt) :
    (State.setDie s d x).cap = s.cap := by rfl

@[simp] theorem setDie_hub (s : State) (d : Nat) (x : DieSt) :
    (State.setDie s d x).hub = s.hub := by rfl

@[simp] theorem setDie_mem (s : State) (d : Nat) (x : DieSt) :
    (State.setDie s d x).mem = s.mem := by rfl

@[simp] theorem setDie_plates (s : State) (d : Nat) (x : DieSt) :
    (State.setDie s d x).plates = s.plates := by rfl

@[simp] theorem setDie_plateCodes (s : State) (d : Nat) (x : DieSt) :
    (State.setDie s d x).plateCodes = s.plateCodes := by rfl

@[simp] theorem setDie_sramCodes (s : State) (d : Nat) (x : DieSt) :
    (State.setDie s d x).sramCodes = s.sramCodes := by rfl

@[simp] theorem setDie_flags (s : State) (d : Nat) (x : DieSt) :
    (State.setDie s d x).flags = s.flags := by rfl

@[simp] theorem setDie_fpois (s : State) (d : Nat) (x : DieSt) :
    (State.setDie s d x).fpois = s.fpois := by rfl

@[simp] theorem setDie_cores (s : State) (d : Nat) (x : DieSt) :
    (State.setDie s d x).cores = s.cores := by rfl

@[simp] theorem setDie_cmds (s : State) (d : Nat) (x : DieSt) :
    (State.setDie s d x).cmds = s.cmds := by rfl

@[simp] theorem setDie_nextCmd (s : State) (d : Nat) (x : DieSt) :
    (State.setDie s d x).nextCmd = s.nextCmd := by rfl

@[simp] theorem setDie_aqts (s : State) (d : Nat) (x : DieSt) :
    (State.setDie s d x).aqts = s.aqts := by rfl

@[simp] theorem setDie_net (s : State) (d : Nat) (x : DieSt) :
    (State.setDie s d x).net = s.net := by rfl

@[simp] theorem setDie_coll (s : State) (d : Nat) (x : DieSt) :
    (State.setDie s d x).coll = s.coll := by rfl

@[simp] theorem setDie_mbr (s : State) (d : Nat) (x : DieSt) :
    (State.setDie s d x).mbr = s.mbr := by rfl

@[simp] theorem setDie_host (s : State) (d : Nat) (x : DieSt) :
    (State.setDie s d x).host = s.host := by rfl

@[simp] theorem setDie_sec (s : State) (d : Nat) (x : DieSt) :
    (State.setDie s d x).sec = s.sec := by rfl

@[simp] theorem setDie_lanes (s : State) (d : Nat) (x : DieSt) :
    (State.setDie s d x).lanes = s.lanes := by rfl

@[simp] theorem setDie_rings (s : State) (d : Nat) (x : DieSt) :
    (State.setDie s d x).rings = s.rings := by rfl

@[simp] theorem setDie_alloc (s : State) (d : Nat) (x : DieSt) :
    (State.setDie s d x).alloc = s.alloc := by rfl

@[simp] theorem setDie_time (s : State) (d : Nat) (x : DieSt) :
    (State.setDie s d x).time = s.time := by rfl

@[simp] theorem setDie_tim (s : State) (d : Nat) (x : DieSt) :
    (State.setDie s d x).tim = s.tim := by rfl

@[simp] theorem setDie_thm (s : State) (d : Nat) (x : DieSt) :
    (State.setDie s d x).thm = s.thm := by rfl

@[simp] theorem setDie_events (s : State) (d : Nat) (x : DieSt) :
    (State.setDie s d x).events = s.events := by rfl

@[simp] theorem setDie_out (s : State) (d : Nat) (x : DieSt) :
    (State.setDie s d x).out = s.out := by rfl

@[simp] theorem setDie_dbgRestart (s : State) (d : Nat) (x : DieSt) :
    (State.setDie s d x).dbgRestart = s.dbgRestart := by rfl

@[simp] theorem setDie_draw (s : State) (d : Nat) (x : DieSt) :
    (State.setDie s d x).draw = s.draw := by rfl

@[simp] theorem setDie_pending (s : State) (d : Nat) (x : DieSt) :
    (State.setDie s d x).pending = s.pending := by rfl

@[simp] theorem modDie_fuses (s : State) (d : Nat) (f : DieSt → DieSt) :
    (State.modDie s d f).fuses = s.fuses := by simp [State.modDie]

@[simp] theorem modDie_pins (s : State) (d : Nat) (f : DieSt → DieSt) :
    (State.modDie s d f).pins = s.pins := by simp [State.modDie]

@[simp] theorem modDie_csr (s : State) (d : Nat) (f : DieSt → DieSt) :
    (State.modDie s d f).csr = s.csr := by simp [State.modDie]

@[simp] theorem modDie_cnt (s : State) (d : Nat) (f : DieSt → DieSt) :
    (State.modDie s d f).cnt = s.cnt := by simp [State.modDie]

@[simp] theorem modDie_cap (s : State) (d : Nat) (f : DieSt → DieSt) :
    (State.modDie s d f).cap = s.cap := by simp [State.modDie]

@[simp] theorem modDie_hub (s : State) (d : Nat) (f : DieSt → DieSt) :
    (State.modDie s d f).hub = s.hub := by simp [State.modDie]

@[simp] theorem modDie_mem (s : State) (d : Nat) (f : DieSt → DieSt) :
    (State.modDie s d f).mem = s.mem := by simp [State.modDie]

@[simp] theorem modDie_plates (s : State) (d : Nat) (f : DieSt → DieSt) :
    (State.modDie s d f).plates = s.plates := by simp [State.modDie]

@[simp] theorem modDie_plateCodes (s : State) (d : Nat) (f : DieSt → DieSt) :
    (State.modDie s d f).plateCodes = s.plateCodes := by simp [State.modDie]

@[simp] theorem modDie_sramCodes (s : State) (d : Nat) (f : DieSt → DieSt) :
    (State.modDie s d f).sramCodes = s.sramCodes := by simp [State.modDie]

@[simp] theorem modDie_flags (s : State) (d : Nat) (f : DieSt → DieSt) :
    (State.modDie s d f).flags = s.flags := by simp [State.modDie]

@[simp] theorem modDie_fpois (s : State) (d : Nat) (f : DieSt → DieSt) :
    (State.modDie s d f).fpois = s.fpois := by simp [State.modDie]

@[simp] theorem modDie_cores (s : State) (d : Nat) (f : DieSt → DieSt) :
    (State.modDie s d f).cores = s.cores := by simp [State.modDie]

@[simp] theorem modDie_cmds (s : State) (d : Nat) (f : DieSt → DieSt) :
    (State.modDie s d f).cmds = s.cmds := by simp [State.modDie]

@[simp] theorem modDie_nextCmd (s : State) (d : Nat) (f : DieSt → DieSt) :
    (State.modDie s d f).nextCmd = s.nextCmd := by simp [State.modDie]

@[simp] theorem modDie_aqts (s : State) (d : Nat) (f : DieSt → DieSt) :
    (State.modDie s d f).aqts = s.aqts := by simp [State.modDie]

@[simp] theorem modDie_net (s : State) (d : Nat) (f : DieSt → DieSt) :
    (State.modDie s d f).net = s.net := by simp [State.modDie]

@[simp] theorem modDie_coll (s : State) (d : Nat) (f : DieSt → DieSt) :
    (State.modDie s d f).coll = s.coll := by simp [State.modDie]

@[simp] theorem modDie_mbr (s : State) (d : Nat) (f : DieSt → DieSt) :
    (State.modDie s d f).mbr = s.mbr := by simp [State.modDie]

@[simp] theorem modDie_host (s : State) (d : Nat) (f : DieSt → DieSt) :
    (State.modDie s d f).host = s.host := by simp [State.modDie]

@[simp] theorem modDie_sec (s : State) (d : Nat) (f : DieSt → DieSt) :
    (State.modDie s d f).sec = s.sec := by simp [State.modDie]

@[simp] theorem modDie_lanes (s : State) (d : Nat) (f : DieSt → DieSt) :
    (State.modDie s d f).lanes = s.lanes := by simp [State.modDie]

@[simp] theorem modDie_rings (s : State) (d : Nat) (f : DieSt → DieSt) :
    (State.modDie s d f).rings = s.rings := by simp [State.modDie]

@[simp] theorem modDie_alloc (s : State) (d : Nat) (f : DieSt → DieSt) :
    (State.modDie s d f).alloc = s.alloc := by simp [State.modDie]

@[simp] theorem modDie_time (s : State) (d : Nat) (f : DieSt → DieSt) :
    (State.modDie s d f).time = s.time := by simp [State.modDie]

@[simp] theorem modDie_tim (s : State) (d : Nat) (f : DieSt → DieSt) :
    (State.modDie s d f).tim = s.tim := by simp [State.modDie]

@[simp] theorem modDie_thm (s : State) (d : Nat) (f : DieSt → DieSt) :
    (State.modDie s d f).thm = s.thm := by simp [State.modDie]

@[simp] theorem modDie_events (s : State) (d : Nat) (f : DieSt → DieSt) :
    (State.modDie s d f).events = s.events := by simp [State.modDie]

@[simp] theorem modDie_out (s : State) (d : Nat) (f : DieSt → DieSt) :
    (State.modDie s d f).out = s.out := by simp [State.modDie]

@[simp] theorem modDie_dbgRestart (s : State) (d : Nat) (f : DieSt → DieSt) :
    (State.modDie s d f).dbgRestart = s.dbgRestart := by simp [State.modDie]

@[simp] theorem modDie_draw (s : State) (d : Nat) (f : DieSt → DieSt) :
    (State.modDie s d f).draw = s.draw := by simp [State.modDie]

@[simp] theorem modDie_pending (s : State) (d : Nat) (f : DieSt → DieSt) :
    (State.modDie s d f).pending = s.pending := by simp [State.modDie]

@[simp] theorem setRing_fuses (s : State) (d f r : Nat) (x : RingSt) :
    (State.setRing s d f r x).fuses = s.fuses := by rfl

@[simp] theorem setRing_pins (s : State) (d f r : Nat) (x : RingSt) :
    (State.setRing s d f r x).pins = s.pins := by rfl

@[simp] theorem setRing_csr (s : State) (d f r : Nat) (x : RingSt) :
    (State.setRing s d f r x).csr = s.csr := by rfl

@[simp] theorem setRing_cnt (s : State) (d f r : Nat) (x : RingSt) :
    (State.setRing s d f r x).cnt = s.cnt := by rfl

@[simp] theorem setRing_cap (s : State) (d f r : Nat) (x : RingSt) :
    (State.setRing s d f r x).cap = s.cap := by rfl

@[simp] theorem setRing_hub (s : State) (d f r : Nat) (x : RingSt) :
    (State.setRing s d f r x).hub = s.hub := by rfl

@[simp] theorem setRing_mem (s : State) (d f r : Nat) (x : RingSt) :
    (State.setRing s d f r x).mem = s.mem := by rfl

@[simp] theorem setRing_plates (s : State) (d f r : Nat) (x : RingSt) :
    (State.setRing s d f r x).plates = s.plates := by rfl

@[simp] theorem setRing_plateCodes (s : State) (d f r : Nat) (x : RingSt) :
    (State.setRing s d f r x).plateCodes = s.plateCodes := by rfl

@[simp] theorem setRing_sramCodes (s : State) (d f r : Nat) (x : RingSt) :
    (State.setRing s d f r x).sramCodes = s.sramCodes := by rfl

@[simp] theorem setRing_flags (s : State) (d f r : Nat) (x : RingSt) :
    (State.setRing s d f r x).flags = s.flags := by rfl

@[simp] theorem setRing_fpois (s : State) (d f r : Nat) (x : RingSt) :
    (State.setRing s d f r x).fpois = s.fpois := by rfl

@[simp] theorem setRing_cores (s : State) (d f r : Nat) (x : RingSt) :
    (State.setRing s d f r x).cores = s.cores := by rfl

@[simp] theorem setRing_cmds (s : State) (d f r : Nat) (x : RingSt) :
    (State.setRing s d f r x).cmds = s.cmds := by rfl

@[simp] theorem setRing_nextCmd (s : State) (d f r : Nat) (x : RingSt) :
    (State.setRing s d f r x).nextCmd = s.nextCmd := by rfl

@[simp] theorem setRing_aqts (s : State) (d f r : Nat) (x : RingSt) :
    (State.setRing s d f r x).aqts = s.aqts := by rfl

@[simp] theorem setRing_net (s : State) (d f r : Nat) (x : RingSt) :
    (State.setRing s d f r x).net = s.net := by rfl

@[simp] theorem setRing_coll (s : State) (d f r : Nat) (x : RingSt) :
    (State.setRing s d f r x).coll = s.coll := by rfl

@[simp] theorem setRing_mbr (s : State) (d f r : Nat) (x : RingSt) :
    (State.setRing s d f r x).mbr = s.mbr := by rfl

@[simp] theorem setRing_host (s : State) (d f r : Nat) (x : RingSt) :
    (State.setRing s d f r x).host = s.host := by rfl

@[simp] theorem setRing_sec (s : State) (d f r : Nat) (x : RingSt) :
    (State.setRing s d f r x).sec = s.sec := by rfl

@[simp] theorem setRing_lanes (s : State) (d f r : Nat) (x : RingSt) :
    (State.setRing s d f r x).lanes = s.lanes := by rfl

@[simp] theorem setRing_dies (s : State) (d f r : Nat) (x : RingSt) :
    (State.setRing s d f r x).dies = s.dies := by rfl

@[simp] theorem setRing_alloc (s : State) (d f r : Nat) (x : RingSt) :
    (State.setRing s d f r x).alloc = s.alloc := by rfl

@[simp] theorem setRing_time (s : State) (d f r : Nat) (x : RingSt) :
    (State.setRing s d f r x).time = s.time := by rfl

@[simp] theorem setRing_tim (s : State) (d f r : Nat) (x : RingSt) :
    (State.setRing s d f r x).tim = s.tim := by rfl

@[simp] theorem setRing_thm (s : State) (d f r : Nat) (x : RingSt) :
    (State.setRing s d f r x).thm = s.thm := by rfl

@[simp] theorem setRing_events (s : State) (d f r : Nat) (x : RingSt) :
    (State.setRing s d f r x).events = s.events := by rfl

@[simp] theorem setRing_out (s : State) (d f r : Nat) (x : RingSt) :
    (State.setRing s d f r x).out = s.out := by rfl

@[simp] theorem setRing_dbgRestart (s : State) (d f r : Nat) (x : RingSt) :
    (State.setRing s d f r x).dbgRestart = s.dbgRestart := by rfl

@[simp] theorem setRing_draw (s : State) (d f r : Nat) (x : RingSt) :
    (State.setRing s d f r x).draw = s.draw := by rfl

@[simp] theorem setRing_pending (s : State) (d f r : Nat) (x : RingSt) :
    (State.setRing s d f r x).pending = s.pending := by rfl

@[simp] theorem modRing_fuses (s : State) (d f r : Nat) (g : RingSt → RingSt) :
    (State.modRing s d f r g).fuses = s.fuses := by simp [State.modRing]

@[simp] theorem modRing_pins (s : State) (d f r : Nat) (g : RingSt → RingSt) :
    (State.modRing s d f r g).pins = s.pins := by simp [State.modRing]

@[simp] theorem modRing_csr (s : State) (d f r : Nat) (g : RingSt → RingSt) :
    (State.modRing s d f r g).csr = s.csr := by simp [State.modRing]

@[simp] theorem modRing_cnt (s : State) (d f r : Nat) (g : RingSt → RingSt) :
    (State.modRing s d f r g).cnt = s.cnt := by simp [State.modRing]

@[simp] theorem modRing_cap (s : State) (d f r : Nat) (g : RingSt → RingSt) :
    (State.modRing s d f r g).cap = s.cap := by simp [State.modRing]

@[simp] theorem modRing_hub (s : State) (d f r : Nat) (g : RingSt → RingSt) :
    (State.modRing s d f r g).hub = s.hub := by simp [State.modRing]

@[simp] theorem modRing_mem (s : State) (d f r : Nat) (g : RingSt → RingSt) :
    (State.modRing s d f r g).mem = s.mem := by simp [State.modRing]

@[simp] theorem modRing_plates (s : State) (d f r : Nat) (g : RingSt → RingSt) :
    (State.modRing s d f r g).plates = s.plates := by simp [State.modRing]

@[simp] theorem modRing_plateCodes (s : State) (d f r : Nat) (g : RingSt → RingSt) :
    (State.modRing s d f r g).plateCodes = s.plateCodes := by simp [State.modRing]

@[simp] theorem modRing_sramCodes (s : State) (d f r : Nat) (g : RingSt → RingSt) :
    (State.modRing s d f r g).sramCodes = s.sramCodes := by simp [State.modRing]

@[simp] theorem modRing_flags (s : State) (d f r : Nat) (g : RingSt → RingSt) :
    (State.modRing s d f r g).flags = s.flags := by simp [State.modRing]

@[simp] theorem modRing_fpois (s : State) (d f r : Nat) (g : RingSt → RingSt) :
    (State.modRing s d f r g).fpois = s.fpois := by simp [State.modRing]

@[simp] theorem modRing_cores (s : State) (d f r : Nat) (g : RingSt → RingSt) :
    (State.modRing s d f r g).cores = s.cores := by simp [State.modRing]

@[simp] theorem modRing_cmds (s : State) (d f r : Nat) (g : RingSt → RingSt) :
    (State.modRing s d f r g).cmds = s.cmds := by simp [State.modRing]

@[simp] theorem modRing_nextCmd (s : State) (d f r : Nat) (g : RingSt → RingSt) :
    (State.modRing s d f r g).nextCmd = s.nextCmd := by simp [State.modRing]

@[simp] theorem modRing_aqts (s : State) (d f r : Nat) (g : RingSt → RingSt) :
    (State.modRing s d f r g).aqts = s.aqts := by simp [State.modRing]

@[simp] theorem modRing_net (s : State) (d f r : Nat) (g : RingSt → RingSt) :
    (State.modRing s d f r g).net = s.net := by simp [State.modRing]

@[simp] theorem modRing_coll (s : State) (d f r : Nat) (g : RingSt → RingSt) :
    (State.modRing s d f r g).coll = s.coll := by simp [State.modRing]

@[simp] theorem modRing_mbr (s : State) (d f r : Nat) (g : RingSt → RingSt) :
    (State.modRing s d f r g).mbr = s.mbr := by simp [State.modRing]

@[simp] theorem modRing_host (s : State) (d f r : Nat) (g : RingSt → RingSt) :
    (State.modRing s d f r g).host = s.host := by simp [State.modRing]

@[simp] theorem modRing_sec (s : State) (d f r : Nat) (g : RingSt → RingSt) :
    (State.modRing s d f r g).sec = s.sec := by simp [State.modRing]

@[simp] theorem modRing_lanes (s : State) (d f r : Nat) (g : RingSt → RingSt) :
    (State.modRing s d f r g).lanes = s.lanes := by simp [State.modRing]

@[simp] theorem modRing_dies (s : State) (d f r : Nat) (g : RingSt → RingSt) :
    (State.modRing s d f r g).dies = s.dies := by simp [State.modRing]

@[simp] theorem modRing_alloc (s : State) (d f r : Nat) (g : RingSt → RingSt) :
    (State.modRing s d f r g).alloc = s.alloc := by simp [State.modRing]

@[simp] theorem modRing_time (s : State) (d f r : Nat) (g : RingSt → RingSt) :
    (State.modRing s d f r g).time = s.time := by simp [State.modRing]

@[simp] theorem modRing_tim (s : State) (d f r : Nat) (g : RingSt → RingSt) :
    (State.modRing s d f r g).tim = s.tim := by simp [State.modRing]

@[simp] theorem modRing_thm (s : State) (d f r : Nat) (g : RingSt → RingSt) :
    (State.modRing s d f r g).thm = s.thm := by simp [State.modRing]

@[simp] theorem modRing_events (s : State) (d f r : Nat) (g : RingSt → RingSt) :
    (State.modRing s d f r g).events = s.events := by simp [State.modRing]

@[simp] theorem modRing_out (s : State) (d f r : Nat) (g : RingSt → RingSt) :
    (State.modRing s d f r g).out = s.out := by simp [State.modRing]

@[simp] theorem modRing_dbgRestart (s : State) (d f r : Nat) (g : RingSt → RingSt) :
    (State.modRing s d f r g).dbgRestart = s.dbgRestart := by simp [State.modRing]

@[simp] theorem modRing_draw (s : State) (d f r : Nat) (g : RingSt → RingSt) :
    (State.modRing s d f r g).draw = s.draw := by simp [State.modRing]

@[simp] theorem modRing_pending (s : State) (d f r : Nat) (g : RingSt → RingSt) :
    (State.modRing s d f r g).pending = s.pending := by simp [State.modRing]

@[simp] theorem setGroup_fuses (s : State) (g : Nat) (x : GroupSt) :
    (State.setGroup s g x).fuses = s.fuses := by rfl

@[simp] theorem setGroup_pins (s : State) (g : Nat) (x : GroupSt) :
    (State.setGroup s g x).pins = s.pins := by rfl

@[simp] theorem setGroup_csr (s : State) (g : Nat) (x : GroupSt) :
    (State.setGroup s g x).csr = s.csr := by rfl

@[simp] theorem setGroup_cnt (s : State) (g : Nat) (x : GroupSt) :
    (State.setGroup s g x).cnt = s.cnt := by rfl

@[simp] theorem setGroup_cap (s : State) (g : Nat) (x : GroupSt) :
    (State.setGroup s g x).cap = s.cap := by rfl

@[simp] theorem setGroup_hub (s : State) (g : Nat) (x : GroupSt) :
    (State.setGroup s g x).hub = s.hub := by rfl

@[simp] theorem setGroup_mem (s : State) (g : Nat) (x : GroupSt) :
    (State.setGroup s g x).mem = s.mem := by rfl

@[simp] theorem setGroup_plates (s : State) (g : Nat) (x : GroupSt) :
    (State.setGroup s g x).plates = s.plates := by rfl

@[simp] theorem setGroup_plateCodes (s : State) (g : Nat) (x : GroupSt) :
    (State.setGroup s g x).plateCodes = s.plateCodes := by rfl

@[simp] theorem setGroup_sramCodes (s : State) (g : Nat) (x : GroupSt) :
    (State.setGroup s g x).sramCodes = s.sramCodes := by rfl

@[simp] theorem setGroup_flags (s : State) (g : Nat) (x : GroupSt) :
    (State.setGroup s g x).flags = s.flags := by rfl

@[simp] theorem setGroup_fpois (s : State) (g : Nat) (x : GroupSt) :
    (State.setGroup s g x).fpois = s.fpois := by rfl

@[simp] theorem setGroup_cores (s : State) (g : Nat) (x : GroupSt) :
    (State.setGroup s g x).cores = s.cores := by rfl

@[simp] theorem setGroup_cmds (s : State) (g : Nat) (x : GroupSt) :
    (State.setGroup s g x).cmds = s.cmds := by rfl

@[simp] theorem setGroup_nextCmd (s : State) (g : Nat) (x : GroupSt) :
    (State.setGroup s g x).nextCmd = s.nextCmd := by rfl

@[simp] theorem setGroup_aqts (s : State) (g : Nat) (x : GroupSt) :
    (State.setGroup s g x).aqts = s.aqts := by rfl

@[simp] theorem setGroup_net (s : State) (g : Nat) (x : GroupSt) :
    (State.setGroup s g x).net = s.net := by rfl

@[simp] theorem setGroup_mbr (s : State) (g : Nat) (x : GroupSt) :
    (State.setGroup s g x).mbr = s.mbr := by rfl

@[simp] theorem setGroup_host (s : State) (g : Nat) (x : GroupSt) :
    (State.setGroup s g x).host = s.host := by rfl

@[simp] theorem setGroup_sec (s : State) (g : Nat) (x : GroupSt) :
    (State.setGroup s g x).sec = s.sec := by rfl

@[simp] theorem setGroup_lanes (s : State) (g : Nat) (x : GroupSt) :
    (State.setGroup s g x).lanes = s.lanes := by rfl

@[simp] theorem setGroup_rings (s : State) (g : Nat) (x : GroupSt) :
    (State.setGroup s g x).rings = s.rings := by rfl

@[simp] theorem setGroup_dies (s : State) (g : Nat) (x : GroupSt) :
    (State.setGroup s g x).dies = s.dies := by rfl

@[simp] theorem setGroup_alloc (s : State) (g : Nat) (x : GroupSt) :
    (State.setGroup s g x).alloc = s.alloc := by rfl

@[simp] theorem setGroup_time (s : State) (g : Nat) (x : GroupSt) :
    (State.setGroup s g x).time = s.time := by rfl

@[simp] theorem setGroup_tim (s : State) (g : Nat) (x : GroupSt) :
    (State.setGroup s g x).tim = s.tim := by rfl

@[simp] theorem setGroup_thm (s : State) (g : Nat) (x : GroupSt) :
    (State.setGroup s g x).thm = s.thm := by rfl

@[simp] theorem setGroup_events (s : State) (g : Nat) (x : GroupSt) :
    (State.setGroup s g x).events = s.events := by rfl

@[simp] theorem setGroup_out (s : State) (g : Nat) (x : GroupSt) :
    (State.setGroup s g x).out = s.out := by rfl

@[simp] theorem setGroup_dbgRestart (s : State) (g : Nat) (x : GroupSt) :
    (State.setGroup s g x).dbgRestart = s.dbgRestart := by rfl

@[simp] theorem setGroup_draw (s : State) (g : Nat) (x : GroupSt) :
    (State.setGroup s g x).draw = s.draw := by rfl

@[simp] theorem setGroup_pending (s : State) (g : Nat) (x : GroupSt) :
    (State.setGroup s g x).pending = s.pending := by rfl

@[simp] theorem setCtx_fuses (s : State) (key : Nat) (x : CollCtx) :
    (State.setCtx s key x).fuses = s.fuses := by rfl

@[simp] theorem setCtx_pins (s : State) (key : Nat) (x : CollCtx) :
    (State.setCtx s key x).pins = s.pins := by rfl

@[simp] theorem setCtx_csr (s : State) (key : Nat) (x : CollCtx) :
    (State.setCtx s key x).csr = s.csr := by rfl

@[simp] theorem setCtx_cnt (s : State) (key : Nat) (x : CollCtx) :
    (State.setCtx s key x).cnt = s.cnt := by rfl

@[simp] theorem setCtx_cap (s : State) (key : Nat) (x : CollCtx) :
    (State.setCtx s key x).cap = s.cap := by rfl

@[simp] theorem setCtx_hub (s : State) (key : Nat) (x : CollCtx) :
    (State.setCtx s key x).hub = s.hub := by rfl

@[simp] theorem setCtx_mem (s : State) (key : Nat) (x : CollCtx) :
    (State.setCtx s key x).mem = s.mem := by rfl

@[simp] theorem setCtx_plates (s : State) (key : Nat) (x : CollCtx) :
    (State.setCtx s key x).plates = s.plates := by rfl

@[simp] theorem setCtx_plateCodes (s : State) (key : Nat) (x : CollCtx) :
    (State.setCtx s key x).plateCodes = s.plateCodes := by rfl

@[simp] theorem setCtx_sramCodes (s : State) (key : Nat) (x : CollCtx) :
    (State.setCtx s key x).sramCodes = s.sramCodes := by rfl

@[simp] theorem setCtx_flags (s : State) (key : Nat) (x : CollCtx) :
    (State.setCtx s key x).flags = s.flags := by rfl

@[simp] theorem setCtx_fpois (s : State) (key : Nat) (x : CollCtx) :
    (State.setCtx s key x).fpois = s.fpois := by rfl

@[simp] theorem setCtx_cores (s : State) (key : Nat) (x : CollCtx) :
    (State.setCtx s key x).cores = s.cores := by rfl

@[simp] theorem setCtx_cmds (s : State) (key : Nat) (x : CollCtx) :
    (State.setCtx s key x).cmds = s.cmds := by rfl

@[simp] theorem setCtx_nextCmd (s : State) (key : Nat) (x : CollCtx) :
    (State.setCtx s key x).nextCmd = s.nextCmd := by rfl

@[simp] theorem setCtx_aqts (s : State) (key : Nat) (x : CollCtx) :
    (State.setCtx s key x).aqts = s.aqts := by rfl

@[simp] theorem setCtx_net (s : State) (key : Nat) (x : CollCtx) :
    (State.setCtx s key x).net = s.net := by rfl

@[simp] theorem setCtx_mbr (s : State) (key : Nat) (x : CollCtx) :
    (State.setCtx s key x).mbr = s.mbr := by rfl

@[simp] theorem setCtx_host (s : State) (key : Nat) (x : CollCtx) :
    (State.setCtx s key x).host = s.host := by rfl

@[simp] theorem setCtx_sec (s : State) (key : Nat) (x : CollCtx) :
    (State.setCtx s key x).sec = s.sec := by rfl

@[simp] theorem setCtx_lanes (s : State) (key : Nat) (x : CollCtx) :
    (State.setCtx s key x).lanes = s.lanes := by rfl

@[simp] theorem setCtx_rings (s : State) (key : Nat) (x : CollCtx) :
    (State.setCtx s key x).rings = s.rings := by rfl

@[simp] theorem setCtx_dies (s : State) (key : Nat) (x : CollCtx) :
    (State.setCtx s key x).dies = s.dies := by rfl

@[simp] theorem setCtx_alloc (s : State) (key : Nat) (x : CollCtx) :
    (State.setCtx s key x).alloc = s.alloc := by rfl

@[simp] theorem setCtx_time (s : State) (key : Nat) (x : CollCtx) :
    (State.setCtx s key x).time = s.time := by rfl

@[simp] theorem setCtx_tim (s : State) (key : Nat) (x : CollCtx) :
    (State.setCtx s key x).tim = s.tim := by rfl

@[simp] theorem setCtx_thm (s : State) (key : Nat) (x : CollCtx) :
    (State.setCtx s key x).thm = s.thm := by rfl

@[simp] theorem setCtx_events (s : State) (key : Nat) (x : CollCtx) :
    (State.setCtx s key x).events = s.events := by rfl

@[simp] theorem setCtx_out (s : State) (key : Nat) (x : CollCtx) :
    (State.setCtx s key x).out = s.out := by rfl

@[simp] theorem setCtx_dbgRestart (s : State) (key : Nat) (x : CollCtx) :
    (State.setCtx s key x).dbgRestart = s.dbgRestart := by rfl

@[simp] theorem setCtx_draw (s : State) (key : Nat) (x : CollCtx) :
    (State.setCtx s key x).draw = s.draw := by rfl

@[simp] theorem setCtx_pending (s : State) (key : Nat) (x : CollCtx) :
    (State.setCtx s key x).pending = s.pending := by rfl

@[simp] theorem modCtx_fuses (s : State) (key : Nat) (f : CollCtx → CollCtx) :
    (State.modCtx s key f).fuses = s.fuses := by unfold State.modCtx; split <;> rfl

@[simp] theorem modCtx_pins (s : State) (key : Nat) (f : CollCtx → CollCtx) :
    (State.modCtx s key f).pins = s.pins := by unfold State.modCtx; split <;> rfl

@[simp] theorem modCtx_csr (s : State) (key : Nat) (f : CollCtx → CollCtx) :
    (State.modCtx s key f).csr = s.csr := by unfold State.modCtx; split <;> rfl

@[simp] theorem modCtx_cnt (s : State) (key : Nat) (f : CollCtx → CollCtx) :
    (State.modCtx s key f).cnt = s.cnt := by unfold State.modCtx; split <;> rfl

@[simp] theorem modCtx_cap (s : State) (key : Nat) (f : CollCtx → CollCtx) :
    (State.modCtx s key f).cap = s.cap := by unfold State.modCtx; split <;> rfl

@[simp] theorem modCtx_hub (s : State) (key : Nat) (f : CollCtx → CollCtx) :
    (State.modCtx s key f).hub = s.hub := by unfold State.modCtx; split <;> rfl

@[simp] theorem modCtx_mem (s : State) (key : Nat) (f : CollCtx → CollCtx) :
    (State.modCtx s key f).mem = s.mem := by unfold State.modCtx; split <;> rfl

@[simp] theorem modCtx_plates (s : State) (key : Nat) (f : CollCtx → CollCtx) :
    (State.modCtx s key f).plates = s.plates := by unfold State.modCtx; split <;> rfl

@[simp] theorem modCtx_plateCodes (s : State) (key : Nat) (f : CollCtx → CollCtx) :
    (State.modCtx s key f).plateCodes = s.plateCodes := by unfold State.modCtx; split <;> rfl

@[simp] theorem modCtx_sramCodes (s : State) (key : Nat) (f : CollCtx → CollCtx) :
    (State.modCtx s key f).sramCodes = s.sramCodes := by unfold State.modCtx; split <;> rfl

@[simp] theorem modCtx_flags (s : State) (key : Nat) (f : CollCtx → CollCtx) :
    (State.modCtx s key f).flags = s.flags := by unfold State.modCtx; split <;> rfl

@[simp] theorem modCtx_fpois (s : State) (key : Nat) (f : CollCtx → CollCtx) :
    (State.modCtx s key f).fpois = s.fpois := by unfold State.modCtx; split <;> rfl

@[simp] theorem modCtx_cores (s : State) (key : Nat) (f : CollCtx → CollCtx) :
    (State.modCtx s key f).cores = s.cores := by unfold State.modCtx; split <;> rfl

@[simp] theorem modCtx_cmds (s : State) (key : Nat) (f : CollCtx → CollCtx) :
    (State.modCtx s key f).cmds = s.cmds := by unfold State.modCtx; split <;> rfl

@[simp] theorem modCtx_nextCmd (s : State) (key : Nat) (f : CollCtx → CollCtx) :
    (State.modCtx s key f).nextCmd = s.nextCmd := by unfold State.modCtx; split <;> rfl

@[simp] theorem modCtx_aqts (s : State) (key : Nat) (f : CollCtx → CollCtx) :
    (State.modCtx s key f).aqts = s.aqts := by unfold State.modCtx; split <;> rfl

@[simp] theorem modCtx_net (s : State) (key : Nat) (f : CollCtx → CollCtx) :
    (State.modCtx s key f).net = s.net := by unfold State.modCtx; split <;> rfl

@[simp] theorem modCtx_mbr (s : State) (key : Nat) (f : CollCtx → CollCtx) :
    (State.modCtx s key f).mbr = s.mbr := by unfold State.modCtx; split <;> rfl

@[simp] theorem modCtx_host (s : State) (key : Nat) (f : CollCtx → CollCtx) :
    (State.modCtx s key f).host = s.host := by unfold State.modCtx; split <;> rfl

@[simp] theorem modCtx_sec (s : State) (key : Nat) (f : CollCtx → CollCtx) :
    (State.modCtx s key f).sec = s.sec := by unfold State.modCtx; split <;> rfl

@[simp] theorem modCtx_lanes (s : State) (key : Nat) (f : CollCtx → CollCtx) :
    (State.modCtx s key f).lanes = s.lanes := by unfold State.modCtx; split <;> rfl

@[simp] theorem modCtx_rings (s : State) (key : Nat) (f : CollCtx → CollCtx) :
    (State.modCtx s key f).rings = s.rings := by unfold State.modCtx; split <;> rfl

@[simp] theorem modCtx_dies (s : State) (key : Nat) (f : CollCtx → CollCtx) :
    (State.modCtx s key f).dies = s.dies := by unfold State.modCtx; split <;> rfl

@[simp] theorem modCtx_alloc (s : State) (key : Nat) (f : CollCtx → CollCtx) :
    (State.modCtx s key f).alloc = s.alloc := by unfold State.modCtx; split <;> rfl

@[simp] theorem modCtx_time (s : State) (key : Nat) (f : CollCtx → CollCtx) :
    (State.modCtx s key f).time = s.time := by unfold State.modCtx; split <;> rfl

@[simp] theorem modCtx_tim (s : State) (key : Nat) (f : CollCtx → CollCtx) :
    (State.modCtx s key f).tim = s.tim := by unfold State.modCtx; split <;> rfl

@[simp] theorem modCtx_thm (s : State) (key : Nat) (f : CollCtx → CollCtx) :
    (State.modCtx s key f).thm = s.thm := by unfold State.modCtx; split <;> rfl

@[simp] theorem modCtx_events (s : State) (key : Nat) (f : CollCtx → CollCtx) :
    (State.modCtx s key f).events = s.events := by unfold State.modCtx; split <;> rfl

@[simp] theorem modCtx_out (s : State) (key : Nat) (f : CollCtx → CollCtx) :
    (State.modCtx s key f).out = s.out := by unfold State.modCtx; split <;> rfl

@[simp] theorem modCtx_dbgRestart (s : State) (key : Nat) (f : CollCtx → CollCtx) :
    (State.modCtx s key f).dbgRestart = s.dbgRestart := by unfold State.modCtx; split <;> rfl

@[simp] theorem modCtx_draw (s : State) (key : Nat) (f : CollCtx → CollCtx) :
    (State.modCtx s key f).draw = s.draw := by unfold State.modCtx; split <;> rfl

@[simp] theorem modCtx_pending (s : State) (key : Nat) (f : CollCtx → CollCtx) :
    (State.modCtx s key f).pending = s.pending := by unfold State.modCtx; split <;> rfl

@[simp] theorem setSess_fuses (s : State) (k : Nat) (x : SessSt) :
    (State.setSess s k x).fuses = s.fuses := by rfl

@[simp] theorem setSess_pins (s : State) (k : Nat) (x : SessSt) :
    (State.setSess s k x).pins = s.pins := by rfl

@[simp] theorem setSess_csr (s : State) (k : Nat) (x : SessSt) :
    (State.setSess s k x).csr = s.csr := by rfl

@[simp] theorem setSess_cnt (s : State) (k : Nat) (x : SessSt) :
    (State.setSess s k x).cnt = s.cnt := by rfl

@[simp] theorem setSess_cap (s : State) (k : Nat) (x : SessSt) :
    (State.setSess s k x).cap = s.cap := by rfl

@[simp] theorem setSess_hub (s : State) (k : Nat) (x : SessSt) :
    (State.setSess s k x).hub = s.hub := by rfl

@[simp] theorem setSess_mem (s : State) (k : Nat) (x : SessSt) :
    (State.setSess s k x).mem = s.mem := by rfl

@[simp] theorem setSess_plates (s : State) (k : Nat) (x : SessSt) :
    (State.setSess s k x).plates = s.plates := by rfl

@[simp] theorem setSess_plateCodes (s : State) (k : Nat) (x : SessSt) :
    (State.setSess s k x).plateCodes = s.plateCodes := by rfl

@[simp] theorem setSess_sramCodes (s : State) (k : Nat) (x : SessSt) :
    (State.setSess s k x).sramCodes = s.sramCodes := by rfl

@[simp] theorem setSess_flags (s : State) (k : Nat) (x : SessSt) :
    (State.setSess s k x).flags = s.flags := by rfl

@[simp] theorem setSess_fpois (s : State) (k : Nat) (x : SessSt) :
    (State.setSess s k x).fpois = s.fpois := by rfl

@[simp] theorem setSess_cores (s : State) (k : Nat) (x : SessSt) :
    (State.setSess s k x).cores = s.cores := by rfl

@[simp] theorem setSess_cmds (s : State) (k : Nat) (x : SessSt) :
    (State.setSess s k x).cmds = s.cmds := by rfl

@[simp] theorem setSess_nextCmd (s : State) (k : Nat) (x : SessSt) :
    (State.setSess s k x).nextCmd = s.nextCmd := by rfl

@[simp] theorem setSess_aqts (s : State) (k : Nat) (x : SessSt) :
    (State.setSess s k x).aqts = s.aqts := by rfl

@[simp] theorem setSess_net (s : State) (k : Nat) (x : SessSt) :
    (State.setSess s k x).net = s.net := by rfl

@[simp] theorem setSess_coll (s : State) (k : Nat) (x : SessSt) :
    (State.setSess s k x).coll = s.coll := by rfl

@[simp] theorem setSess_mbr (s : State) (k : Nat) (x : SessSt) :
    (State.setSess s k x).mbr = s.mbr := by rfl

@[simp] theorem setSess_sec (s : State) (k : Nat) (x : SessSt) :
    (State.setSess s k x).sec = s.sec := by rfl

@[simp] theorem setSess_lanes (s : State) (k : Nat) (x : SessSt) :
    (State.setSess s k x).lanes = s.lanes := by rfl

@[simp] theorem setSess_rings (s : State) (k : Nat) (x : SessSt) :
    (State.setSess s k x).rings = s.rings := by rfl

@[simp] theorem setSess_dies (s : State) (k : Nat) (x : SessSt) :
    (State.setSess s k x).dies = s.dies := by rfl

@[simp] theorem setSess_alloc (s : State) (k : Nat) (x : SessSt) :
    (State.setSess s k x).alloc = s.alloc := by rfl

@[simp] theorem setSess_time (s : State) (k : Nat) (x : SessSt) :
    (State.setSess s k x).time = s.time := by rfl

@[simp] theorem setSess_tim (s : State) (k : Nat) (x : SessSt) :
    (State.setSess s k x).tim = s.tim := by rfl

@[simp] theorem setSess_thm (s : State) (k : Nat) (x : SessSt) :
    (State.setSess s k x).thm = s.thm := by rfl

@[simp] theorem setSess_events (s : State) (k : Nat) (x : SessSt) :
    (State.setSess s k x).events = s.events := by rfl

@[simp] theorem setSess_out (s : State) (k : Nat) (x : SessSt) :
    (State.setSess s k x).out = s.out := by rfl

@[simp] theorem setSess_dbgRestart (s : State) (k : Nat) (x : SessSt) :
    (State.setSess s k x).dbgRestart = s.dbgRestart := by rfl

@[simp] theorem setSess_draw (s : State) (k : Nat) (x : SessSt) :
    (State.setSess s k x).draw = s.draw := by rfl

@[simp] theorem setSess_pending (s : State) (k : Nat) (x : SessSt) :
    (State.setSess s k x).pending = s.pending := by rfl

@[simp] theorem modThmDie_fuses (s : State) (d : Nat) (f : ThmDie → ThmDie) :
    (State.modThmDie s d f).fuses = s.fuses := by rfl

@[simp] theorem modThmDie_pins (s : State) (d : Nat) (f : ThmDie → ThmDie) :
    (State.modThmDie s d f).pins = s.pins := by rfl

@[simp] theorem modThmDie_csr (s : State) (d : Nat) (f : ThmDie → ThmDie) :
    (State.modThmDie s d f).csr = s.csr := by rfl

@[simp] theorem modThmDie_cnt (s : State) (d : Nat) (f : ThmDie → ThmDie) :
    (State.modThmDie s d f).cnt = s.cnt := by rfl

@[simp] theorem modThmDie_cap (s : State) (d : Nat) (f : ThmDie → ThmDie) :
    (State.modThmDie s d f).cap = s.cap := by rfl

@[simp] theorem modThmDie_hub (s : State) (d : Nat) (f : ThmDie → ThmDie) :
    (State.modThmDie s d f).hub = s.hub := by rfl

@[simp] theorem modThmDie_mem (s : State) (d : Nat) (f : ThmDie → ThmDie) :
    (State.modThmDie s d f).mem = s.mem := by rfl

@[simp] theorem modThmDie_plates (s : State) (d : Nat) (f : ThmDie → ThmDie) :
    (State.modThmDie s d f).plates = s.plates := by rfl

@[simp] theorem modThmDie_plateCodes (s : State) (d : Nat) (f : ThmDie → ThmDie) :
    (State.modThmDie s d f).plateCodes = s.plateCodes := by rfl

@[simp] theorem modThmDie_sramCodes (s : State) (d : Nat) (f : ThmDie → ThmDie) :
    (State.modThmDie s d f).sramCodes = s.sramCodes := by rfl

@[simp] theorem modThmDie_flags (s : State) (d : Nat) (f : ThmDie → ThmDie) :
    (State.modThmDie s d f).flags = s.flags := by rfl

@[simp] theorem modThmDie_fpois (s : State) (d : Nat) (f : ThmDie → ThmDie) :
    (State.modThmDie s d f).fpois = s.fpois := by rfl

@[simp] theorem modThmDie_cores (s : State) (d : Nat) (f : ThmDie → ThmDie) :
    (State.modThmDie s d f).cores = s.cores := by rfl

@[simp] theorem modThmDie_cmds (s : State) (d : Nat) (f : ThmDie → ThmDie) :
    (State.modThmDie s d f).cmds = s.cmds := by rfl

@[simp] theorem modThmDie_nextCmd (s : State) (d : Nat) (f : ThmDie → ThmDie) :
    (State.modThmDie s d f).nextCmd = s.nextCmd := by rfl

@[simp] theorem modThmDie_aqts (s : State) (d : Nat) (f : ThmDie → ThmDie) :
    (State.modThmDie s d f).aqts = s.aqts := by rfl

@[simp] theorem modThmDie_net (s : State) (d : Nat) (f : ThmDie → ThmDie) :
    (State.modThmDie s d f).net = s.net := by rfl

@[simp] theorem modThmDie_coll (s : State) (d : Nat) (f : ThmDie → ThmDie) :
    (State.modThmDie s d f).coll = s.coll := by rfl

@[simp] theorem modThmDie_mbr (s : State) (d : Nat) (f : ThmDie → ThmDie) :
    (State.modThmDie s d f).mbr = s.mbr := by rfl

@[simp] theorem modThmDie_host (s : State) (d : Nat) (f : ThmDie → ThmDie) :
    (State.modThmDie s d f).host = s.host := by rfl

@[simp] theorem modThmDie_sec (s : State) (d : Nat) (f : ThmDie → ThmDie) :
    (State.modThmDie s d f).sec = s.sec := by rfl

@[simp] theorem modThmDie_lanes (s : State) (d : Nat) (f : ThmDie → ThmDie) :
    (State.modThmDie s d f).lanes = s.lanes := by rfl

@[simp] theorem modThmDie_rings (s : State) (d : Nat) (f : ThmDie → ThmDie) :
    (State.modThmDie s d f).rings = s.rings := by rfl

@[simp] theorem modThmDie_dies (s : State) (d : Nat) (f : ThmDie → ThmDie) :
    (State.modThmDie s d f).dies = s.dies := by rfl

@[simp] theorem modThmDie_alloc (s : State) (d : Nat) (f : ThmDie → ThmDie) :
    (State.modThmDie s d f).alloc = s.alloc := by rfl

@[simp] theorem modThmDie_time (s : State) (d : Nat) (f : ThmDie → ThmDie) :
    (State.modThmDie s d f).time = s.time := by rfl

@[simp] theorem modThmDie_tim (s : State) (d : Nat) (f : ThmDie → ThmDie) :
    (State.modThmDie s d f).tim = s.tim := by rfl

@[simp] theorem modThmDie_events (s : State) (d : Nat) (f : ThmDie → ThmDie) :
    (State.modThmDie s d f).events = s.events := by rfl

@[simp] theorem modThmDie_out (s : State) (d : Nat) (f : ThmDie → ThmDie) :
    (State.modThmDie s d f).out = s.out := by rfl

@[simp] theorem modThmDie_dbgRestart (s : State) (d : Nat) (f : ThmDie → ThmDie) :
    (State.modThmDie s d f).dbgRestart = s.dbgRestart := by rfl

@[simp] theorem modThmDie_draw (s : State) (d : Nat) (f : ThmDie → ThmDie) :
    (State.modThmDie s d f).draw = s.draw := by rfl

@[simp] theorem modThmDie_pending (s : State) (d : Nat) (f : ThmDie → ThmDie) :
    (State.modThmDie s d f).pending = s.pending := by rfl

@[simp] theorem setBank_fuses (s : State) (c a b : Nat) (x : Bank) :
    (State.setBank s c a b x).fuses = s.fuses := by simp [State.setBank]

@[simp] theorem setBank_pins (s : State) (c a b : Nat) (x : Bank) :
    (State.setBank s c a b x).pins = s.pins := by simp [State.setBank]

@[simp] theorem setBank_csr (s : State) (c a b : Nat) (x : Bank) :
    (State.setBank s c a b x).csr = s.csr := by simp [State.setBank]

@[simp] theorem setBank_cnt (s : State) (c a b : Nat) (x : Bank) :
    (State.setBank s c a b x).cnt = s.cnt := by simp [State.setBank]

@[simp] theorem setBank_cap (s : State) (c a b : Nat) (x : Bank) :
    (State.setBank s c a b x).cap = s.cap := by simp [State.setBank]

@[simp] theorem setBank_hub (s : State) (c a b : Nat) (x : Bank) :
    (State.setBank s c a b x).hub = s.hub := by simp [State.setBank]

@[simp] theorem setBank_mem (s : State) (c a b : Nat) (x : Bank) :
    (State.setBank s c a b x).mem = s.mem := by simp [State.setBank]

@[simp] theorem setBank_plates (s : State) (c a b : Nat) (x : Bank) :
    (State.setBank s c a b x).plates = s.plates := by simp [State.setBank]

@[simp] theorem setBank_plateCodes (s : State) (c a b : Nat) (x : Bank) :
    (State.setBank s c a b x).plateCodes = s.plateCodes := by simp [State.setBank]

@[simp] theorem setBank_sramCodes (s : State) (c a b : Nat) (x : Bank) :
    (State.setBank s c a b x).sramCodes = s.sramCodes := by simp [State.setBank]

@[simp] theorem setBank_flags (s : State) (c a b : Nat) (x : Bank) :
    (State.setBank s c a b x).flags = s.flags := by simp [State.setBank]

@[simp] theorem setBank_fpois (s : State) (c a b : Nat) (x : Bank) :
    (State.setBank s c a b x).fpois = s.fpois := by simp [State.setBank]

@[simp] theorem setBank_cmds (s : State) (c a b : Nat) (x : Bank) :
    (State.setBank s c a b x).cmds = s.cmds := by simp [State.setBank]

@[simp] theorem setBank_nextCmd (s : State) (c a b : Nat) (x : Bank) :
    (State.setBank s c a b x).nextCmd = s.nextCmd := by simp [State.setBank]

@[simp] theorem setBank_aqts (s : State) (c a b : Nat) (x : Bank) :
    (State.setBank s c a b x).aqts = s.aqts := by simp [State.setBank]

@[simp] theorem setBank_net (s : State) (c a b : Nat) (x : Bank) :
    (State.setBank s c a b x).net = s.net := by simp [State.setBank]

@[simp] theorem setBank_coll (s : State) (c a b : Nat) (x : Bank) :
    (State.setBank s c a b x).coll = s.coll := by simp [State.setBank]

@[simp] theorem setBank_mbr (s : State) (c a b : Nat) (x : Bank) :
    (State.setBank s c a b x).mbr = s.mbr := by simp [State.setBank]

@[simp] theorem setBank_host (s : State) (c a b : Nat) (x : Bank) :
    (State.setBank s c a b x).host = s.host := by simp [State.setBank]

@[simp] theorem setBank_sec (s : State) (c a b : Nat) (x : Bank) :
    (State.setBank s c a b x).sec = s.sec := by simp [State.setBank]

@[simp] theorem setBank_lanes (s : State) (c a b : Nat) (x : Bank) :
    (State.setBank s c a b x).lanes = s.lanes := by simp [State.setBank]

@[simp] theorem setBank_rings (s : State) (c a b : Nat) (x : Bank) :
    (State.setBank s c a b x).rings = s.rings := by simp [State.setBank]

@[simp] theorem setBank_dies (s : State) (c a b : Nat) (x : Bank) :
    (State.setBank s c a b x).dies = s.dies := by simp [State.setBank]

@[simp] theorem setBank_alloc (s : State) (c a b : Nat) (x : Bank) :
    (State.setBank s c a b x).alloc = s.alloc := by simp [State.setBank]

@[simp] theorem setBank_time (s : State) (c a b : Nat) (x : Bank) :
    (State.setBank s c a b x).time = s.time := by simp [State.setBank]

@[simp] theorem setBank_tim (s : State) (c a b : Nat) (x : Bank) :
    (State.setBank s c a b x).tim = s.tim := by simp [State.setBank]

@[simp] theorem setBank_thm (s : State) (c a b : Nat) (x : Bank) :
    (State.setBank s c a b x).thm = s.thm := by simp [State.setBank]

@[simp] theorem setBank_events (s : State) (c a b : Nat) (x : Bank) :
    (State.setBank s c a b x).events = s.events := by simp [State.setBank]

@[simp] theorem setBank_out (s : State) (c a b : Nat) (x : Bank) :
    (State.setBank s c a b x).out = s.out := by simp [State.setBank]

@[simp] theorem setBank_dbgRestart (s : State) (c a b : Nat) (x : Bank) :
    (State.setBank s c a b x).dbgRestart = s.dbgRestart := by simp [State.setBank]

@[simp] theorem setBank_draw (s : State) (c a b : Nat) (x : Bank) :
    (State.setBank s c a b x).draw = s.draw := by simp [State.setBank]

@[simp] theorem setBank_pending (s : State) (c a b : Nat) (x : Bank) :
    (State.setBank s c a b x).pending = s.pending := by simp [State.setBank]

@[simp] theorem putCw_fuses (s : State) (a : Nat) (data : List Nat) (pois : Bool) (e : SMap Nat) :
    (State.putCw s a data pois e).fuses = s.fuses := by simp [State.putCw]

@[simp] theorem putCw_pins (s : State) (a : Nat) (data : List Nat) (pois : Bool) (e : SMap Nat) :
    (State.putCw s a data pois e).pins = s.pins := by simp [State.putCw]

@[simp] theorem putCw_csr (s : State) (a : Nat) (data : List Nat) (pois : Bool) (e : SMap Nat) :
    (State.putCw s a data pois e).csr = s.csr := by simp [State.putCw]

@[simp] theorem putCw_cnt (s : State) (a : Nat) (data : List Nat) (pois : Bool) (e : SMap Nat) :
    (State.putCw s a data pois e).cnt = s.cnt := by simp [State.putCw]

@[simp] theorem putCw_cap (s : State) (a : Nat) (data : List Nat) (pois : Bool) (e : SMap Nat) :
    (State.putCw s a data pois e).cap = s.cap := by simp [State.putCw]

@[simp] theorem putCw_hub (s : State) (a : Nat) (data : List Nat) (pois : Bool) (e : SMap Nat) :
    (State.putCw s a data pois e).hub = s.hub := by simp [State.putCw]

@[simp] theorem putCw_plates (s : State) (a : Nat) (data : List Nat) (pois : Bool) (e : SMap Nat) :
    (State.putCw s a data pois e).plates = s.plates := by simp [State.putCw]

@[simp] theorem putCw_flags (s : State) (a : Nat) (data : List Nat) (pois : Bool) (e : SMap Nat) :
    (State.putCw s a data pois e).flags = s.flags := by simp [State.putCw]

@[simp] theorem putCw_fpois (s : State) (a : Nat) (data : List Nat) (pois : Bool) (e : SMap Nat) :
    (State.putCw s a data pois e).fpois = s.fpois := by simp [State.putCw]

@[simp] theorem putCw_cores (s : State) (a : Nat) (data : List Nat) (pois : Bool) (e : SMap Nat) :
    (State.putCw s a data pois e).cores = s.cores := by simp [State.putCw]

@[simp] theorem putCw_cmds (s : State) (a : Nat) (data : List Nat) (pois : Bool) (e : SMap Nat) :
    (State.putCw s a data pois e).cmds = s.cmds := by simp [State.putCw]

@[simp] theorem putCw_nextCmd (s : State) (a : Nat) (data : List Nat) (pois : Bool) (e : SMap Nat) :
    (State.putCw s a data pois e).nextCmd = s.nextCmd := by simp [State.putCw]

@[simp] theorem putCw_aqts (s : State) (a : Nat) (data : List Nat) (pois : Bool) (e : SMap Nat) :
    (State.putCw s a data pois e).aqts = s.aqts := by simp [State.putCw]

@[simp] theorem putCw_net (s : State) (a : Nat) (data : List Nat) (pois : Bool) (e : SMap Nat) :
    (State.putCw s a data pois e).net = s.net := by simp [State.putCw]

@[simp] theorem putCw_coll (s : State) (a : Nat) (data : List Nat) (pois : Bool) (e : SMap Nat) :
    (State.putCw s a data pois e).coll = s.coll := by simp [State.putCw]

@[simp] theorem putCw_mbr (s : State) (a : Nat) (data : List Nat) (pois : Bool) (e : SMap Nat) :
    (State.putCw s a data pois e).mbr = s.mbr := by simp [State.putCw]

@[simp] theorem putCw_host (s : State) (a : Nat) (data : List Nat) (pois : Bool) (e : SMap Nat) :
    (State.putCw s a data pois e).host = s.host := by simp [State.putCw]

@[simp] theorem putCw_sec (s : State) (a : Nat) (data : List Nat) (pois : Bool) (e : SMap Nat) :
    (State.putCw s a data pois e).sec = s.sec := by simp [State.putCw]

@[simp] theorem putCw_lanes (s : State) (a : Nat) (data : List Nat) (pois : Bool) (e : SMap Nat) :
    (State.putCw s a data pois e).lanes = s.lanes := by simp [State.putCw]

@[simp] theorem putCw_rings (s : State) (a : Nat) (data : List Nat) (pois : Bool) (e : SMap Nat) :
    (State.putCw s a data pois e).rings = s.rings := by simp [State.putCw]

@[simp] theorem putCw_dies (s : State) (a : Nat) (data : List Nat) (pois : Bool) (e : SMap Nat) :
    (State.putCw s a data pois e).dies = s.dies := by simp [State.putCw]

@[simp] theorem putCw_alloc (s : State) (a : Nat) (data : List Nat) (pois : Bool) (e : SMap Nat) :
    (State.putCw s a data pois e).alloc = s.alloc := by simp [State.putCw]

@[simp] theorem putCw_time (s : State) (a : Nat) (data : List Nat) (pois : Bool) (e : SMap Nat) :
    (State.putCw s a data pois e).time = s.time := by simp [State.putCw]

@[simp] theorem putCw_tim (s : State) (a : Nat) (data : List Nat) (pois : Bool) (e : SMap Nat) :
    (State.putCw s a data pois e).tim = s.tim := by simp [State.putCw]

@[simp] theorem putCw_thm (s : State) (a : Nat) (data : List Nat) (pois : Bool) (e : SMap Nat) :
    (State.putCw s a data pois e).thm = s.thm := by simp [State.putCw]

@[simp] theorem putCw_events (s : State) (a : Nat) (data : List Nat) (pois : Bool) (e : SMap Nat) :
    (State.putCw s a data pois e).events = s.events := by simp [State.putCw]

@[simp] theorem putCw_out (s : State) (a : Nat) (data : List Nat) (pois : Bool) (e : SMap Nat) :
    (State.putCw s a data pois e).out = s.out := by simp [State.putCw]

@[simp] theorem putCw_dbgRestart (s : State) (a : Nat) (data : List Nat) (pois : Bool) (e : SMap Nat) :
    (State.putCw s a data pois e).dbgRestart = s.dbgRestart := by simp [State.putCw]

@[simp] theorem putCw_draw (s : State) (a : Nat) (data : List Nat) (pois : Bool) (e : SMap Nat) :
    (State.putCw s a data pois e).draw = s.draw := by simp [State.putCw]

@[simp] theorem putCw_pending (s : State) (a : Nat) (data : List Nat) (pois : Bool) (e : SMap Nat) :
    (State.putCw s a data pois e).pending = s.pending := by simp [State.putCw]

end Sys2Proof.Machine
end

