-- ==== Sys2Proof/Laws/Regs.lean ====
section
/-!
SUPPORT. What a register, a field, a counter, a flag and each record of the state reads as after an update, and that an error
occurrence leaves every register but three of its page's head as it was.
-/

namespace Sys2Proof.Machine

/-! ### Bit fields -/

theorem getLsbD_putBits {w : Nat} (x : BitVec w) (hi lo v i : Nat) :
    (putBits x hi lo v).getLsbD i =
      if lo ≤ i ∧ i ≤ hi then decide (i < w) && v.testBit (i - lo) else x.getLsbD i := by
  simp only [putBits, fieldMask, BitVec.getLsbD_or, BitVec.getLsbD_and, BitVec.getLsbD_not, BitVec.getLsbD_ofNat,
    Nat.testBit_shiftLeft, Nat.testBit_two_pow_sub_one]
  by_cases h1 : i < w
  · by_cases h2 : lo ≤ i <;> by_cases h3 : i ≤ hi
    · have : i - lo < hi + 1 - lo := by omega
      simp [h1, h2, h3, this]
    · have : ¬ i - lo < hi + 1 - lo := by omega
      simp [h1, h2, h3, this]
    · simp [h1, h2]
    · simp [h1, h2]
  · have hx : x.getLsbD i = false := BitVec.getLsbD_of_ge x i (by omega)
    simp [h1, hx]

theorem testBit_natBits (n hi lo i : Nat) : (natBits n hi lo).testBit i = (decide (i < hi + 1 - lo) && n.testBit (lo + i)) := by
  simp [natBits, Nat.testBit_mod_two_pow, Nat.testBit_shiftRight]

/-- The field just written. -/
theorem bits_putBits_same {w : Nat} (x : BitVec w) (hi lo v : Nat) (h : hi < w) (hl : lo ≤ hi) :
    bits (putBits x hi lo v) hi lo = v % 2 ^ (hi + 1 - lo) := by
  apply Nat.eq_of_testBit_eq
  intro i
  simp only [bits, testBit_natBits, Nat.testBit_mod_two_pow, BitVec.testBit_toNat, getLsbD_putBits]
  by_cases hi' : i < hi + 1 - lo
  · have h1 : lo ≤ lo + i ∧ lo + i ≤ hi := by omega
    have h2 : lo + i < w := by omega
    simp [hi', h1, h2]
  · simp [hi']

/-- A field apart from the one written. -/
theorem bits_putBits_other {w : Nat} (x : BitVec w) {hi lo v h l : Nat} (hd : h < lo ∨ hi < l) :
    bits (putBits x hi lo v) h l = bits x h l := by
  apply Nat.eq_of_testBit_eq
  intro i
  simp only [bits, testBit_natBits, BitVec.testBit_toNat, getLsbD_putBits]
  by_cases hi' : i < h + 1 - l
  · have h1 : ¬ (lo ≤ l + i ∧ l + i ≤ hi) := by omega
    simp [h1]
  · simp [hi']

/-! ### Registers -/

theorem reg_setReg_self (s : State) (page off : Nat) (w : Word) : (s.setReg page off w).reg page off = w := by
  unfold State.reg State.setReg
  split <;> simp_all

theorem reg_setReg_other {s : State} {page off p o : Nat} {w : Word} (h : regKey page off ≠ regKey p o) :
    (s.setReg page off w).reg p o = s.reg p o := by
  unfold State.reg
  rw [setReg_fuses]
  unfold State.setReg
  split <;> simp [smFind_smErase, smFind_smInsert, h]

/-- A field is well placed in its word. -/
def Fld.ok (f : Fld) : Bool := decide (f.hi < 32) && decide (f.lo ≤ f.hi)

theorem fld_setFld_self {s : State} {page : Nat} {f : Fld} {v : Nat} (h : f.ok = true) :
    (s.setFld page f v).fld page f = v % 2 ^ (f.hi + 1 - f.lo) := by
  simp only [Fld.ok, Bool.and_eq_true, decide_eq_true_eq] at h
  simp only [State.fld, State.setFld, reg_setReg_self]
  exact bits_putBits_same _ _ _ _ h.1 h.2

/-- Another register. -/
theorem fld_setFld_other {s : State} {page p : Nat} {f g : Fld} {v : Nat} (h : regKey page f.off ≠ regKey p g.off) :
    (s.setFld page f v).fld p g = s.fld p g := by
  simp only [State.fld, State.setFld, reg_setReg_other h]

/-- Another field of the same register. -/
theorem fld_setFld_beside {s : State} {page : Nat} {f g : Fld} {v : Nat} (ho : f.off = g.off) (h : g.hi < f.lo ∨ f.hi < g.lo) :
    (s.setFld page f v).fld page g = s.fld page g := by
  simp only [State.fld, State.setFld, ← ho, reg_setReg_self]
  exact bits_putBits_other _ h

theorem reg_setFld_other {s : State} {page p o : Nat} {f : Fld} {v : Nat} (h : regKey page f.off ≠ regKey p o) :
    (s.setFld page f v).reg p o = s.reg p o := by
  simp only [State.setFld, reg_setReg_other h]

/-- A state whose registers and fuses are the same reads the same. -/
theorem reg_congr {s t : State} (h1 : t.csr = s.csr) (h2 : t.fuses = s.fuses) (p o : Nat) : t.reg p o = s.reg p o := by
  simp only [State.reg, h1, h2]

theorem fld_congr {s t : State} (h1 : t.csr = s.csr) (h2 : t.fuses = s.fuses) (p : Nat) (f : Fld) : t.fld p f = s.fld p f := by
  simp only [State.fld, reg_congr h1 h2]

theorem flag_congr {s t : State} (h1 : t.csr = s.csr) (h2 : t.fuses = s.fuses) (p : Nat) (f : Fld) : t.flag p f = s.flag p f := by
  simp only [State.flag, fld_congr h1 h2]

/-! ### Counters -/

theorem counter_bumpBy_self (s : State) (page i n : Nat) :
    (s.bumpBy page i n).counter page i = s.counter page i + BitVec.ofNat 64 n := by
  simp [State.bumpBy, State.setCounter, State.counter]

theorem counter_bump_self (s : State) (page i : Nat) : (s.bump page i).counter page i = s.counter page i + 1 := by
  simp [State.bump, counter_bumpBy_self]

theorem counter_bumpBy_other {s : State} {page i n p j : Nat} (h : 8 * page + i ≠ 8 * p + j) :
    (s.bumpBy page i n).counter p j = s.counter p j := by
  simp [State.bumpBy, State.setCounter, State.counter, smGet_smSet_ne h]

theorem counter_bump_other {s : State} {page i p j : Nat} (h : 8 * page + i ≠ 8 * p + j) :
    (s.bump page i).counter p j = s.counter p j := counter_bumpBy_other h

theorem counter_congr {s t : State} (h : t.cnt = s.cnt) (p i : Nat) : t.counter p i = s.counter p i := by
  simp only [State.counter, h]

/-! ### Records -/

@[simp] theorem core_setCore_self (s : State) (c : Nat) (x : CoreSt) : (s.setCore c x).core c = x := by
  simp [State.core, State.setCore]

@[simp] theorem core_modCore_self (s : State) (c : Nat) (f : CoreSt → CoreSt) : (s.modCore c f).core c = f (s.core c) := by
  simp [State.modCore]

theorem core_setCore_other {s : State} {c d : Nat} {x : CoreSt} (h : c ≠ d) : (s.setCore c x).core d = s.core d := by
  simp [State.core, State.setCore, smGet_smSet_ne h]

@[simp] theorem plate_setPlate_self (s : State) (k : Nat) (x : PlateSt) : (s.setPlate k x).plate k = x := by
  simp [State.plate, State.setPlate]

@[simp] theorem lane_setLane_self (s : State) (k : Nat) (x : LaneSt) : (s.setLane k x).lane k = x := by
  simp [State.lane, State.setLane]

@[simp] theorem lane_modLane_self (s : State) (k : Nat) (f : LaneSt → LaneSt) : (s.modLane k f).lane k = f (s.lane k) := by
  simp [State.modLane]

@[simp] theorem ring_modRing_self (s : State) (d f r : Nat) (g : RingSt → RingSt) :
    (s.modRing d f r g).ring d f r = g (s.ring d f r) := by
  simp [State.modRing, State.ring, State.setRing]

@[simp] theorem die_modDie_self (s : State) (d : Nat) (f : DieSt → DieSt) : (s.modDie d f).die d = f (s.die d) := by
  simp [State.modDie, State.die, State.setDie]

@[simp] theorem aqt_modAqt_self (s : State) (e : Nat) (f : AqtSt → AqtSt) : (s.modAqt e f).aqt e = f (s.aqt e) := by
  simp [State.modAqt, State.aqt, State.setAqt]

@[simp] theorem link_modLink_self (s : State) (l : Nat) (f : LinkSt → LinkSt) : (s.modLink l f).link l = f (s.link l) := by
  simp [State.modLink, State.link, State.setLink]

/-! ### Error occurrences -/

/-- The head words an occurrence may write. -/
def errKey (page : Nat) : List Nat := [regKey page 0x020, regKey page 0x02C, regKey page 0x030]

theorem reg_recordErr {s : State} {page src cls detail p o : Nat} (h : regKey p o ∉ errKey page) :
    (recordErr s page src cls detail).2.reg p o = s.reg p o := by
  simp only [errKey, List.mem_cons, List.not_mem_nil, or_false, not_or] at h
  unfold recordErr
  split
  · have h2 : ERR_FIRST_MCOUNT.off = 0x02C := rfl
    rw [reg_setReg_other (Ne.symm h.2.2), reg_setFld_other (by rw [h2]; exact Ne.symm h.2.1)]
  · exact reg_setReg_other (Ne.symm h.2.1)

/-- An occurrence changes no register outside its page's head. -/
theorem reg_errOcc {s : State} {page src detail p o : Nat} (h : regKey p o ∉ errKey page) :
    (errOcc s page src detail).reg p o = s.reg p o := by
  have h0 : regKey page 0x020 ≠ regKey p o := by
    simp only [errKey, List.mem_cons, not_or] at h; exact Ne.symm h.1
  unfold errOcc
  split
  · rfl
  split
  · rfl
  dsimp only
  split
  · exact reg_setReg_other h0
  rename_i cls chk latch hsrc hmask
  have h1 := reg_recordErr (s := { s.setReg page 0x020 (s.reg page 0x020 ||| BitVec.ofNat 32 (2 ^ src)) with
      hub := { (s.setReg page 0x020 (s.reg page 0x020 ||| BitVec.ofNat 32 (2 ^ src))).hub with
        arrived := smInsert (s.setReg page 0x020 (s.reg page 0x020 ||| BitVec.ofNat 32 (2 ^ src))).hub.arrived page () } })
    (src := src) (cls := cls) (detail := detail) h
  replace h1 := h1.trans ((reg_congr (s := s.setReg page 0x020 (s.reg page 0x020 ||| BitVec.ofNat 32 (2 ^ src))) rfl rfl p o).trans
    (reg_setReg_other h0))
  generalize recordErr _ page src cls detail = x at h1 ⊢
  obtain ⟨merged, u⟩ := x
  dsimp only at h1 ⊢
  repeat' split
  all_goals exact (reg_congr (by simp) (by simp) p o).trans h1

/-- An occurrence of a source its page has sets the source's bit of ERR_STAT. -/
theorem stat_errOcc {s : State} {page src detail i : Nat} {t : PageType} {x : Nat × Bool × Bool}
    (hp : pageOf s.fuses.part page = some (t, i)) (hx : sourceOf t src = some x) (h32 : src < 32) :
    bitAt ((errOcc s page src detail).reg page 0x020) src = true := by
  have hbit : bitAt (s.reg page 0x020 ||| BitVec.ofNat 32 (2 ^ src)) src = true := by
    rw [bitAt, BitVec.getLsbD_or, BitVec.getLsbD_ofNat, Nat.testBit_two_pow_self]
    simp [h32]
  have hk1 : regKey page 0x02C ≠ regKey page 0x020 := by simp [regKey]
  have hk2 : regKey page 0x030 ≠ regKey page 0x020 := by simp [regKey]
  have hrec : ∀ (u : State) (cls d : Nat), (recordErr u page src cls d).2.reg page 0x020 = u.reg page 0x020 := by
    intro u cls d
    unfold recordErr
    split
    · have h2 : ERR_FIRST_MCOUNT.off = 0x02C := rfl
      rw [reg_setReg_other hk2, reg_setFld_other (by rw [h2]; exact hk1)]
    · exact reg_setReg_other hk1
  obtain ⟨cls, chk, latch⟩ := x
  unfold errOcc
  simp only [hp, hx]
  split
  · rw [reg_setReg_self]; exact hbit
  · have h1 := hrec { s.setReg page 0x020 (s.reg page 0x020 ||| BitVec.ofNat 32 (2 ^ src)) with
      hub := { (s.setReg page 0x020 (s.reg page 0x020 ||| BitVec.ofNat 32 (2 ^ src))).hub with
        arrived := smInsert (s.setReg page 0x020 (s.reg page 0x020 ||| BitVec.ofNat 32 (2 ^ src))).hub.arrived page () } } cls detail
    replace h1 := h1.trans ((reg_congr (s := s.setReg page 0x020 (s.reg page 0x020 ||| BitVec.ofNat 32 (2 ^ src))) rfl rfl page 0x020).trans
      (reg_setReg_self _ _ _ _))
    generalize recordErr _ page src cls detail = y at h1 ⊢
    obtain ⟨merged, u⟩ := y
    dsimp only at h1 ⊢
    rw [← h1] at hbit
    repeat' split
    all_goals exact (congrArg (fun w => bitAt w src) (reg_congr (by simp) (by simp) page 0x020)).trans hbit

theorem pageOf_core (p : Part) {n : Nat} (h : n < 0x4800) : pageOf p n = (coreType (n % 8)).map (fun t => (t, n / 8)) :=
  if_pos h

theorem pageOf_grv (p : Part) {c : Nat} (h : c < 2304) : pageOf p (pgGrv c) = some (.grv, c) := by
  rw [pgGrv, pageOf_core p (by omega), Nat.mul_mod_right, Nat.mul_div_right c (by decide)]; rfl

theorem fld_errOcc {s : State} {page src detail p : Nat} {f : Fld} (h : regKey p f.off ∉ errKey page) :
    (errOcc s page src detail).fld p f = s.fld p f := by
  simp only [State.fld, reg_errOcc h]

theorem flag_errOcc {s : State} {page src detail p : Nat} {f : Fld} (h : regKey p f.off ∉ errKey page) :
    (errOcc s page src detail).flag p f = s.flag p f := by
  simp only [State.flag, fld_errOcc h]

end Sys2Proof.Machine
end

