-- ==== Sys2Proof/Laws/Steady.lean ====
section
/-!
SUPPORT. What every operation of the model keeps, as one property of a state: memory, counters and flags are in canonical form, the queue
of waiting commands is a given one, and the fuses are given ones but for the version fuses, the only ones a device burns (R30,
R502). The files after this one show it of each operation, so that claims about a whole command cite one lemma.
-/

namespace Sys2Proof.Machine

/-- What is held fixed: the queue of waiting commands and the fuses, and for the commands that never store, memory and flags. -/
structure Kept where
  pending : List Instr
  fuses : Fuses
  /-- memory, where it is held -/
  mem : Option Memory
  /-- flags and their poison bits, where they are held -/
  flags : Option (SMap Word × SMap Unit)

/-- The fuses less the version fuses. -/
def Fuses.frozen (f : Fuses) : Fuses := { f with svnMin := 0, svnBurnt := 0 }

/-- The stores are canonical, and queue and fuses are those of `kp`. -/
structure Steady (kp : Kept) (s : State) : Prop where
  mem : Memory.wf s.mem = true
  cnt : smWf 0 s.cnt = true
  flags : smWf 0 s.flags = true
  pending : s.pending = kp.pending
  fuses : s.fuses.frozen = kp.fuses
  memIs : ∀ m, kp.mem = some m → s.mem = m
  flagsAre : ∀ x, kp.flags = some x → (s.flags, s.fpois) = x

variable {kp : Kept} {α β : Type}

/-- An update of other fields. -/
theorem steady_upd {s : State} {s1 s2 s4 s5 s7 s8 s9 s12 s13 s14 s15 s16 s17 s18 s19 s20 s21 s22 s23 s24 s25 s26 s27 s28 s29 s30
    s31} :
    Steady kp ⟨s.fuses, s1, s2, s.cnt, s4, s5, s.mem, s7, s8, s9, s.flags, s.fpois, s12, s13, s14, s15, s16, s17, s18, s19, s20, s21,
      s22, s23, s24, s25, s26, s27, s28, s29, s30, s31, s.pending⟩ ↔ Steady kp s :=
  ⟨fun h => ⟨h.mem, h.cnt, h.flags, h.pending, h.fuses, h.memIs, h.flagsAre⟩,
    fun h => ⟨h.mem, h.cnt, h.flags, h.pending, h.fuses, h.memIs, h.flagsAre⟩⟩

/-- A store to memory with an update of other fields. -/
theorem steady_store (nm : kp.mem = none) {s : State} {a bs s1 s2 s4 s5 s7 s8 s9 s12 s13 s14 s15 s16 s17 s18 s19 s20 s21 s22 s23 s24
    s25 s26 s27 s28 s29 s30 s31} (h : Steady kp s) :
    Steady kp ⟨s.fuses, s1, s2, s.cnt, s4, s5, memStore s.mem a bs, s7, s8, s9, s.flags, s.fpois, s12, s13, s14, s15, s16, s17, s18,
      s19, s20, s21, s22, s23, s24, s25, s26, s27, s28, s29, s30, s31, s.pending⟩ :=
  ⟨memory_wf_memStore h.mem _ _, h.cnt, h.flags, h.pending, h.fuses, fun m hm => by simp [nm] at hm, h.flagsAre⟩

theorem Steady.ite {c : Prop} [Decidable c] {s t : State} (hs : Steady kp s) (ht : Steady kp t) :
    Steady kp (if c then s else t) := by split <;> assumption

theorem Steady.ite_snd {c : Prop} [Decidable c] {s t : α × State} (hs : Steady kp s.2) (ht : Steady kp t.2) :
    Steady kp (if c then s else t).2 := by split <;> assumption

theorem Steady.of_pair {x : α × State} {a : α} {t : State} (e : x = (a, t)) (h : Steady kp x.2) : Steady kp t := by
  subst e; exact h

theorem Steady.of_pair_fst {x : State × α} {a : α} {t : State} (e : x = (t, a)) (h : Steady kp x.1) : Steady kp t := by
  subst e; exact h

theorem Steady.of_triple {x : α × β × State} {a : α} {b : β} {t : State} (e : x = (a, b, t)) (h : Steady kp x.2.2) : Steady kp t := by
  subst e; exact h

theorem Steady.of_some {x : Option State} {t : State} (e : x = some t) (h : ∀ u, x = some u → Steady kp u) : Steady kp t := h t e

theorem Steady.of_some_pair {x : Option (α × State)} {a : α} {t : State} (e : x = some (a, t))
    (h : ∀ u, x = some u → Steady kp u.2) : Steady kp t := h (a, t) e

theorem Steady.of_some_quad {γ : Type} {x : Option (α × β × γ × State)} {a : α} {b : β} {c : γ} {t : State}
    (e : x = some (a, b, c, t)) (h : ∀ u, x = some u → Steady kp u.2.2.2) : Steady kp t := h (a, b, c, t) e

theorem foldl_steady {f : State → β → State} (hf : ∀ s a, Steady kp s → Steady kp (f s a)) {s : State} (h : Steady kp s) (l : List β) :
    Steady kp (l.foldl f s) := by
  induction l generalizing s with
  | nil => exact h
  | cons a l ih => exact ih (hf s a h)

theorem foldl_steady_snd {f : α × State → β → α × State} (hf : ∀ x a, Steady kp x.2 → Steady kp (f x a).2) {x : α × State}
    (h : Steady kp x.2) (l : List β) : Steady kp (l.foldl f x).2 := by
  induction l generalizing x with
  | nil => exact h
  | cons a l ih => exact ih (hf x a h)

theorem foldl_steady_fst {f : State × α → β → State × α} (hf : ∀ x a, Steady kp x.1 → Steady kp (f x a).1) {x : State × α}
    (h : Steady kp x.1) (l : List β) : Steady kp (l.foldl f x).1 := by
  induction l generalizing x with
  | nil => exact h
  | cons a l ih => exact ih (hf x a h)

theorem foldl_steady_snd_snd {γ : Type} {f : α × γ × State → β → α × γ × State} (hf : ∀ x a, Steady kp x.2.2 → Steady kp (f x a).2.2)
    {x : α × γ × State} (h : Steady kp x.2.2) (l : List β) : Steady kp (l.foldl f x).2.2 := by
  induction l generalizing x with
  | nil => exact h
  | cons a l ih => exact ih (hf x a h)

theorem option_elim_steady {o : Option α} {s : State} {f : α → State} (h : Steady kp s) (hf : ∀ a, Steady kp (f a)) :
    Steady kp (o.elim s f) := by cases o <;> simp_all

end Sys2Proof.Machine
end

