-- ==== Sys2Proof/Laws/SteadyRegs.lean ====
section
/-!
SUPPORT. Every operation of Machine/Regs.lean keeps what Laws/Steady.lean names.
-/

set_option linter.unusedTactic false
set_option linter.unreachableTactic false
set_option linter.unusedVariables false

namespace Sys2Proof.Machine

variable {kp : Kept}

theorem setReg_steady {s : State} (page off : Nat) (w : Word) (hh0 : Steady kp s) :
    Steady kp (State.setReg s page off w) := by
  unfold State.setReg
  repeat' (first
    | with_reducible assumption
    | with_reducible apply hh0
    | with_reducible refine Steady.ite ?_ ?_
    | with_reducible refine Steady.ite_snd ?_ ?_
    | ((try lift_lets -underBinder); intro s1; (refine (fun (h2 : Steady kp s1) => ?_) (?_ : Steady kp s1)) <;> [clear_value s1; subst s1])
    | ((try lift_lets -underBinder); intro s1; (refine (fun (h2 : Steady kp s1.2) => ?_) (?_ : Steady kp s1.2)) <;> [clear_value s1; subst s1])
    | ((try lift_lets -underBinder); intro s1)
    | simp -zeta only [steady_upd]
    | (split <;> try first | (refine (fun (h2 : Steady kp _) => ?_) (Steady.of_pair (by assumption) ?_)) | (refine (fun (h2 : Steady kp _) => ?_) (Steady.of_pair_fst (by assumption) ?_)) | (refine (fun (h2 : Steady kp _) => ?_) (Steady.of_triple (by assumption) ?_)) | (refine (fun (h2 : Steady kp _) => ?_) (Steady.of_some_pair (by assumption) ?_)) | (refine (fun (h2 : Steady kp _) => ?_) (Steady.of_some_quad (by assumption) ?_)) | (refine (fun (h2 : Steady kp _) => ?_) (Steady.of_some (by assumption) ?_)))
    | clear_value *)

theorem setFld_steady {s : State} (page : Nat) (f : Fld) (v : Nat) (hh0 : Steady kp s) :
    Steady kp (State.setFld s page f v) := by
  unfold State.setFld
  repeat' (first
    | with_reducible assumption
    | with_reducible apply hh0
    | with_reducible apply setReg_steady
    | with_reducible refine Steady.ite ?_ ?_
    | with_reducible refine Steady.ite_snd ?_ ?_
    | ((try lift_lets -underBinder); intro s1; (refine (fun (h2 : Steady kp s1) => ?_) (?_ : Steady kp s1)) <;> [clear_value s1; subst s1])
    | ((try lift_lets -underBinder); intro s1; (refine (fun (h2 : Steady kp s1.2) => ?_) (?_ : Steady kp s1.2)) <;> [clear_value s1; subst s1])
    | ((try lift_lets -underBinder); intro s1)
    | simp -zeta only [steady_upd]
    | (split <;> try first | (refine (fun (h2 : Steady kp _) => ?_) (Steady.of_pair (by assumption) ?_)) | (refine (fun (h2 : Steady kp _) => ?_) (Steady.of_pair_fst (by assumption) ?_)) | (refine (fun (h2 : Steady kp _) => ?_) (Steady.of_triple (by assumption) ?_)) | (refine (fun (h2 : Steady kp _) => ?_) (Steady.of_some_pair (by assumption) ?_)) | (refine (fun (h2 : Steady kp _) => ?_) (Steady.of_some_quad (by assumption) ?_)) | (refine (fun (h2 : Steady kp _) => ?_) (Steady.of_some (by assumption) ?_)))
    | clear_value *)

theorem setFlds_steady {s : State} (page : Nat) (l : List (Fld × Nat)) (hh0 : Steady kp s) :
    Steady kp (State.setFlds s page l) := by
  unfold State.setFlds
  repeat' (first
    | with_reducible assumption
    | with_reducible apply hh0
    | with_reducible apply setFld_steady
    | (with_reducible refine foldl_steady ?_ ?_ _)
    | (with_reducible refine foldl_steady_snd ?_ ?_ _)
    | (with_reducible refine foldl_steady_fst ?_ ?_ _)
    | (with_reducible refine foldl_steady_snd_snd ?_ ?_ _)
    | with_reducible refine Steady.ite ?_ ?_
    | with_reducible refine Steady.ite_snd ?_ ?_
    | (intro s1 a1 (h1 : Steady kp _); beta_reduce)
    | (intro s1 (h1 : Steady kp _); beta_reduce)
    | ((try lift_lets -underBinder); intro s1; (refine (fun (h2 : Steady kp s1) => ?_) (?_ : Steady kp s1)) <;> [clear_value s1; subst s1])
    | ((try lift_lets -underBinder); intro s1; (refine (fun (h2 : Steady kp s1.2) => ?_) (?_ : Steady kp s1.2)) <;> [clear_value s1; subst s1])
    | ((try lift_lets -underBinder); intro s1)
    | simp -zeta only [steady_upd]
    | (split <;> try first | (refine (fun (h2 : Steady kp _) => ?_) (Steady.of_pair (by assumption) ?_)) | (refine (fun (h2 : Steady kp _) => ?_) (Steady.of_pair_fst (by assumption) ?_)) | (refine (fun (h2 : Steady kp _) => ?_) (Steady.of_triple (by assumption) ?_)) | (refine (fun (h2 : Steady kp _) => ?_) (Steady.of_some_pair (by assumption) ?_)) | (refine (fun (h2 : Steady kp _) => ?_) (Steady.of_some_quad (by assumption) ?_)) | (refine (fun (h2 : Steady kp _) => ?_) (Steady.of_some (by assumption) ?_)))
    | clear_value *)

theorem setCounter_steady {s : State} (page i : Nat) (v : DWord) (h : Steady kp s) : Steady kp (s.setCounter page i v) :=
  ⟨h.mem, smWf_smSet h.cnt _ _, h.flags, h.pending, h.fuses, h.memIs, h.flagsAre⟩

theorem bumpBy_steady {s : State} (page i n : Nat) (hh0 : Steady kp s) :
    Steady kp (State.bumpBy s page i n) := by
  unfold State.bumpBy
  repeat' (first
    | with_reducible assumption
    | with_reducible apply hh0
    | with_reducible apply setCounter_steady
    | with_reducible refine Steady.ite ?_ ?_
    | with_reducible refine Steady.ite_snd ?_ ?_
    | ((try lift_lets -underBinder); intro s1; (refine (fun (h2 : Steady kp s1) => ?_) (?_ : Steady kp s1)) <;> [clear_value s1; subst s1])
    | ((try lift_lets -underBinder); intro s1; (refine (fun (h2 : Steady kp s1.2) => ?_) (?_ : Steady kp s1.2)) <;> [clear_value s1; subst s1])
    | ((try lift_lets -underBinder); intro s1)
    | simp -zeta only [steady_upd]
    | (split <;> try first | (refine (fun (h2 : Steady kp _) => ?_) (Steady.of_pair (by assumption) ?_)) | (refine (fun (h2 : Steady kp _) => ?_) (Steady.of_pair_fst (by assumption) ?_)) | (refine (fun (h2 : Steady kp _) => ?_) (Steady.of_triple (by assumption) ?_)) | (refine (fun (h2 : Steady kp _) => ?_) (Steady.of_some_pair (by assumption) ?_)) | (refine (fun (h2 : Steady kp _) => ?_) (Steady.of_some_quad (by assumption) ?_)) | (refine (fun (h2 : Steady kp _) => ?_) (Steady.of_some (by assumption) ?_)))
    | clear_value *)

theorem bump_steady {s : State} (page i : Nat) (hh0 : Steady kp s) :
    Steady kp (State.bump s page i) := by
  unfold State.bump
  repeat' (first
    | with_reducible assumption
    | with_reducible apply hh0
    | with_reducible apply bumpBy_steady
    | with_reducible refine Steady.ite ?_ ?_
    | with_reducible refine Steady.ite_snd ?_ ?_
    | ((try lift_lets -underBinder); intro s1; (refine (fun (h2 : Steady kp s1) => ?_) (?_ : Steady kp s1)) <;> [clear_value s1; subst s1])
    | ((try lift_lets -underBinder); intro s1; (refine (fun (h2 : Steady kp s1.2) => ?_) (?_ : Steady kp s1.2)) <;> [clear_value s1; subst s1])
    | ((try lift_lets -underBinder); intro s1)
    | simp -zeta only [steady_upd]
    | (split <;> try first | (refine (fun (h2 : Steady kp _) => ?_) (Steady.of_pair (by assumption) ?_)) | (refine (fun (h2 : Steady kp _) => ?_) (Steady.of_pair_fst (by assumption) ?_)) | (refine (fun (h2 : Steady kp _) => ?_) (Steady.of_triple (by assumption) ?_)) | (refine (fun (h2 : Steady kp _) => ?_) (Steady.of_some_pair (by assumption) ?_)) | (refine (fun (h2 : Steady kp _) => ?_) (Steady.of_some_quad (by assumption) ?_)) | (refine (fun (h2 : Steady kp _) => ?_) (Steady.of_some (by assumption) ?_)))
    | clear_value *)

theorem dropPages_steady {s : State} (p : Nat → Bool) (h : Steady kp s) : Steady kp (s.dropPages p) :=
  ⟨h.mem, smWf_filter _ h.cnt, h.flags, h.pending, h.fuses, h.memIs, h.flagsAre⟩

theorem noteReject_steady {s : State} (page off : Nat) (locked : Bool) (hh0 : Steady kp s) :
    Steady kp (State.noteReject s page off locked) := by
  unfold State.noteReject
  repeat' (first
    | with_reducible assumption
    | with_reducible apply hh0
    | with_reducible apply setFld_steady
    | with_reducible refine Steady.ite ?_ ?_
    | with_reducible refine Steady.ite_snd ?_ ?_
    | ((try lift_lets -underBinder); intro s1; (refine (fun (h2 : Steady kp s1) => ?_) (?_ : Steady kp s1)) <;> [clear_value s1; subst s1])
    | ((try lift_lets -underBinder); intro s1; (refine (fun (h2 : Steady kp s1.2) => ?_) (?_ : Steady kp s1.2)) <;> [clear_value s1; subst s1])
    | ((try lift_lets -underBinder); intro s1)
    | simp -zeta only [steady_upd]
    | (split <;> try first | (refine (fun (h2 : Steady kp _) => ?_) (Steady.of_pair (by assumption) ?_)) | (refine (fun (h2 : Steady kp _) => ?_) (Steady.of_pair_fst (by assumption) ?_)) | (refine (fun (h2 : Steady kp _) => ?_) (Steady.of_triple (by assumption) ?_)) | (refine (fun (h2 : Steady kp _) => ?_) (Steady.of_some_pair (by assumption) ?_)) | (refine (fun (h2 : Steady kp _) => ?_) (Steady.of_some_quad (by assumption) ?_)) | (refine (fun (h2 : Steady kp _) => ?_) (Steady.of_some (by assumption) ?_)))
    | clear_value *)

theorem freeNat_steady {s : State} (m : Nat) (hh0 : Steady kp s) :
    Steady kp (State.freeNat s m).2 := by
  unfold State.freeNat
  repeat' (first
    | with_reducible assumption
    | with_reducible apply hh0
    | with_reducible refine Steady.ite ?_ ?_
    | with_reducible refine Steady.ite_snd ?_ ?_
    | ((try lift_lets -underBinder); intro s1; (refine (fun (h2 : Steady kp s1) => ?_) (?_ : Steady kp s1)) <;> [clear_value s1; subst s1])
    | ((try lift_lets -underBinder); intro s1; (refine (fun (h2 : Steady kp s1.2) => ?_) (?_ : Steady kp s1.2)) <;> [clear_value s1; subst s1])
    | ((try lift_lets -underBinder); intro s1)
    | simp -zeta only [steady_upd]
    | (split <;> try first | (refine (fun (h2 : Steady kp _) => ?_) (Steady.of_pair (by assumption) ?_)) | (refine (fun (h2 : Steady kp _) => ?_) (Steady.of_pair_fst (by assumption) ?_)) | (refine (fun (h2 : Steady kp _) => ?_) (Steady.of_triple (by assumption) ?_)) | (refine (fun (h2 : Steady kp _) => ?_) (Steady.of_some_pair (by assumption) ?_)) | (refine (fun (h2 : Steady kp _) => ?_) (Steady.of_some_quad (by assumption) ?_)) | (refine (fun (h2 : Steady kp _) => ?_) (Steady.of_some (by assumption) ?_)))
    | clear_value *)

end Sys2Proof.Machine
end

