-- ==== Sys2Proof/Laws/SteadyErrors.lean ====
section
/-!
SUPPORT. Every operation of Machine/Errors.lean keeps what Laws/Steady.lean names.
-/

set_option linter.unusedTactic false
set_option linter.unreachableTactic false
set_option linter.unusedVariables false

namespace Sys2Proof.Machine

variable {kp : Kept}

theorem powered_steady {f : State → State} {s : State} (hf : Steady kp (f s)) (h : Steady kp s) : Steady kp (powered f s) := by
  unfold powered; split <;> assumption

theorem setCore_steady {s : State} (c : Nat) (x : CoreSt) (hh0 : Steady kp s) :
    Steady kp (State.setCore s c x) := by
  unfold State.setCore
  repeat' (first
    | with_reducible assumption
    | with_reducible apply hh0
    | with_reducible refine Steady.ite ?_ ?_
    | with_reducible refine Steady.ite_snd ?_ ?_
    | ((try lift_lets -underBinder); intro s1; (refine (fun (h2 : Steady kp s1) => ?_) (?_ : Steady kp s1)) <;> [clear_value s1; subst s1])
    | ((try lift_lets -underBinder); intro s1; (refine (fun (h2 : Steady kp s1.2) => ?_) (?_ : Steady kp s1.2)) <;> [clear_value s1; subst s1])
    | ((try lift_lets -underBinder); intro s1)
    | simp -zeta only [steady_upd]
    | (split <;> try first | (refine (fun (h2 : Steady kp _) => ?_) (Steady.of_pair (by assumption) ?_)) | (refine (fun (h2 : Steady kp _) => ?_) (Steady.of_pair_fst (by assumption) ?_)) | (refine (fun (h2 : Steady kp _) => ?_) (Steady.of_triple (by assumption) ?_)) | (refine (fun (h2 : Steady kp _) => ?_) (Steady.of_some_pair (by assumption) ?_)) | (refine (fun (h2 : Steady kp _) => ?_) (Steady.of_some_quad (by assumption) ?_)) | (refine (fun (h2 : Steady kp _) => ?_) (Steady.of_some (by assumption) ?_)))
    | clear_value *)

theorem modCore_steady {s : State} (c : Nat) (f : CoreSt → CoreSt) (hh0 : Steady kp s) :
    Steady kp (State.modCore s c f) := by
  unfold State.modCore
  repeat' (first
    | with_reducible assumption
    | with_reducible apply hh0
    | with_reducible apply setCore_steady
    | with_reducible refine Steady.ite ?_ ?_
    | with_reducible refine Steady.ite_snd ?_ ?_
    | ((try lift_lets -underBinder); intro s1; (refine (fun (h2 : Steady kp s1) => ?_) (?_ : Steady kp s1)) <;> [clear_value s1; subst s1])
    | ((try lift_lets -underBinder); intro s1; (refine (fun (h2 : Steady kp s1.2) => ?_) (?_ : Steady kp s1.2)) <;> [clear_value s1; subst s1])
    | ((try lift_lets -underBinder); intro s1)
    | simp -zeta only [steady_upd]
    | (split <;> try first | (refine (fun (h2 : Steady kp _) => ?_) (Steady.of_pair (by assumption) ?_)) | (refine (fun (h2 : Steady kp _) => ?_) (Steady.of_pair_fst (by assumption) ?_)) | (refine (fun (h2 : Steady kp _) => ?_) (Steady.of_triple (by assumption) ?_)) | (refine (fun (h2 : Steady kp _) => ?_) (Steady.of_some_pair (by assumption) ?_)) | (refine (fun (h2 : Steady kp _) => ?_) (Steady.of_some_quad (by assumption) ?_)) | (refine (fun (h2 : Steady kp _) => ?_) (Steady.of_some (by assumption) ?_)))
    | clear_value *)

theorem recordErr_steady {s : State} (page src cls detail : Nat) (hh0 : Steady kp s) :
    Steady kp (recordErr s page src cls detail).2 := by
  unfold recordErr
  repeat' (first
    | with_reducible assumption
    | with_reducible apply hh0
    | with_reducible apply setFld_steady
    | with_reducible apply setReg_steady
    | with_reducible refine Steady.ite ?_ ?_
    | with_reducible refine Steady.ite_snd ?_ ?_
    | ((try lift_lets -underBinder); intro s1; (refine (fun (h2 : Steady kp s1) => ?_) (?_ : Steady kp s1)) <;> [clear_value s1; subst s1])
    | ((try lift_lets -underBinder); intro s1; (refine (fun (h2 : Steady kp s1.2) => ?_) (?_ : Steady kp s1.2)) <;> [clear_value s1; subst s1])
    | ((try lift_lets -underBinder); intro s1)
    | simp -zeta only [steady_upd]
    | (split <;> try first | (refine (fun (h2 : Steady kp _) => ?_) (Steady.of_pair (by assumption) ?_)) | (refine (fun (h2 : Steady kp _) => ?_) (Steady.of_pair_fst (by assumption) ?_)) | (refine (fun (h2 : Steady kp _) => ?_) (Steady.of_triple (by assumption) ?_)) | (refine (fun (h2 : Steady kp _) => ?_) (Steady.of_some_pair (by assumption) ?_)) | (refine (fun (h2 : Steady kp _) => ?_) (Steady.of_some_quad (by assumption) ?_)) | (refine (fun (h2 : Steady kp _) => ?_) (Steady.of_some (by assumption) ?_)))
    | clear_value *)

theorem errOcc_steady {s : State} (page src detail : Nat) (hh0 : Steady kp s) :
    Steady kp (errOcc s page src detail) := by
  unfold errOcc
  repeat' (first
    | with_reducible assumption
    | with_reducible apply hh0
    | with_reducible apply bump_steady
    | with_reducible apply setReg_steady
    | with_reducible apply recordErr_steady
    | with_reducible refine Steady.ite ?_ ?_
    | with_reducible refine Steady.ite_snd ?_ ?_
    | ((try lift_lets -underBinder); intro s1; (refine (fun (h2 : Steady kp s1) => ?_) (?_ : Steady kp s1)) <;> [clear_value s1; subst s1])
    | ((try lift_lets -underBinder); intro s1; (refine (fun (h2 : Steady kp s1.2) => ?_) (?_ : Steady kp s1.2)) <;> [clear_value s1; subst s1])
    | ((try lift_lets -underBinder); intro s1)
    | simp -zeta only [steady_upd]
    | (split <;> try first | (refine (fun (h2 : Steady kp _) => ?_) (Steady.of_pair (by assumption) ?_)) | (refine (fun (h2 : Steady kp _) => ?_) (Steady.of_pair_fst (by assumption) ?_)) | (refine (fun (h2 : Steady kp _) => ?_) (Steady.of_triple (by assumption) ?_)) | (refine (fun (h2 : Steady kp _) => ?_) (Steady.of_some_pair (by assumption) ?_)) | (refine (fun (h2 : Steady kp _) => ?_) (Steady.of_some_quad (by assumption) ?_)) | (refine (fun (h2 : Steady kp _) => ?_) (Steady.of_some (by assumption) ?_)))
    | clear_value *)

theorem inPageOrder_steady {s t : State} (hh0 : Steady kp s) (hh1 : Steady kp t) :
    Steady kp (inPageOrder s t) := by
  unfold inPageOrder
  repeat' (first
    | with_reducible assumption
    | with_reducible apply hh0
    | with_reducible apply hh1
    | with_reducible refine Steady.ite ?_ ?_
    | with_reducible refine Steady.ite_snd ?_ ?_
    | (intro s1 a1 (h1 : Steady kp _); beta_reduce)
    | (intro s1 (h1 : Steady kp _); beta_reduce)
    | ((try lift_lets -underBinder); intro s1; (refine (fun (h2 : Steady kp s1) => ?_) (?_ : Steady kp s1)) <;> [clear_value s1; subst s1])
    | ((try lift_lets -underBinder); intro s1; (refine (fun (h2 : Steady kp s1.2) => ?_) (?_ : Steady kp s1.2)) <;> [clear_value s1; subst s1])
    | ((try lift_lets -underBinder); intro s1)
    | simp -zeta only [steady_upd]
    | (split <;> try first | (refine (fun (h2 : Steady kp _) => ?_) (Steady.of_pair (by assumption) ?_)) | (refine (fun (h2 : Steady kp _) => ?_) (Steady.of_pair_fst (by assumption) ?_)) | (refine (fun (h2 : Steady kp _) => ?_) (Steady.of_triple (by assumption) ?_)) | (refine (fun (h2 : Steady kp _) => ?_) (Steady.of_some_pair (by assumption) ?_)) | (refine (fun (h2 : Steady kp _) => ?_) (Steady.of_some_quad (by assumption) ?_)) | (refine (fun (h2 : Steady kp _) => ?_) (Steady.of_some (by assumption) ?_)))
    | clear_value *)

theorem queueEvent_steady {s : State} (e : HostEvent) (hh0 : Steady kp s) :
    Steady kp (queueEvent s e) := by
  unfold queueEvent
  repeat' (first
    | with_reducible assumption
    | with_reducible apply hh0
    | with_reducible apply bump_steady
    | with_reducible apply errOcc_steady
    | with_reducible refine Steady.ite ?_ ?_
    | with_reducible refine Steady.ite_snd ?_ ?_
    | (intro s1 a1 (h1 : Steady kp _); beta_reduce)
    | (intro s1 (h1 : Steady kp _); beta_reduce)
    | ((try lift_lets -underBinder); intro s1; (refine (fun (h2 : Steady kp s1) => ?_) (?_ : Steady kp s1)) <;> [clear_value s1; subst s1])
    | ((try lift_lets -underBinder); intro s1; (refine (fun (h2 : Steady kp s1.2) => ?_) (?_ : Steady kp s1.2)) <;> [clear_value s1; subst s1])
    | ((try lift_lets -underBinder); intro s1)
    | simp -zeta only [steady_upd]
    | (split <;> try first | (refine (fun (h2 : Steady kp _) => ?_) (Steady.of_pair (by assumption) ?_)) | (refine (fun (h2 : Steady kp _) => ?_) (Steady.of_pair_fst (by assumption) ?_)) | (refine (fun (h2 : Steady kp _) => ?_) (Steady.of_triple (by assumption) ?_)) | (refine (fun (h2 : Steady kp _) => ?_) (Steady.of_some_pair (by assumption) ?_)) | (refine (fun (h2 : Steady kp _) => ?_) (Steady.of_some_quad (by assumption) ?_)) | (refine (fun (h2 : Steady kp _) => ?_) (Steady.of_some (by assumption) ?_)))
    | clear_value *)

end Sys2Proof.Machine
end

