-- ==== Sys2Proof/Laws/SteadyMem.lean ====
section
/-!
SUPPORT. Every operation of Machine/Mem.lean keeps what Laws/Steady.lean names.
-/

set_option linter.unusedTactic false
set_option linter.unreachableTactic false
set_option linter.unusedVariables false

namespace Sys2Proof.Machine

variable {kp : Kept}

theorem takeInjection_steady {s : State} (page : Nat) (srcs : List Nat) (hh0 : Steady kp s) :
    Steady kp (takeInjection s page srcs).2 := by
  unfold takeInjection
  repeat' (first
    | with_reducible assumption
    | with_reducible apply hh0
    | with_reducible apply setFld_steady
    | with_reducible refine Steady.ite ?_ ?_
    | with_reducible refine Steady.ite_snd ?_ ?_
    | ((try lift_lets -underBinder); intro s1; (refine (fun (h2 : Steady kp s1) => ?_) (?_ : Steady kp s1)) <;> [clear_value s1; subst s1])
    | ((try lift_lets -underBinder); intro s1; (refine (fun (h2 : Steady kp s1.2) => ?_) (?_ : Steady kp s1.2)) <;> [clear_value s1; subst s1])
    | ((try lift_lets -underBinder); intro s1)
    | simp -zeta only [steady_upd]
    | (split <;> try first | (refine (fun (h2 : Steady kp _) => ?_) (Steady.of_pair (by assumption) ?_)) | (refine (fun (h2 : Steady kp _) => ?_) (Steady.of_pair_fst (by assumption) ?_)) | (refine (fun (h2 : Steady kp _) => ?_) (Steady.of_triple (by assumption) ?_)) | (refine (fun (h2 : Steady kp _) => ?_) (Steady.of_some_pair (by assumption) ?_)) | (refine (fun (h2 : Steady kp _) => ?_) (Steady.of_some_quad (by assumption) ?_)) | (refine (fun (h2 : Steady kp _) => ?_) (Steady.of_some (by assumption) ?_)))
    | clear_value *)

theorem takeCrcInjection_steady {s : State} (page : Nat) (src : Nat) (hh0 : Steady kp s) :
    Steady kp (takeCrcInjection s page src).2 := by
  unfold takeCrcInjection
  repeat' (first
    | with_reducible assumption
    | with_reducible apply hh0
    | with_reducible apply takeInjection_steady
    | with_reducible refine Steady.ite ?_ ?_
    | with_reducible refine Steady.ite_snd ?_ ?_
    | ((try lift_lets -underBinder); intro s1; (refine (fun (h2 : Steady kp s1) => ?_) (?_ : Steady kp s1)) <;> [clear_value s1; subst s1])
    | ((try lift_lets -underBinder); intro s1; (refine (fun (h2 : Steady kp s1.2) => ?_) (?_ : Steady kp s1.2)) <;> [clear_value s1; subst s1])
    | ((try lift_lets -underBinder); intro s1)
    | simp -zeta only [steady_upd]
    | (split <;> try first | (refine (fun (h2 : Steady kp _) => ?_) (Steady.of_pair (by assumption) ?_)) | (refine (fun (h2 : Steady kp _) => ?_) (Steady.of_pair_fst (by assumption) ?_)) | (refine (fun (h2 : Steady kp _) => ?_) (Steady.of_triple (by assumption) ?_)) | (refine (fun (h2 : Steady kp _) => ?_) (Steady.of_some_pair (by assumption) ?_)) | (refine (fun (h2 : Steady kp _) => ?_) (Steady.of_some_quad (by assumption) ?_)) | (refine (fun (h2 : Steady kp _) => ?_) (Steady.of_some (by assumption) ?_)))
    | clear_value *)

theorem coreChecker_steady {s : State} (src c inst : Nat) (hh0 : Steady kp s) :
    Steady kp (coreChecker s src c inst) := by
  unfold coreChecker
  repeat' (first
    | with_reducible assumption
    | with_reducible apply hh0
    | with_reducible apply errOcc_steady
    | with_reducible apply takeCrcInjection_steady
    | with_reducible refine Steady.ite ?_ ?_
    | with_reducible refine Steady.ite_snd ?_ ?_
    | ((try lift_lets -underBinder); intro s1; (refine (fun (h2 : Steady kp s1) => ?_) (?_ : Steady kp s1)) <;> [clear_value s1; subst s1])
    | ((try lift_lets -underBinder); intro s1; (refine (fun (h2 : Steady kp s1.2) => ?_) (?_ : Steady kp s1.2)) <;> [clear_value s1; subst s1])
    | ((try lift_lets -underBinder); intro s1)
    | simp -zeta only [steady_upd]
    | (split <;> try first | (refine (fun (h2 : Steady kp _) => ?_) (Steady.of_pair (by assumption) ?_)) | (refine (fun (h2 : Steady kp _) => ?_) (Steady.of_pair_fst (by assumption) ?_)) | (refine (fun (h2 : Steady kp _) => ?_) (Steady.of_triple (by assumption) ?_)) | (refine (fun (h2 : Steady kp _) => ?_) (Steady.of_some_pair (by assumption) ?_)) | (refine (fun (h2 : Steady kp _) => ?_) (Steady.of_some_quad (by assumption) ?_)) | (refine (fun (h2 : Steady kp _) => ?_) (Steady.of_some (by assumption) ?_)))
    | clear_value *)

theorem dieBridge_steady {s : State} (a b : Nat) (hh0 : Steady kp s) :
    Steady kp (dieBridge s a b).2 := by
  unfold dieBridge
  repeat' (first
    | with_reducible assumption
    | with_reducible apply hh0
    | with_reducible apply freeNat_steady
    | with_reducible refine Steady.ite ?_ ?_
    | with_reducible refine Steady.ite_snd ?_ ?_
    | ((try lift_lets -underBinder); intro s1; (refine (fun (h2 : Steady kp s1) => ?_) (?_ : Steady kp s1)) <;> [clear_value s1; subst s1])
    | ((try lift_lets -underBinder); intro s1; (refine (fun (h2 : Steady kp s1.2) => ?_) (?_ : Steady kp s1.2)) <;> [clear_value s1; subst s1])
    | ((try lift_lets -underBinder); intro s1)
    | simp -zeta only [steady_upd]
    | (split <;> try first | (refine (fun (h2 : Steady kp _) => ?_) (Steady.of_pair (by assumption) ?_)) | (refine (fun (h2 : Steady kp _) => ?_) (Steady.of_pair_fst (by assumption) ?_)) | (refine (fun (h2 : Steady kp _) => ?_) (Steady.of_triple (by assumption) ?_)) | (refine (fun (h2 : Steady kp _) => ?_) (Steady.of_some_pair (by assumption) ?_)) | (refine (fun (h2 : Steady kp _) => ?_) (Steady.of_some_quad (by assumption) ?_)) | (refine (fun (h2 : Steady kp _) => ?_) (Steady.of_some (by assumption) ?_)))
    | clear_value *)

theorem meshChecker_steady (c : Nat) {s : State} (a : Nat) (hh0 : Steady kp s) :
    Steady kp (meshChecker c s a) := by
  unfold meshChecker
  repeat' (first
    | with_reducible assumption
    | with_reducible apply hh0
    | with_reducible apply dieBridge_steady
    | with_reducible apply errOcc_steady
    | with_reducible apply takeCrcInjection_steady
    | with_reducible refine Steady.ite ?_ ?_
    | with_reducible refine Steady.ite_snd ?_ ?_
    | ((try lift_lets -underBinder); intro s1; (refine (fun (h2 : Steady kp s1) => ?_) (?_ : Steady kp s1)) <;> [clear_value s1; subst s1])
    | ((try lift_lets -underBinder); intro s1; (refine (fun (h2 : Steady kp s1.2) => ?_) (?_ : Steady kp s1.2)) <;> [clear_value s1; subst s1])
    | ((try lift_lets -underBinder); intro s1)
    | simp -zeta only [steady_upd]
    | (split <;> try first | (refine (fun (h2 : Steady kp _) => ?_) (Steady.of_pair (by assumption) ?_)) | (refine (fun (h2 : Steady kp _) => ?_) (Steady.of_pair_fst (by assumption) ?_)) | (refine (fun (h2 : Steady kp _) => ?_) (Steady.of_triple (by assumption) ?_)) | (refine (fun (h2 : Steady kp _) => ?_) (Steady.of_some_pair (by assumption) ?_)) | (refine (fun (h2 : Steady kp _) => ?_) (Steady.of_some_quad (by assumption) ?_)) | (refine (fun (h2 : Steady kp _) => ?_) (Steady.of_some (by assumption) ?_)))
    | clear_value *)

theorem setPlate_steady {s : State} (k : Nat) (p : PlateSt) (hh0 : Steady kp s) :
    Steady kp (State.setPlate s k p) := by
  unfold State.setPlate
  repeat' (first
    | with_reducible assumption
    | with_reducible apply hh0
    | with_reducible refine Steady.ite ?_ ?_
    | with_reducible refine Steady.ite_snd ?_ ?_
    | ((try lift_lets -underBinder); intro s1; (refine (fun (h2 : Steady kp s1) => ?_) (?_ : Steady kp s1)) <;> [clear_value s1; subst s1])
    | ((try lift_lets -underBinder); intro s1; (refine (fun (h2 : Steady kp s1.2) => ?_) (?_ : Steady kp s1.2)) <;> [clear_value s1; subst s1])
    | ((try lift_lets -underBinder); intro s1)
    | simp -zeta only [steady_upd]
    | (split <;> try first | (refine (fun (h2 : Steady kp _) => ?_) (Steady.of_pair (by assumption) ?_)) | (refine (fun (h2 : Steady kp _) => ?_) (Steady.of_pair_fst (by assumption) ?_)) | (refine (fun (h2 : Steady kp _) => ?_) (Steady.of_triple (by assumption) ?_)) | (refine (fun (h2 : Steady kp _) => ?_) (Steady.of_some_pair (by assumption) ?_)) | (refine (fun (h2 : Steady kp _) => ?_) (Steady.of_some_quad (by assumption) ?_)) | (refine (fun (h2 : Steady kp _) => ?_) (Steady.of_some (by assumption) ?_)))
    | clear_value *)

theorem losePlate_steady {s : State} (k src ch : Nat) (hh0 : Steady kp s) :
    Steady kp (losePlate s k src ch) := by
  unfold losePlate
  repeat' (first
    | with_reducible assumption
    | with_reducible apply hh0
    | with_reducible apply setFlds_steady
    | with_reducible apply setPlate_steady
    | with_reducible apply errOcc_steady
    | with_reducible refine Steady.ite ?_ ?_
    | with_reducible refine Steady.ite_snd ?_ ?_
    | ((try lift_lets -underBinder); intro s1; (refine (fun (h2 : Steady kp s1) => ?_) (?_ : Steady kp s1)) <;> [clear_value s1; subst s1])
    | ((try lift_lets -underBinder); intro s1; (refine (fun (h2 : Steady kp s1.2) => ?_) (?_ : Steady kp s1.2)) <;> [clear_value s1; subst s1])
    | ((try lift_lets -underBinder); intro s1)
    | simp -zeta only [steady_upd]
    | (split <;> try first | (refine (fun (h2 : Steady kp _) => ?_) (Steady.of_pair (by assumption) ?_)) | (refine (fun (h2 : Steady kp _) => ?_) (Steady.of_pair_fst (by assumption) ?_)) | (refine (fun (h2 : Steady kp _) => ?_) (Steady.of_triple (by assumption) ?_)) | (refine (fun (h2 : Steady kp _) => ?_) (Steady.of_some_pair (by assumption) ?_)) | (refine (fun (h2 : Steady kp _) => ?_) (Steady.of_some_quad (by assumption) ?_)) | (refine (fun (h2 : Steady kp _) => ?_) (Steady.of_some (by assumption) ?_)))
    | clear_value *)

theorem plateErrLoc_steady {s : State} (k a nsym sym : Nat) (hh0 : Steady kp s) :
    Steady kp (plateErrLoc s k a nsym sym) := by
  unfold plateErrLoc
  repeat' (first
    | with_reducible assumption
    | with_reducible apply hh0
    | with_reducible apply setFlds_steady
    | with_reducible refine Steady.ite ?_ ?_
    | with_reducible refine Steady.ite_snd ?_ ?_
    | ((try lift_lets -underBinder); intro s1; (refine (fun (h2 : Steady kp s1) => ?_) (?_ : Steady kp s1)) <;> [clear_value s1; subst s1])
    | ((try lift_lets -underBinder); intro s1; (refine (fun (h2 : Steady kp s1.2) => ?_) (?_ : Steady kp s1.2)) <;> [clear_value s1; subst s1])
    | ((try lift_lets -underBinder); intro s1)
    | simp -zeta only [steady_upd]
    | (split <;> try first | (refine (fun (h2 : Steady kp _) => ?_) (Steady.of_pair (by assumption) ?_)) | (refine (fun (h2 : Steady kp _) => ?_) (Steady.of_pair_fst (by assumption) ?_)) | (refine (fun (h2 : Steady kp _) => ?_) (Steady.of_triple (by assumption) ?_)) | (refine (fun (h2 : Steady kp _) => ?_) (Steady.of_some_pair (by assumption) ?_)) | (refine (fun (h2 : Steady kp _) => ?_) (Steady.of_some_quad (by assumption) ?_)) | (refine (fun (h2 : Steady kp _) => ?_) (Steady.of_some (by assumption) ?_)))
    | clear_value *)

theorem sramErrLoc_steady {s : State} (c a nsym sym : Nat) (hh0 : Steady kp s) :
    Steady kp (sramErrLoc s c a nsym sym) := by
  unfold sramErrLoc
  repeat' (first
    | with_reducible assumption
    | with_reducible apply hh0
    | with_reducible apply setFlds_steady
    | with_reducible refine Steady.ite ?_ ?_
    | with_reducible refine Steady.ite_snd ?_ ?_
    | ((try lift_lets -underBinder); intro s1; (refine (fun (h2 : Steady kp s1) => ?_) (?_ : Steady kp s1)) <;> [clear_value s1; subst s1])
    | ((try lift_lets -underBinder); intro s1; (refine (fun (h2 : Steady kp s1.2) => ?_) (?_ : Steady kp s1.2)) <;> [clear_value s1; subst s1])
    | ((try lift_lets -underBinder); intro s1)
    | simp -zeta only [steady_upd]
    | (split <;> try first | (refine (fun (h2 : Steady kp _) => ?_) (Steady.of_pair (by assumption) ?_)) | (refine (fun (h2 : Steady kp _) => ?_) (Steady.of_pair_fst (by assumption) ?_)) | (refine (fun (h2 : Steady kp _) => ?_) (Steady.of_triple (by assumption) ?_)) | (refine (fun (h2 : Steady kp _) => ?_) (Steady.of_some_pair (by assumption) ?_)) | (refine (fun (h2 : Steady kp _) => ?_) (Steady.of_some_quad (by assumption) ?_)) | (refine (fun (h2 : Steady kp _) => ?_) (Steady.of_some (by assumption) ?_)))
    | clear_value *)

theorem countLane_steady {s : State} (k a sym : Nat) (hh0 : Steady kp s) :
    Steady kp (countLane s k a sym) := by
  unfold countLane
  repeat' (first
    | with_reducible assumption
    | with_reducible apply hh0
    | with_reducible apply setPlate_steady
    | with_reducible apply losePlate_steady
    | with_reducible refine Steady.ite ?_ ?_
    | with_reducible refine Steady.ite_snd ?_ ?_
    | ((try lift_lets -underBinder); intro s1; (refine (fun (h2 : Steady kp s1) => ?_) (?_ : Steady kp s1)) <;> [clear_value s1; subst s1])
    | ((try lift_lets -underBinder); intro s1; (refine (fun (h2 : Steady kp s1.2) => ?_) (?_ : Steady kp s1.2)) <;> [clear_value s1; subst s1])
    | ((try lift_lets -underBinder); intro s1)
    | simp -zeta only [steady_upd]
    | (split <;> try first | (refine (fun (h2 : Steady kp _) => ?_) (Steady.of_pair (by assumption) ?_)) | (refine (fun (h2 : Steady kp _) => ?_) (Steady.of_pair_fst (by assumption) ?_)) | (refine (fun (h2 : Steady kp _) => ?_) (Steady.of_triple (by assumption) ?_)) | (refine (fun (h2 : Steady kp _) => ?_) (Steady.of_some_pair (by assumption) ?_)) | (refine (fun (h2 : Steady kp _) => ?_) (Steady.of_some_quad (by assumption) ?_)) | (refine (fun (h2 : Steady kp _) => ?_) (Steady.of_some (by assumption) ?_)))
    | clear_value *)

theorem openRow_steady {s : State} (g : Nat) (hh0 : Steady kp s) :
    Steady kp (openRow s g) := by
  unfold openRow
  repeat' (first
    | with_reducible assumption
    | with_reducible apply hh0
    | with_reducible apply bump_steady
    | with_reducible apply setPlate_steady
    | with_reducible refine Steady.ite ?_ ?_
    | with_reducible refine Steady.ite_snd ?_ ?_
    | ((try lift_lets -underBinder); intro s1; (refine (fun (h2 : Steady kp s1) => ?_) (?_ : Steady kp s1)) <;> [clear_value s1; subst s1])
    | ((try lift_lets -underBinder); intro s1; (refine (fun (h2 : Steady kp s1.2) => ?_) (?_ : Steady kp s1.2)) <;> [clear_value s1; subst s1])
    | ((try lift_lets -underBinder); intro s1)
    | simp -zeta only [steady_upd]
    | (split <;> try first | (refine (fun (h2 : Steady kp _) => ?_) (Steady.of_pair (by assumption) ?_)) | (refine (fun (h2 : Steady kp _) => ?_) (Steady.of_pair_fst (by assumption) ?_)) | (refine (fun (h2 : Steady kp _) => ?_) (Steady.of_triple (by assumption) ?_)) | (refine (fun (h2 : Steady kp _) => ?_) (Steady.of_some_pair (by assumption) ?_)) | (refine (fun (h2 : Steady kp _) => ?_) (Steady.of_some_quad (by assumption) ?_)) | (refine (fun (h2 : Steady kp _) => ?_) (Steady.of_some (by assumption) ?_)))
    | clear_value *)

theorem wakePlate_steady {s : State} (k : Nat) (hh0 : Steady kp s) :
    Steady kp (wakePlate s k) := by
  unfold wakePlate
  repeat' (first
    | with_reducible assumption
    | with_reducible apply hh0
    | with_reducible apply setPlate_steady
    | with_reducible refine Steady.ite ?_ ?_
    | with_reducible refine Steady.ite_snd ?_ ?_
    | ((try lift_lets -underBinder); intro s1; (refine (fun (h2 : Steady kp s1) => ?_) (?_ : Steady kp s1)) <;> [clear_value s1; subst s1])
    | ((try lift_lets -underBinder); intro s1; (refine (fun (h2 : Steady kp s1.2) => ?_) (?_ : Steady kp s1.2)) <;> [clear_value s1; subst s1])
    | ((try lift_lets -underBinder); intro s1)
    | simp -zeta only [steady_upd]
    | (split <;> try first | (refine (fun (h2 : Steady kp _) => ?_) (Steady.of_pair (by assumption) ?_)) | (refine (fun (h2 : Steady kp _) => ?_) (Steady.of_pair_fst (by assumption) ?_)) | (refine (fun (h2 : Steady kp _) => ?_) (Steady.of_triple (by assumption) ?_)) | (refine (fun (h2 : Steady kp _) => ?_) (Steady.of_some_pair (by assumption) ?_)) | (refine (fun (h2 : Steady kp _) => ?_) (Steady.of_some_quad (by assumption) ?_)) | (refine (fun (h2 : Steady kp _) => ?_) (Steady.of_some (by assumption) ?_)))
    | clear_value *)

theorem awaitPlate_steady {s : State} (k : Nat) (hh0 : Steady kp s) :
    Steady kp (awaitPlate s k) := by
  unfold awaitPlate
  repeat' (first
    | with_reducible assumption
    | with_reducible apply hh0
    | with_reducible apply setFld_steady
    | with_reducible apply setPlate_steady
    | with_reducible refine Steady.ite ?_ ?_
    | with_reducible refine Steady.ite_snd ?_ ?_
    | ((try lift_lets -underBinder); intro s1; (refine (fun (h2 : Steady kp s1) => ?_) (?_ : Steady kp s1)) <;> [clear_value s1; subst s1])
    | ((try lift_lets -underBinder); intro s1; (refine (fun (h2 : Steady kp s1.2) => ?_) (?_ : Steady kp s1.2)) <;> [clear_value s1; subst s1])
    | ((try lift_lets -underBinder); intro s1)
    | simp -zeta only [steady_upd]
    | (split <;> try first | (refine (fun (h2 : Steady kp _) => ?_) (Steady.of_pair (by assumption) ?_)) | (refine (fun (h2 : Steady kp _) => ?_) (Steady.of_pair_fst (by assumption) ?_)) | (refine (fun (h2 : Steady kp _) => ?_) (Steady.of_triple (by assumption) ?_)) | (refine (fun (h2 : Steady kp _) => ?_) (Steady.of_some_pair (by assumption) ?_)) | (refine (fun (h2 : Steady kp _) => ?_) (Steady.of_some_quad (by assumption) ?_)) | (refine (fun (h2 : Steady kp _) => ?_) (Steady.of_some (by assumption) ?_)))
    | clear_value *)

theorem readGranule_steady {s : State} (g : Nat) (hh0 : Steady kp s) :
    Steady kp (readGranule s g) := by
  unfold readGranule
  repeat' (first
    | with_reducible assumption
    | with_reducible apply hh0
    | with_reducible apply bump_steady
    | with_reducible apply setPlate_steady
    | with_reducible apply awaitPlate_steady
    | with_reducible apply openRow_steady
    | with_reducible refine Steady.ite ?_ ?_
    | with_reducible refine Steady.ite_snd ?_ ?_
    | ((try lift_lets -underBinder); intro s1; (refine (fun (h2 : Steady kp s1) => ?_) (?_ : Steady kp s1)) <;> [clear_value s1; subst s1])
    | ((try lift_lets -underBinder); intro s1; (refine (fun (h2 : Steady kp s1.2) => ?_) (?_ : Steady kp s1.2)) <;> [clear_value s1; subst s1])
    | ((try lift_lets -underBinder); intro s1)
    | simp -zeta only [steady_upd]
    | (split <;> try first | (refine (fun (h2 : Steady kp _) => ?_) (Steady.of_pair (by assumption) ?_)) | (refine (fun (h2 : Steady kp _) => ?_) (Steady.of_pair_fst (by assumption) ?_)) | (refine (fun (h2 : Steady kp _) => ?_) (Steady.of_triple (by assumption) ?_)) | (refine (fun (h2 : Steady kp _) => ?_) (Steady.of_some_pair (by assumption) ?_)) | (refine (fun (h2 : Steady kp _) => ?_) (Steady.of_some_quad (by assumption) ?_)) | (refine (fun (h2 : Steady kp _) => ?_) (Steady.of_some (by assumption) ?_)))
    | clear_value *)

theorem writeGranule_steady {s : State} (g : Nat) (hh0 : Steady kp s) :
    Steady kp (writeGranule s g) := by
  unfold writeGranule
  repeat' (first
    | with_reducible assumption
    | with_reducible apply hh0
    | with_reducible apply bump_steady
    | with_reducible apply setPlate_steady
    | with_reducible apply openRow_steady
    | with_reducible refine Steady.ite ?_ ?_
    | with_reducible refine Steady.ite_snd ?_ ?_
    | ((try lift_lets -underBinder); intro s1; (refine (fun (h2 : Steady kp s1) => ?_) (?_ : Steady kp s1)) <;> [clear_value s1; subst s1])
    | ((try lift_lets -underBinder); intro s1; (refine (fun (h2 : Steady kp s1.2) => ?_) (?_ : Steady kp s1.2)) <;> [clear_value s1; subst s1])
    | ((try lift_lets -underBinder); intro s1)
    | simp -zeta only [steady_upd]
    | (split <;> try first | (refine (fun (h2 : Steady kp _) => ?_) (Steady.of_pair (by assumption) ?_)) | (refine (fun (h2 : Steady kp _) => ?_) (Steady.of_pair_fst (by assumption) ?_)) | (refine (fun (h2 : Steady kp _) => ?_) (Steady.of_triple (by assumption) ?_)) | (refine (fun (h2 : Steady kp _) => ?_) (Steady.of_some_pair (by assumption) ?_)) | (refine (fun (h2 : Steady kp _) => ?_) (Steady.of_some_quad (by assumption) ?_)) | (refine (fun (h2 : Steady kp _) => ?_) (Steady.of_some (by assumption) ?_)))
    | clear_value *)

theorem serveWrites_steady {s : State} (k ch level : Nat) (hh0 : Steady kp s) :
    Steady kp (serveWrites s k ch level) := by
  unfold serveWrites
  repeat' (first
    | with_reducible assumption
    | with_reducible apply hh0
    | with_reducible apply setPlate_steady
    | with_reducible apply writeGranule_steady
    | (with_reducible refine foldl_steady ?_ ?_ _)
    | (with_reducible refine foldl_steady_snd ?_ ?_ _)
    | (with_reducible refine foldl_steady_fst ?_ ?_ _)
    | (with_reducible refine foldl_steady_snd_snd ?_ ?_ _)
    | with_reducible refine Steady.ite ?_ ?_
    | with_reducible refine Steady.ite_snd ?_ ?_
    | (intro s1 a1 (h1 : Steady kp _); beta_reduce)
    | (intro s1 (h1 : Steady kp _); beta_reduce)
    | ((try lift_lets -underBinder); intro s1; (refine (fun (h2 : Steady kp s1) => ?_) (?_ : Steady kp s1)) <;> [clear_value s1; subst s1])
    | ((try lift_lets -underBinder); intro s1; (refine (fun (h2 : Steady kp s1.2) => ?_) (?_ : Steady kp s1.2)) <;> [clear_value s1; subst s1])
    | ((try lift_lets -underBinder); intro s1)
    | simp -zeta only [steady_upd]
    | (split <;> try first | (refine (fun (h2 : Steady kp _) => ?_) (Steady.of_pair (by assumption) ?_)) | (refine (fun (h2 : Steady kp _) => ?_) (Steady.of_pair_fst (by assumption) ?_)) | (refine (fun (h2 : Steady kp _) => ?_) (Steady.of_triple (by assumption) ?_)) | (refine (fun (h2 : Steady kp _) => ?_) (Steady.of_some_pair (by assumption) ?_)) | (refine (fun (h2 : Steady kp _) => ?_) (Steady.of_some_quad (by assumption) ?_)) | (refine (fun (h2 : Steady kp _) => ?_) (Steady.of_some (by assumption) ?_)))
    | clear_value *)

theorem dropBack_steady {s : State} (a : Nat) (hh0 : Steady kp s) :
    Steady kp (dropBack s a) := by
  unfold dropBack
  repeat' (first
    | with_reducible assumption
    | with_reducible apply hh0
    | with_reducible apply setPlate_steady
    | with_reducible refine Steady.ite ?_ ?_
    | with_reducible refine Steady.ite_snd ?_ ?_
    | (intro s1 a1 (h1 : Steady kp _); beta_reduce)
    | (intro s1 (h1 : Steady kp _); beta_reduce)
    | ((try lift_lets -underBinder); intro s1; (refine (fun (h2 : Steady kp s1) => ?_) (?_ : Steady kp s1)) <;> [clear_value s1; subst s1])
    | ((try lift_lets -underBinder); intro s1; (refine (fun (h2 : Steady kp s1.2) => ?_) (?_ : Steady kp s1.2)) <;> [clear_value s1; subst s1])
    | ((try lift_lets -underBinder); intro s1)
    | simp -zeta only [steady_upd]
    | (split <;> try first | (refine (fun (h2 : Steady kp _) => ?_) (Steady.of_pair (by assumption) ?_)) | (refine (fun (h2 : Steady kp _) => ?_) (Steady.of_pair_fst (by assumption) ?_)) | (refine (fun (h2 : Steady kp _) => ?_) (Steady.of_triple (by assumption) ?_)) | (refine (fun (h2 : Steady kp _) => ?_) (Steady.of_some_pair (by assumption) ?_)) | (refine (fun (h2 : Steady kp _) => ?_) (Steady.of_some_quad (by assumption) ?_)) | (refine (fun (h2 : Steady kp _) => ?_) (Steady.of_some (by assumption) ?_)))
    | clear_value *)

theorem queueWrite_steady {s : State} (a : Nat) (back : Option Nat) (hh0 : Steady kp s) :
    Steady kp (queueWrite s a back) := by
  unfold queueWrite
  repeat' (first
    | with_reducible assumption
    | with_reducible apply hh0
    | with_reducible apply setPlate_steady
    | with_reducible apply serveWrites_steady
    | with_reducible apply wakePlate_steady
    | with_reducible refine Steady.ite ?_ ?_
    | with_reducible refine Steady.ite_snd ?_ ?_
    | ((try lift_lets -underBinder); intro s1; (refine (fun (h2 : Steady kp s1) => ?_) (?_ : Steady kp s1)) <;> [clear_value s1; subst s1])
    | ((try lift_lets -underBinder); intro s1; (refine (fun (h2 : Steady kp s1.2) => ?_) (?_ : Steady kp s1.2)) <;> [clear_value s1; subst s1])
    | ((try lift_lets -underBinder); intro s1)
    | simp -zeta only [steady_upd]
    | (split <;> try first | (refine (fun (h2 : Steady kp _) => ?_) (Steady.of_pair (by assumption) ?_)) | (refine (fun (h2 : Steady kp _) => ?_) (Steady.of_pair_fst (by assumption) ?_)) | (refine (fun (h2 : Steady kp _) => ?_) (Steady.of_triple (by assumption) ?_)) | (refine (fun (h2 : Steady kp _) => ?_) (Steady.of_some_pair (by assumption) ?_)) | (refine (fun (h2 : Steady kp _) => ?_) (Steady.of_some_quad (by assumption) ?_)) | (refine (fun (h2 : Steady kp _) => ?_) (Steady.of_some (by assumption) ?_)))
    | clear_value *)

theorem serveFull_steady {s : State} (k : Nat) (hh0 : Steady kp s) :
    Steady kp (serveFull s k) := by
  unfold serveFull
  repeat' (first
    | with_reducible assumption
    | with_reducible apply hh0
    | with_reducible apply serveWrites_steady
    | (with_reducible refine foldl_steady ?_ ?_ _)
    | (with_reducible refine foldl_steady_snd ?_ ?_ _)
    | (with_reducible refine foldl_steady_fst ?_ ?_ _)
    | (with_reducible refine foldl_steady_snd_snd ?_ ?_ _)
    | with_reducible refine Steady.ite ?_ ?_
    | with_reducible refine Steady.ite_snd ?_ ?_
    | (intro s1 a1 (h1 : Steady kp _); beta_reduce)
    | (intro s1 (h1 : Steady kp _); beta_reduce)
    | ((try lift_lets -underBinder); intro s1; (refine (fun (h2 : Steady kp s1) => ?_) (?_ : Steady kp s1)) <;> [clear_value s1; subst s1])
    | ((try lift_lets -underBinder); intro s1; (refine (fun (h2 : Steady kp s1.2) => ?_) (?_ : Steady kp s1.2)) <;> [clear_value s1; subst s1])
    | ((try lift_lets -underBinder); intro s1)
    | simp -zeta only [steady_upd]
    | (split <;> try first | (refine (fun (h2 : Steady kp _) => ?_) (Steady.of_pair (by assumption) ?_)) | (refine (fun (h2 : Steady kp _) => ?_) (Steady.of_pair_fst (by assumption) ?_)) | (refine (fun (h2 : Steady kp _) => ?_) (Steady.of_triple (by assumption) ?_)) | (refine (fun (h2 : Steady kp _) => ?_) (Steady.of_some_pair (by assumption) ?_)) | (refine (fun (h2 : Steady kp _) => ?_) (Steady.of_some_quad (by assumption) ?_)) | (refine (fun (h2 : Steady kp _) => ?_) (Steady.of_some (by assumption) ?_)))
    | clear_value *)

theorem drainWrites_steady {s : State} (k : Nat) (hh0 : Steady kp s) :
    Steady kp (drainWrites s k) := by
  unfold drainWrites
  repeat' (first
    | with_reducible assumption
    | with_reducible apply hh0
    | with_reducible apply serveWrites_steady
    | (with_reducible refine foldl_steady ?_ ?_ _)
    | (with_reducible refine foldl_steady_snd ?_ ?_ _)
    | (with_reducible refine foldl_steady_fst ?_ ?_ _)
    | (with_reducible refine foldl_steady_snd_snd ?_ ?_ _)
    | with_reducible refine Steady.ite ?_ ?_
    | with_reducible refine Steady.ite_snd ?_ ?_
    | (intro s1 a1 (h1 : Steady kp _); beta_reduce)
    | (intro s1 (h1 : Steady kp _); beta_reduce)
    | ((try lift_lets -underBinder); intro s1; (refine (fun (h2 : Steady kp s1) => ?_) (?_ : Steady kp s1)) <;> [clear_value s1; subst s1])
    | ((try lift_lets -underBinder); intro s1; (refine (fun (h2 : Steady kp s1.2) => ?_) (?_ : Steady kp s1.2)) <;> [clear_value s1; subst s1])
    | ((try lift_lets -underBinder); intro s1)
    | simp -zeta only [steady_upd]
    | (split <;> try first | (refine (fun (h2 : Steady kp _) => ?_) (Steady.of_pair (by assumption) ?_)) | (refine (fun (h2 : Steady kp _) => ?_) (Steady.of_pair_fst (by assumption) ?_)) | (refine (fun (h2 : Steady kp _) => ?_) (Steady.of_triple (by assumption) ?_)) | (refine (fun (h2 : Steady kp _) => ?_) (Steady.of_some_pair (by assumption) ?_)) | (refine (fun (h2 : Steady kp _) => ?_) (Steady.of_some_quad (by assumption) ?_)) | (refine (fun (h2 : Steady kp _) => ?_) (Steady.of_some (by assumption) ?_)))
    | clear_value *)

theorem setCodes_steady {s : State} (a : Nat) (c : Codes) (hh0 : Steady kp s) :
    Steady kp (State.setCodes s a c) := by
  unfold State.setCodes
  repeat' (first
    | with_reducible assumption
    | with_reducible apply hh0
    | with_reducible refine Steady.ite ?_ ?_
    | with_reducible refine Steady.ite_snd ?_ ?_
    | ((try lift_lets -underBinder); intro s1; (refine (fun (h2 : Steady kp s1) => ?_) (?_ : Steady kp s1)) <;> [clear_value s1; subst s1])
    | ((try lift_lets -underBinder); intro s1; (refine (fun (h2 : Steady kp s1.2) => ?_) (?_ : Steady kp s1.2)) <;> [clear_value s1; subst s1])
    | ((try lift_lets -underBinder); intro s1)
    | simp -zeta only [steady_upd]
    | (split <;> try first | (refine (fun (h2 : Steady kp _) => ?_) (Steady.of_pair (by assumption) ?_)) | (refine (fun (h2 : Steady kp _) => ?_) (Steady.of_pair_fst (by assumption) ?_)) | (refine (fun (h2 : Steady kp _) => ?_) (Steady.of_triple (by assumption) ?_)) | (refine (fun (h2 : Steady kp _) => ?_) (Steady.of_some_pair (by assumption) ?_)) | (refine (fun (h2 : Steady kp _) => ?_) (Steady.of_some_quad (by assumption) ?_)) | (refine (fun (h2 : Steady kp _) => ?_) (Steady.of_some (by assumption) ?_)))
    | clear_value *)

theorem markCw_steady {s : State} (a : Nat) (pois : Bool) (hh0 : Steady kp s) :
    Steady kp (State.markCw s a pois) := by
  unfold State.markCw
  repeat' (first
    | with_reducible assumption
    | with_reducible apply hh0
    | with_reducible apply setCodes_steady
    | with_reducible refine Steady.ite ?_ ?_
    | with_reducible refine Steady.ite_snd ?_ ?_
    | ((try lift_lets -underBinder); intro s1; (refine (fun (h2 : Steady kp s1) => ?_) (?_ : Steady kp s1)) <;> [clear_value s1; subst s1])
    | ((try lift_lets -underBinder); intro s1; (refine (fun (h2 : Steady kp s1.2) => ?_) (?_ : Steady kp s1.2)) <;> [clear_value s1; subst s1])
    | ((try lift_lets -underBinder); intro s1)
    | simp -zeta only [steady_upd]
    | (split <;> try first | (refine (fun (h2 : Steady kp _) => ?_) (Steady.of_pair (by assumption) ?_)) | (refine (fun (h2 : Steady kp _) => ?_) (Steady.of_pair_fst (by assumption) ?_)) | (refine (fun (h2 : Steady kp _) => ?_) (Steady.of_triple (by assumption) ?_)) | (refine (fun (h2 : Steady kp _) => ?_) (Steady.of_some_pair (by assumption) ?_)) | (refine (fun (h2 : Steady kp _) => ?_) (Steady.of_some_quad (by assumption) ?_)) | (refine (fun (h2 : Steady kp _) => ?_) (Steady.of_some (by assumption) ?_)))
    | clear_value *)

theorem setErrs_steady {s : State} (a : Nat) (l : SMap Nat) (hh0 : Steady kp s) :
    Steady kp (State.setErrs s a l) := by
  unfold State.setErrs
  repeat' (first
    | with_reducible assumption
    | with_reducible apply hh0
    | with_reducible apply setCodes_steady
    | with_reducible refine Steady.ite ?_ ?_
    | with_reducible refine Steady.ite_snd ?_ ?_
    | ((try lift_lets -underBinder); intro s1; (refine (fun (h2 : Steady kp s1) => ?_) (?_ : Steady kp s1)) <;> [clear_value s1; subst s1])
    | ((try lift_lets -underBinder); intro s1; (refine (fun (h2 : Steady kp s1.2) => ?_) (?_ : Steady kp s1.2)) <;> [clear_value s1; subst s1])
    | ((try lift_lets -underBinder); intro s1)
    | simp -zeta only [steady_upd]
    | (split <;> try first | (refine (fun (h2 : Steady kp _) => ?_) (Steady.of_pair (by assumption) ?_)) | (refine (fun (h2 : Steady kp _) => ?_) (Steady.of_pair_fst (by assumption) ?_)) | (refine (fun (h2 : Steady kp _) => ?_) (Steady.of_triple (by assumption) ?_)) | (refine (fun (h2 : Steady kp _) => ?_) (Steady.of_some_pair (by assumption) ?_)) | (refine (fun (h2 : Steady kp _) => ?_) (Steady.of_some_quad (by assumption) ?_)) | (refine (fun (h2 : Steady kp _) => ?_) (Steady.of_some (by assumption) ?_)))
    | clear_value *)

theorem putCw_steady (nm : kp.mem = none) {s : State} (a : Nat) (data : List Nat) (pois : Bool) (e : SMap Nat) (hh0 : Steady kp s) :
    Steady kp (State.putCw s a data pois e) := by
  unfold State.putCw
  repeat' (first
    | with_reducible assumption
    | with_reducible apply hh0
    | with_reducible apply markCw_steady
    | with_reducible apply setErrs_steady
    | with_reducible refine steady_store nm ?_
    | with_reducible refine Steady.ite ?_ ?_
    | with_reducible refine Steady.ite_snd ?_ ?_
    | ((try lift_lets -underBinder); intro s1; (refine (fun (h2 : Steady kp s1) => ?_) (?_ : Steady kp s1)) <;> [clear_value s1; subst s1])
    | ((try lift_lets -underBinder); intro s1; (refine (fun (h2 : Steady kp s1.2) => ?_) (?_ : Steady kp s1.2)) <;> [clear_value s1; subst s1])
    | ((try lift_lets -underBinder); intro s1)
    | simp -zeta only [steady_upd]
    | (split <;> try first | (refine (fun (h2 : Steady kp _) => ?_) (Steady.of_pair (by assumption) ?_)) | (refine (fun (h2 : Steady kp _) => ?_) (Steady.of_pair_fst (by assumption) ?_)) | (refine (fun (h2 : Steady kp _) => ?_) (Steady.of_triple (by assumption) ?_)) | (refine (fun (h2 : Steady kp _) => ?_) (Steady.of_some_pair (by assumption) ?_)) | (refine (fun (h2 : Steady kp _) => ?_) (Steady.of_some_quad (by assumption) ?_)) | (refine (fun (h2 : Steady kp _) => ?_) (Steady.of_some (by assumption) ?_)))
    | clear_value *)

theorem corrected_steady {s : State} (a : Nat) (syms : List Nat) (hh0 : Steady kp s) :
    Steady kp (corrected s a syms) := by
  unfold corrected
  repeat' (first
    | with_reducible assumption
    | with_reducible apply hh0
    | with_reducible apply bump_steady
    | with_reducible apply bumpBy_steady
    | with_reducible apply modCore_steady
    | with_reducible apply setErrs_steady
    | with_reducible apply countLane_steady
    | with_reducible apply errOcc_steady
    | with_reducible apply plateErrLoc_steady
    | with_reducible apply queueWrite_steady
    | with_reducible apply sramErrLoc_steady
    | (with_reducible refine foldl_steady ?_ ?_ _)
    | (with_reducible refine foldl_steady_snd ?_ ?_ _)
    | (with_reducible refine foldl_steady_fst ?_ ?_ _)
    | (with_reducible refine foldl_steady_snd_snd ?_ ?_ _)
    | with_reducible refine Steady.ite ?_ ?_
    | with_reducible refine Steady.ite_snd ?_ ?_
    | (intro s1 a1 (h1 : Steady kp _); beta_reduce)
    | (intro s1 (h1 : Steady kp _); beta_reduce)
    | ((try lift_lets -underBinder); intro s1; (refine (fun (h2 : Steady kp s1) => ?_) (?_ : Steady kp s1)) <;> [clear_value s1; subst s1])
    | ((try lift_lets -underBinder); intro s1; (refine (fun (h2 : Steady kp s1.2) => ?_) (?_ : Steady kp s1.2)) <;> [clear_value s1; subst s1])
    | ((try lift_lets -underBinder); intro s1)
    | simp -zeta only [steady_upd]
    | (split <;> try first | (refine (fun (h2 : Steady kp _) => ?_) (Steady.of_pair (by assumption) ?_)) | (refine (fun (h2 : Steady kp _) => ?_) (Steady.of_pair_fst (by assumption) ?_)) | (refine (fun (h2 : Steady kp _) => ?_) (Steady.of_triple (by assumption) ?_)) | (refine (fun (h2 : Steady kp _) => ?_) (Steady.of_some_pair (by assumption) ?_)) | (refine (fun (h2 : Steady kp _) => ?_) (Steady.of_some_quad (by assumption) ?_)) | (refine (fun (h2 : Steady kp _) => ?_) (Steady.of_some (by assumption) ?_)))
    | clear_value *)

theorem uncorrectable_steady {s : State} (a : Nat) (hh0 : Steady kp s) :
    Steady kp (uncorrectable s a) := by
  unfold uncorrectable
  repeat' (first
    | with_reducible assumption
    | with_reducible apply hh0
    | with_reducible apply bump_steady
    | with_reducible apply plateErrLoc_steady
    | with_reducible apply sramErrLoc_steady
    | with_reducible refine Steady.ite ?_ ?_
    | with_reducible refine Steady.ite_snd ?_ ?_
    | ((try lift_lets -underBinder); intro s1; (refine (fun (h2 : Steady kp s1) => ?_) (?_ : Steady kp s1)) <;> [clear_value s1; subst s1])
    | ((try lift_lets -underBinder); intro s1; (refine (fun (h2 : Steady kp s1.2) => ?_) (?_ : Steady kp s1.2)) <;> [clear_value s1; subst s1])
    | ((try lift_lets -underBinder); intro s1)
    | simp -zeta only [steady_upd]
    | (split <;> try first | (refine (fun (h2 : Steady kp _) => ?_) (Steady.of_pair (by assumption) ?_)) | (refine (fun (h2 : Steady kp _) => ?_) (Steady.of_pair_fst (by assumption) ?_)) | (refine (fun (h2 : Steady kp _) => ?_) (Steady.of_triple (by assumption) ?_)) | (refine (fun (h2 : Steady kp _) => ?_) (Steady.of_some_pair (by assumption) ?_)) | (refine (fun (h2 : Steady kp _) => ?_) (Steady.of_some_quad (by assumption) ?_)) | (refine (fun (h2 : Steady kp _) => ?_) (Steady.of_some (by assumption) ?_)))
    | clear_value *)

theorem decodeWord_steady (nm : kp.mem = none) {s : State} (a : Nat) (inj : List (Nat × Nat)) (hh0 : Steady kp s) :
    Steady kp (decodeWord s a inj).2 := by
  unfold decodeWord
  repeat' (first
    | with_reducible assumption
    | with_reducible apply hh0
    | with_reducible apply putCw_steady
    | with_reducible apply corrected_steady
    | with_reducible apply uncorrectable_steady
    | with_reducible refine Steady.ite ?_ ?_
    | with_reducible refine Steady.ite_snd ?_ ?_
    | (intro s1 a1 (h1 : Steady kp _); beta_reduce)
    | (intro s1 (h1 : Steady kp _); beta_reduce)
    | ((try lift_lets -underBinder); intro s1; (refine (fun (h2 : Steady kp s1) => ?_) (?_ : Steady kp s1)) <;> [clear_value s1; subst s1])
    | ((try lift_lets -underBinder); intro s1; (refine (fun (h2 : Steady kp s1.2) => ?_) (?_ : Steady kp s1.2)) <;> [clear_value s1; subst s1])
    | ((try lift_lets -underBinder); intro s1)
    | simp -zeta only [steady_upd]
    | (split <;> try first | (refine (fun (h2 : Steady kp _) => ?_) (Steady.of_pair (by assumption) ?_)) | (refine (fun (h2 : Steady kp _) => ?_) (Steady.of_pair_fst (by assumption) ?_)) | (refine (fun (h2 : Steady kp _) => ?_) (Steady.of_triple (by assumption) ?_)) | (refine (fun (h2 : Steady kp _) => ?_) (Steady.of_some_pair (by assumption) ?_)) | (refine (fun (h2 : Steady kp _) => ?_) (Steady.of_some_quad (by assumption) ?_)) | (refine (fun (h2 : Steady kp _) => ?_) (Steady.of_some (by assumption) ?_)))
    | clear_value *)

theorem decodeCw_steady (nm : kp.mem = none) {s : State} (a : Nat) (extra : List (Nat × Nat)) (srcs : List Nat) (hh0 : Steady kp s) :
    Steady kp (decodeCw s a extra srcs).2 := by
  unfold decodeCw
  repeat' (first
    | with_reducible assumption
    | with_reducible apply hh0
    | with_reducible apply setErrs_steady
    | with_reducible apply decodeWord_steady
    | with_reducible apply takeInjection_steady
    | with_reducible refine Steady.ite ?_ ?_
    | with_reducible refine Steady.ite_snd ?_ ?_
    | (intro s1 a1 (h1 : Steady kp _); beta_reduce)
    | (intro s1 (h1 : Steady kp _); beta_reduce)
    | ((try lift_lets -underBinder); intro s1; (refine (fun (h2 : Steady kp s1) => ?_) (?_ : Steady kp s1)) <;> [clear_value s1; subst s1])
    | ((try lift_lets -underBinder); intro s1; (refine (fun (h2 : Steady kp s1.2) => ?_) (?_ : Steady kp s1.2)) <;> [clear_value s1; subst s1])
    | ((try lift_lets -underBinder); intro s1)
    | simp -zeta only [steady_upd]
    | (split <;> try first | (refine (fun (h2 : Steady kp _) => ?_) (Steady.of_pair (by assumption) ?_)) | (refine (fun (h2 : Steady kp _) => ?_) (Steady.of_pair_fst (by assumption) ?_)) | (refine (fun (h2 : Steady kp _) => ?_) (Steady.of_triple (by assumption) ?_)) | (refine (fun (h2 : Steady kp _) => ?_) (Steady.of_some_pair (by assumption) ?_)) | (refine (fun (h2 : Steady kp _) => ?_) (Steady.of_some_quad (by assumption) ?_)) | (refine (fun (h2 : Steady kp _) => ?_) (Steady.of_some (by assumption) ?_)))
    | clear_value *)

theorem readPiece_steady (nm : kp.mem = none) (pp : Bool) (x : Rd × State) (a n : Nat) (hh0 : Steady kp x.2) :
    Steady kp (readPiece pp x a n).2 := by
  unfold readPiece
  repeat' (first
    | with_reducible assumption
    | with_reducible apply hh0
    | with_reducible apply decodeCw_steady
    | with_reducible refine Steady.ite ?_ ?_
    | with_reducible refine Steady.ite_snd ?_ ?_
    | ((try lift_lets -underBinder); intro s1; (refine (fun (h2 : Steady kp s1) => ?_) (?_ : Steady kp s1)) <;> [clear_value s1; subst s1])
    | ((try lift_lets -underBinder); intro s1; (refine (fun (h2 : Steady kp s1.2) => ?_) (?_ : Steady kp s1.2)) <;> [clear_value s1; subst s1])
    | ((try lift_lets -underBinder); intro s1)
    | simp -zeta only [steady_upd]
    | (split <;> try first | (refine (fun (h2 : Steady kp _) => ?_) (Steady.of_pair (by assumption) ?_)) | (refine (fun (h2 : Steady kp _) => ?_) (Steady.of_pair_fst (by assumption) ?_)) | (refine (fun (h2 : Steady kp _) => ?_) (Steady.of_triple (by assumption) ?_)) | (refine (fun (h2 : Steady kp _) => ?_) (Steady.of_some_pair (by assumption) ?_)) | (refine (fun (h2 : Steady kp _) => ?_) (Steady.of_some_quad (by assumption) ?_)) | (refine (fun (h2 : Steady kp _) => ?_) (Steady.of_some (by assumption) ?_)))
    | clear_value *)

theorem readGroup_steady (nm : kp.mem = none) (pp : Bool) (x : Rd × State) (a n : Nat) (hh0 : Steady kp x.2) :
    Steady kp (readGroup pp x a n).2 := by
  unfold readGroup
  repeat' (first
    | with_reducible assumption
    | with_reducible apply hh0
    | with_reducible apply readGranule_steady
    | with_reducible apply readPiece_steady
    | (with_reducible refine foldl_steady ?_ ?_ _)
    | (with_reducible refine foldl_steady_snd ?_ ?_ _)
    | (with_reducible refine foldl_steady_fst ?_ ?_ _)
    | (with_reducible refine foldl_steady_snd_snd ?_ ?_ _)
    | with_reducible refine Steady.ite ?_ ?_
    | with_reducible refine Steady.ite_snd ?_ ?_
    | (intro s1 a1 (h1 : Steady kp _); beta_reduce)
    | (intro s1 (h1 : Steady kp _); beta_reduce)
    | ((try lift_lets -underBinder); intro s1; (refine (fun (h2 : Steady kp s1) => ?_) (?_ : Steady kp s1)) <;> [clear_value s1; subst s1])
    | ((try lift_lets -underBinder); intro s1; (refine (fun (h2 : Steady kp s1.2) => ?_) (?_ : Steady kp s1.2)) <;> [clear_value s1; subst s1])
    | ((try lift_lets -underBinder); intro s1)
    | simp -zeta only [steady_upd]
    | (split <;> try first | (refine (fun (h2 : Steady kp _) => ?_) (Steady.of_pair (by assumption) ?_)) | (refine (fun (h2 : Steady kp _) => ?_) (Steady.of_pair_fst (by assumption) ?_)) | (refine (fun (h2 : Steady kp _) => ?_) (Steady.of_triple (by assumption) ?_)) | (refine (fun (h2 : Steady kp _) => ?_) (Steady.of_some_pair (by assumption) ?_)) | (refine (fun (h2 : Steady kp _) => ?_) (Steady.of_some_quad (by assumption) ?_)) | (refine (fun (h2 : Steady kp _) => ?_) (Steady.of_some (by assumption) ?_)))
    | clear_value *)

theorem readEach_steady (nm : kp.mem = none) (pp : Bool) (a n : Nat) {s : State} (hh0 : Steady kp s) :
    Steady kp (readEach pp a n s).2 := by
  unfold readEach
  repeat' (first
    | with_reducible assumption
    | with_reducible apply hh0
    | with_reducible apply readGranule_steady
    | with_reducible apply readPiece_steady
    | (with_reducible refine foldl_steady ?_ ?_ _)
    | (with_reducible refine foldl_steady_snd ?_ ?_ _)
    | (with_reducible refine foldl_steady_fst ?_ ?_ _)
    | (with_reducible refine foldl_steady_snd_snd ?_ ?_ _)
    | with_reducible refine Steady.ite ?_ ?_
    | with_reducible refine Steady.ite_snd ?_ ?_
    | (intro s1 a1 (h1 : Steady kp _); beta_reduce)
    | (intro s1 (h1 : Steady kp _); beta_reduce)
    | ((try lift_lets -underBinder); intro s1; (refine (fun (h2 : Steady kp s1) => ?_) (?_ : Steady kp s1)) <;> [clear_value s1; subst s1])
    | ((try lift_lets -underBinder); intro s1; (refine (fun (h2 : Steady kp s1.2) => ?_) (?_ : Steady kp s1.2)) <;> [clear_value s1; subst s1])
    | ((try lift_lets -underBinder); intro s1)
    | simp -zeta only [steady_upd]
    | (split <;> try first | (refine (fun (h2 : Steady kp _) => ?_) (Steady.of_pair (by assumption) ?_)) | (refine (fun (h2 : Steady kp _) => ?_) (Steady.of_pair_fst (by assumption) ?_)) | (refine (fun (h2 : Steady kp _) => ?_) (Steady.of_triple (by assumption) ?_)) | (refine (fun (h2 : Steady kp _) => ?_) (Steady.of_some_pair (by assumption) ?_)) | (refine (fun (h2 : Steady kp _) => ?_) (Steady.of_some_quad (by assumption) ?_)) | (refine (fun (h2 : Steady kp _) => ?_) (Steady.of_some (by assumption) ?_)))
    | clear_value *)

theorem readRun_steady (nm : kp.mem = none) (pp : Bool) (x : Rd × State) (a n : Nat) (hh0 : Steady kp x.2) :
    Steady kp (readRun pp x a n).2 := by
  unfold readRun
  repeat' (first
    | with_reducible assumption
    | with_reducible apply hh0
    | with_reducible apply readGroup_steady
    | (with_reducible refine foldl_steady ?_ ?_ _)
    | (with_reducible refine foldl_steady_snd ?_ ?_ _)
    | (with_reducible refine foldl_steady_fst ?_ ?_ _)
    | (with_reducible refine foldl_steady_snd_snd ?_ ?_ _)
    | with_reducible refine Steady.ite ?_ ?_
    | with_reducible refine Steady.ite_snd ?_ ?_
    | (intro s1 a1 (h1 : Steady kp _); beta_reduce)
    | (intro s1 (h1 : Steady kp _); beta_reduce)
    | ((try lift_lets -underBinder); intro s1; (refine (fun (h2 : Steady kp s1) => ?_) (?_ : Steady kp s1)) <;> [clear_value s1; subst s1])
    | ((try lift_lets -underBinder); intro s1; (refine (fun (h2 : Steady kp s1.2) => ?_) (?_ : Steady kp s1.2)) <;> [clear_value s1; subst s1])
    | ((try lift_lets -underBinder); intro s1)
    | simp -zeta only [steady_upd]
    | (split <;> try first | (refine (fun (h2 : Steady kp _) => ?_) (Steady.of_pair (by assumption) ?_)) | (refine (fun (h2 : Steady kp _) => ?_) (Steady.of_pair_fst (by assumption) ?_)) | (refine (fun (h2 : Steady kp _) => ?_) (Steady.of_triple (by assumption) ?_)) | (refine (fun (h2 : Steady kp _) => ?_) (Steady.of_some_pair (by assumption) ?_)) | (refine (fun (h2 : Steady kp _) => ?_) (Steady.of_some_quad (by assumption) ?_)) | (refine (fun (h2 : Steady kp _) => ?_) (Steady.of_some (by assumption) ?_)))
    | clear_value *)

theorem readRuns_steady (nm : kp.mem = none) (pp : Bool) (runs : List Run) {s : State} (hh0 : Steady kp s) :
    Steady kp (readRuns pp runs s).2 := by
  unfold readRuns
  repeat' (first
    | with_reducible assumption
    | with_reducible apply hh0
    | with_reducible apply readRun_steady
    | (with_reducible refine foldl_steady ?_ ?_ _)
    | (with_reducible refine foldl_steady_snd ?_ ?_ _)
    | (with_reducible refine foldl_steady_fst ?_ ?_ _)
    | (with_reducible refine foldl_steady_snd_snd ?_ ?_ _)
    | with_reducible refine Steady.ite ?_ ?_
    | with_reducible refine Steady.ite_snd ?_ ?_
    | (intro s1 a1 (h1 : Steady kp _); beta_reduce)
    | (intro s1 (h1 : Steady kp _); beta_reduce)
    | ((try lift_lets -underBinder); intro s1; (refine (fun (h2 : Steady kp s1) => ?_) (?_ : Steady kp s1)) <;> [clear_value s1; subst s1])
    | ((try lift_lets -underBinder); intro s1; (refine (fun (h2 : Steady kp s1.2) => ?_) (?_ : Steady kp s1.2)) <;> [clear_value s1; subst s1])
    | ((try lift_lets -underBinder); intro s1)
    | simp -zeta only [steady_upd]
    | (split <;> try first | (refine (fun (h2 : Steady kp _) => ?_) (Steady.of_pair (by assumption) ?_)) | (refine (fun (h2 : Steady kp _) => ?_) (Steady.of_pair_fst (by assumption) ?_)) | (refine (fun (h2 : Steady kp _) => ?_) (Steady.of_triple (by assumption) ?_)) | (refine (fun (h2 : Steady kp _) => ?_) (Steady.of_some_pair (by assumption) ?_)) | (refine (fun (h2 : Steady kp _) => ?_) (Steady.of_some_quad (by assumption) ?_)) | (refine (fun (h2 : Steady kp _) => ?_) (Steady.of_some (by assumption) ?_)))
    | clear_value *)

theorem writePiece_steady (nm : kp.mem = none) {s : State} (a : Nat) (bs : List Byte) (pois : Bool) (hh0 : Steady kp s) :
    Steady kp (writePiece s a bs pois) := by
  unfold writePiece
  repeat' (first
    | with_reducible assumption
    | with_reducible apply hh0
    | with_reducible apply bump_steady
    | with_reducible apply markCw_steady
    | with_reducible apply modCore_steady
    | with_reducible apply decodeCw_steady
    | with_reducible apply dropBack_steady
    | with_reducible apply errOcc_steady
    | with_reducible apply readGranule_steady
    | with_reducible apply writeGranule_steady
    | with_reducible refine steady_store nm ?_
    | with_reducible refine Steady.ite ?_ ?_
    | with_reducible refine Steady.ite_snd ?_ ?_
    | (intro s1 a1 (h1 : Steady kp _); beta_reduce)
    | (intro s1 (h1 : Steady kp _); beta_reduce)
    | ((try lift_lets -underBinder); intro s1; (refine (fun (h2 : Steady kp s1) => ?_) (?_ : Steady kp s1)) <;> [clear_value s1; subst s1])
    | ((try lift_lets -underBinder); intro s1; (refine (fun (h2 : Steady kp s1.2) => ?_) (?_ : Steady kp s1.2)) <;> [clear_value s1; subst s1])
    | ((try lift_lets -underBinder); intro s1)
    | simp -zeta only [steady_upd]
    | (split <;> try first | (refine (fun (h2 : Steady kp _) => ?_) (Steady.of_pair (by assumption) ?_)) | (refine (fun (h2 : Steady kp _) => ?_) (Steady.of_pair_fst (by assumption) ?_)) | (refine (fun (h2 : Steady kp _) => ?_) (Steady.of_triple (by assumption) ?_)) | (refine (fun (h2 : Steady kp _) => ?_) (Steady.of_some_pair (by assumption) ?_)) | (refine (fun (h2 : Steady kp _) => ?_) (Steady.of_some_quad (by assumption) ?_)) | (refine (fun (h2 : Steady kp _) => ?_) (Steady.of_some (by assumption) ?_)))
    | clear_value *)

theorem writeBlock_steady (nm : kp.mem = none) {s : State} (a : Nat) (bs : List Byte) (pois : Bool) (hh0 : Steady kp s) :
    Steady kp (writeBlock s a bs pois) := by
  unfold writeBlock
  repeat' (first
    | with_reducible assumption
    | with_reducible apply hh0
    | with_reducible apply queueWrite_steady
    | with_reducible apply writePiece_steady
    | (with_reducible refine foldl_steady ?_ ?_ _)
    | (with_reducible refine foldl_steady_snd ?_ ?_ _)
    | (with_reducible refine foldl_steady_fst ?_ ?_ _)
    | (with_reducible refine foldl_steady_snd_snd ?_ ?_ _)
    | with_reducible refine Steady.ite ?_ ?_
    | with_reducible refine Steady.ite_snd ?_ ?_
    | (intro s1 a1 (h1 : Steady kp _); beta_reduce)
    | (intro s1 (h1 : Steady kp _); beta_reduce)
    | ((try lift_lets -underBinder); intro s1; (refine (fun (h2 : Steady kp s1) => ?_) (?_ : Steady kp s1)) <;> [clear_value s1; subst s1])
    | ((try lift_lets -underBinder); intro s1; (refine (fun (h2 : Steady kp s1.2) => ?_) (?_ : Steady kp s1.2)) <;> [clear_value s1; subst s1])
    | ((try lift_lets -underBinder); intro s1)
    | simp -zeta only [steady_upd]
    | (split <;> try first | (refine (fun (h2 : Steady kp _) => ?_) (Steady.of_pair (by assumption) ?_)) | (refine (fun (h2 : Steady kp _) => ?_) (Steady.of_pair_fst (by assumption) ?_)) | (refine (fun (h2 : Steady kp _) => ?_) (Steady.of_triple (by assumption) ?_)) | (refine (fun (h2 : Steady kp _) => ?_) (Steady.of_some_pair (by assumption) ?_)) | (refine (fun (h2 : Steady kp _) => ?_) (Steady.of_some_quad (by assumption) ?_)) | (refine (fun (h2 : Steady kp _) => ?_) (Steady.of_some (by assumption) ?_)))
    | clear_value *)

theorem writeRange_steady (nm : kp.mem = none) {s : State} (a : Nat) (bs : List Byte) (pois : Bool) (hh0 : Steady kp s) :
    Steady kp (writeRange s a bs pois) := by
  unfold writeRange
  repeat' (first
    | with_reducible assumption
    | with_reducible apply hh0
    | with_reducible apply writeBlock_steady
    | (with_reducible refine foldl_steady ?_ ?_ _)
    | (with_reducible refine foldl_steady_snd ?_ ?_ _)
    | (with_reducible refine foldl_steady_fst ?_ ?_ _)
    | (with_reducible refine foldl_steady_snd_snd ?_ ?_ _)
    | with_reducible refine Steady.ite ?_ ?_
    | with_reducible refine Steady.ite_snd ?_ ?_
    | (intro s1 a1 (h1 : Steady kp _); beta_reduce)
    | (intro s1 (h1 : Steady kp _); beta_reduce)
    | ((try lift_lets -underBinder); intro s1; (refine (fun (h2 : Steady kp s1) => ?_) (?_ : Steady kp s1)) <;> [clear_value s1; subst s1])
    | ((try lift_lets -underBinder); intro s1; (refine (fun (h2 : Steady kp s1.2) => ?_) (?_ : Steady kp s1.2)) <;> [clear_value s1; subst s1])
    | ((try lift_lets -underBinder); intro s1)
    | simp -zeta only [steady_upd]
    | (split <;> try first | (refine (fun (h2 : Steady kp _) => ?_) (Steady.of_pair (by assumption) ?_)) | (refine (fun (h2 : Steady kp _) => ?_) (Steady.of_pair_fst (by assumption) ?_)) | (refine (fun (h2 : Steady kp _) => ?_) (Steady.of_triple (by assumption) ?_)) | (refine (fun (h2 : Steady kp _) => ?_) (Steady.of_some_pair (by assumption) ?_)) | (refine (fun (h2 : Steady kp _) => ?_) (Steady.of_some_quad (by assumption) ?_)) | (refine (fun (h2 : Steady kp _) => ?_) (Steady.of_some (by assumption) ?_)))
    | clear_value *)

theorem writeRuns_steady (nm : kp.mem = none) (l : List Run) (bs : List Byte) (pois : Bool) {s : State} (h : Steady kp s) :
    Steady kp (writeRuns l bs pois s) := by
  induction l generalizing bs s with
  | nil => exact h
  | cons r l ih =>
    obtain ⟨a, n⟩ := r
    cases a with
    | none => exact ih _ h
    | some a => exact ih _ (writeRange_steady nm _ _ _ h)

theorem poisonRuns_steady (runs : List Run) {s : State} (hh0 : Steady kp s) :
    Steady kp (poisonRuns runs s) := by
  unfold poisonRuns
  repeat' (first
    | with_reducible assumption
    | with_reducible apply hh0
    | with_reducible apply markCw_steady
    | (with_reducible refine foldl_steady ?_ ?_ _)
    | (with_reducible refine foldl_steady_snd ?_ ?_ _)
    | (with_reducible refine foldl_steady_fst ?_ ?_ _)
    | (with_reducible refine foldl_steady_snd_snd ?_ ?_ _)
    | with_reducible refine Steady.ite ?_ ?_
    | with_reducible refine Steady.ite_snd ?_ ?_
    | (intro s1 a1 (h1 : Steady kp _); beta_reduce)
    | (intro s1 (h1 : Steady kp _); beta_reduce)
    | ((try lift_lets -underBinder); intro s1; (refine (fun (h2 : Steady kp s1) => ?_) (?_ : Steady kp s1)) <;> [clear_value s1; subst s1])
    | ((try lift_lets -underBinder); intro s1; (refine (fun (h2 : Steady kp s1.2) => ?_) (?_ : Steady kp s1.2)) <;> [clear_value s1; subst s1])
    | ((try lift_lets -underBinder); intro s1)
    | simp -zeta only [steady_upd]
    | (split <;> try first | (refine (fun (h2 : Steady kp _) => ?_) (Steady.of_pair (by assumption) ?_)) | (refine (fun (h2 : Steady kp _) => ?_) (Steady.of_pair_fst (by assumption) ?_)) | (refine (fun (h2 : Steady kp _) => ?_) (Steady.of_triple (by assumption) ?_)) | (refine (fun (h2 : Steady kp _) => ?_) (Steady.of_some_pair (by assumption) ?_)) | (refine (fun (h2 : Steady kp _) => ?_) (Steady.of_some_quad (by assumption) ?_)) | (refine (fun (h2 : Steady kp _) => ?_) (Steady.of_some (by assumption) ?_)))
    | clear_value *)

end Sys2Proof.Machine
end

