-- ==== Sys2Proof/Laws/SteadyOperands.lean ====
section
/-!
SUPPORT. Every operation of Machine/Operands.lean keeps what Laws/Steady.lean names.
-/

set_option linter.unusedTactic false
set_option linter.unreachableTactic false
set_option linter.unusedVariables false

namespace Sys2Proof.Machine

variable {kp : Kept}

theorem readIndexWord_steady (nm : kp.mem = none) {s : State} (a : Nat) (hh0 : Steady kp s) :
    Steady kp (readIndexWord s a).2 := by
  unfold readIndexWord
  repeat' (first
    | with_reducible assumption
    | with_reducible apply hh0
    | with_reducible apply readRun_steady
    | with_reducible refine Steady.ite ?_ ?_
    | with_reducible refine Steady.ite_snd ?_ ?_
    | ((try lift_lets -underBinder); intro s1; (refine (fun (h2 : Steady kp s1) => ?_) (?_ : Steady kp s1)) <;> [clear_value s1; subst s1])
    | ((try lift_lets -underBinder); intro s1; (refine (fun (h2 : Steady kp s1.2) => ?_) (?_ : Steady kp s1.2)) <;> [clear_value s1; subst s1])
    | ((try lift_lets -underBinder); intro s1)
    | simp -zeta only [steady_upd]
    | (split <;> try first | (refine (fun (h2 : Steady kp _) => ?_) (Steady.of_pair (by assumption) ?_)) | (refine (fun (h2 : Steady kp _) => ?_) (Steady.of_pair_fst (by assumption) ?_)) | (refine (fun (h2 : Steady kp _) => ?_) (Steady.of_triple (by assumption) ?_)) | (refine (fun (h2 : Steady kp _) => ?_) (Steady.of_some_pair (by assumption) ?_)) | (refine (fun (h2 : Steady kp _) => ?_) (Steady.of_some_quad (by assumption) ?_)) | (refine (fun (h2 : Steady kp _) => ?_) (Steady.of_some (by assumption) ?_)))
    | clear_value *)

theorem readIndices_steady (nm : kp.mem = none) (n a i : Nat) {s : State} (h : Steady kp s) : Steady kp (readIndices n a i s).2 := by
  induction n generalizing i s with
  | zero => exact h
  | succ n ih =>
    have h1 := readIndexWord_steady (kp := kp) nm (a + 4 + 4 * i) h
    rw [readIndices]
    generalize readIndexWord s (a + 4 + 4 * i) = x at h1 ⊢
    obtain ⟨t, u⟩ := x
    cases t with
    | bad st y => exact h1
    | zero => exact ih (i + 1) h1
    | off o => exact ih (i + 1) h1

theorem readCountWord_steady (nm : kp.mem = none) {s : State} (fa : Nat) (hh0 : Steady kp s) :
    Steady kp (readCountWord s fa).2 := by
  unfold readCountWord
  repeat' (first
    | with_reducible assumption
    | with_reducible apply hh0
    | with_reducible apply readIndexWord_steady
    | with_reducible refine Steady.ite ?_ ?_
    | with_reducible refine Steady.ite_snd ?_ ?_
    | ((try lift_lets -underBinder); intro s1; (refine (fun (h2 : Steady kp s1) => ?_) (?_ : Steady kp s1)) <;> [clear_value s1; subst s1])
    | ((try lift_lets -underBinder); intro s1; (refine (fun (h2 : Steady kp s1.2) => ?_) (?_ : Steady kp s1.2)) <;> [clear_value s1; subst s1])
    | ((try lift_lets -underBinder); intro s1)
    | simp -zeta only [steady_upd]
    | (split <;> try first | (refine (fun (h2 : Steady kp _) => ?_) (Steady.of_pair (by assumption) ?_)) | (refine (fun (h2 : Steady kp _) => ?_) (Steady.of_pair_fst (by assumption) ?_)) | (refine (fun (h2 : Steady kp _) => ?_) (Steady.of_triple (by assumption) ?_)) | (refine (fun (h2 : Steady kp _) => ?_) (Steady.of_some_pair (by assumption) ?_)) | (refine (fun (h2 : Steady kp _) => ?_) (Steady.of_some_quad (by assumption) ?_)) | (refine (fun (h2 : Steady kp _) => ?_) (Steady.of_some (by assumption) ?_)))
    | clear_value *)

theorem indirectTerms_steady (nm : kp.mem = none) (e : List Byte) (j : Nat) {s : State} (h : Steady kp s) : Steady kp (indirectTerms e j s).2 := by
  have h1 := readCountWord_steady (kp := kp) nm (patIndAddr e) h
  unfold indirectTerms
  dsimp only
  generalize readCountWord s (patIndAddr e) = x at h1 ⊢
  obtain ⟨t, u⟩ := x
  cases t with
  | bad st y => exact h1
  | zero => exact h1
  | off o =>
    dsimp only
    split
    · exact h1
    · exact readIndices_steady nm _ _ _ h1

theorem patTerms_steady (nm : kp.mem = none) (e : List Byte) (l : List Nat) {s : State} (h : Steady kp s) : Steady kp (patTerms e l s).2 := by
  induction l generalizing s with
  | nil => exact h
  | cons j js ih =>
    simp only [patTerms]
    split
    · exact ih (indirectTerms_steady nm e j h)
    · exact ih h

theorem patStream_steady (nm : kp.mem = none) (e : List Byte) (disp : Int) {s : State} (h : Steady kp s) : Steady kp (patStream e disp s).2 :=
  patTerms_steady nm e _ h

end Sys2Proof.Machine
end

