-- ==== Sys2Proof/Laws/SteadyFlags.lean ====
section
/-!
SUPPORT. Every operation of Machine/Flags.lean keeps what Laws/Steady.lean names.
-/

set_option linter.unusedTactic false
set_option linter.unreachableTactic false
set_option linter.unusedVariables false

namespace Sys2Proof.Machine

variable {kp : Kept}

theorem setFlagVal_steady (nf : kp.flags = none) {s : State} (c f : Nat) (v : Word) (h : Steady kp s) : Steady kp (s.setFlagVal c f v) :=
  ⟨h.mem, h.cnt, smWf_smSet h.flags _ _, h.pending, h.fuses, h.memIs, fun x hx => by simp [nf] at hx⟩

theorem setFlagPois_steady (nf : kp.flags = none) {s : State} (c f : Nat) (b : Bool) (h : Steady kp s) : Steady kp (s.setFlagPois c f b) :=
  ⟨h.mem, h.cnt, h.flags, h.pending, h.fuses, h.memIs, fun x hx => by simp [nf] at hx⟩

theorem evalWaits_steady {s : State} (c : Nat) (hh0 : Steady kp s) :
    Steady kp (evalWaits s c) := by
  unfold evalWaits
  repeat' (first
    | with_reducible assumption
    | with_reducible apply hh0
    | with_reducible apply modCore_steady
    | with_reducible refine Steady.ite ?_ ?_
    | with_reducible refine Steady.ite_snd ?_ ?_
    | (intro s1 a1 (h1 : Steady kp _); beta_reduce)
    | (intro s1 (h1 : Steady kp _); beta_reduce)
    | ((try lift_lets -underBinder); intro s1; (refine (fun (h2 : Steady kp s1) => ?_) (?_ : Steady kp s1)) <;> [clear_value s1; subst s1])
    | ((try lift_lets -underBinder); intro s1; (refine (fun (h2 : Steady kp s1.2) => ?_) (?_ : Steady kp s1.2)) <;> [clear_value s1; subst s1])
    | ((try lift_lets -underBinder); intro s1)
    | simp -zeta only [steady_upd]
    | (split <;> try first | (refine (fun (h2 : Steady kp _) => ?_) (Steady.of_pair (by assumption) ?_)) | (refine (fun (h2 : Steady kp _) => ?_) (Steady.of_pair_fst (by assumption) ?_)) | (refine (fun (h2 : Steady kp _) => ?_) (Steady.of_triple (by assumption) ?_)) | (refine (fun (h2 : Steady kp _) => ?_) (Steady.of_some_pair (by assumption) ?_)) | (refine (fun (h2 : Steady kp _) => ?_) (Steady.of_some_quad (by assumption) ?_)) | (refine (fun (h2 : Steady kp _) => ?_) (Steady.of_some (by assumption) ?_)))
    | clear_value *)

theorem changeFlag_steady (nf : kp.flags = none) {s : State} (c f : Nat) (v : Word) (hh0 : Steady kp s) :
    Steady kp (changeFlag s c f v) := by
  unfold changeFlag
  repeat' (first
    | with_reducible assumption
    | with_reducible apply hh0
    | with_reducible apply setFlagPois_steady
    | with_reducible apply setFlagVal_steady
    | with_reducible apply errOcc_steady
    | with_reducible apply evalWaits_steady
    | with_reducible apply takeCrcInjection_steady
    | with_reducible refine Steady.ite ?_ ?_
    | with_reducible refine Steady.ite_snd ?_ ?_
    | ((try lift_lets -underBinder); intro s1; (refine (fun (h2 : Steady kp s1) => ?_) (?_ : Steady kp s1)) <;> [clear_value s1; subst s1])
    | ((try lift_lets -underBinder); intro s1; (refine (fun (h2 : Steady kp s1.2) => ?_) (?_ : Steady kp s1.2)) <;> [clear_value s1; subst s1])
    | ((try lift_lets -underBinder); intro s1)
    | simp -zeta only [steady_upd]
    | (split <;> try first | (refine (fun (h2 : Steady kp _) => ?_) (Steady.of_pair (by assumption) ?_)) | (refine (fun (h2 : Steady kp _) => ?_) (Steady.of_pair_fst (by assumption) ?_)) | (refine (fun (h2 : Steady kp _) => ?_) (Steady.of_triple (by assumption) ?_)) | (refine (fun (h2 : Steady kp _) => ?_) (Steady.of_some_pair (by assumption) ?_)) | (refine (fun (h2 : Steady kp _) => ?_) (Steady.of_some_quad (by assumption) ?_)) | (refine (fun (h2 : Steady kp _) => ?_) (Steady.of_some (by assumption) ?_)))
    | clear_value *)

theorem applySignal_steady (nf : kp.flags = none) {s : State} (c : Nat) (i : FlagInc) (hh0 : Steady kp s) :
    Steady kp (applySignal s c i) := by
  unfold applySignal
  repeat' (first
    | with_reducible assumption
    | with_reducible apply hh0
    | with_reducible apply setFlagPois_steady
    | with_reducible apply changeFlag_steady
    | with_reducible refine Steady.ite ?_ ?_
    | with_reducible refine Steady.ite_snd ?_ ?_
    | ((try lift_lets -underBinder); intro s1; (refine (fun (h2 : Steady kp s1) => ?_) (?_ : Steady kp s1)) <;> [clear_value s1; subst s1])
    | ((try lift_lets -underBinder); intro s1; (refine (fun (h2 : Steady kp s1.2) => ?_) (?_ : Steady kp s1.2)) <;> [clear_value s1; subst s1])
    | ((try lift_lets -underBinder); intro s1)
    | simp -zeta only [steady_upd]
    | (split <;> try first | (refine (fun (h2 : Steady kp _) => ?_) (Steady.of_pair (by assumption) ?_)) | (refine (fun (h2 : Steady kp _) => ?_) (Steady.of_pair_fst (by assumption) ?_)) | (refine (fun (h2 : Steady kp _) => ?_) (Steady.of_triple (by assumption) ?_)) | (refine (fun (h2 : Steady kp _) => ?_) (Steady.of_some_pair (by assumption) ?_)) | (refine (fun (h2 : Steady kp _) => ?_) (Steady.of_some_quad (by assumption) ?_)) | (refine (fun (h2 : Steady kp _) => ?_) (Steady.of_some (by assumption) ?_)))
    | clear_value *)

theorem drainIncs_steady (nf : kp.flags = none) {s : State} (c : Nat) (hh0 : Steady kp s) :
    Steady kp (drainIncs s c) := by
  unfold drainIncs
  repeat' (first
    | with_reducible assumption
    | with_reducible apply hh0
    | with_reducible apply modCore_steady
    | with_reducible apply applySignal_steady
    | (with_reducible refine foldl_steady ?_ ?_ _)
    | (with_reducible refine foldl_steady_snd ?_ ?_ _)
    | (with_reducible refine foldl_steady_fst ?_ ?_ _)
    | (with_reducible refine foldl_steady_snd_snd ?_ ?_ _)
    | with_reducible refine Steady.ite ?_ ?_
    | with_reducible refine Steady.ite_snd ?_ ?_
    | (intro s1 a1 (h1 : Steady kp _); beta_reduce)
    | (intro s1 (h1 : Steady kp _); beta_reduce)
    | ((try lift_lets -underBinder); intro s1; (refine (fun (h2 : Steady kp s1) => ?_) (?_ : Steady kp s1)) <;> [clear_value s1; subst s1])
    | ((try lift_lets -underBinder); intro s1; (refine (fun (h2 : Steady kp s1.2) => ?_) (?_ : Steady kp s1.2)) <;> [clear_value s1; subst s1])
    | ((try lift_lets -underBinder); intro s1)
    | simp -zeta only [steady_upd]
    | (split <;> try first | (refine (fun (h2 : Steady kp _) => ?_) (Steady.of_pair (by assumption) ?_)) | (refine (fun (h2 : Steady kp _) => ?_) (Steady.of_pair_fst (by assumption) ?_)) | (refine (fun (h2 : Steady kp _) => ?_) (Steady.of_triple (by assumption) ?_)) | (refine (fun (h2 : Steady kp _) => ?_) (Steady.of_some_pair (by assumption) ?_)) | (refine (fun (h2 : Steady kp _) => ?_) (Steady.of_some_quad (by assumption) ?_)) | (refine (fun (h2 : Steady kp _) => ?_) (Steady.of_some (by assumption) ?_)))
    | clear_value *)

theorem takeSignal_steady (nf : kp.flags = none) {s : State} (c : Nat) (i : FlagInc) (ahead : Nat) (hh0 : Steady kp s) :
    Steady kp (takeSignal s c i ahead) := by
  unfold takeSignal
  repeat' (first
    | with_reducible assumption
    | with_reducible apply hh0
    | with_reducible apply modCore_steady
    | with_reducible apply applySignal_steady
    | with_reducible apply drainIncs_steady
    | with_reducible refine Steady.ite ?_ ?_
    | with_reducible refine Steady.ite_snd ?_ ?_
    | (intro s1 a1 (h1 : Steady kp _); beta_reduce)
    | (intro s1 (h1 : Steady kp _); beta_reduce)
    | ((try lift_lets -underBinder); intro s1; (refine (fun (h2 : Steady kp s1) => ?_) (?_ : Steady kp s1)) <;> [clear_value s1; subst s1])
    | ((try lift_lets -underBinder); intro s1; (refine (fun (h2 : Steady kp s1.2) => ?_) (?_ : Steady kp s1.2)) <;> [clear_value s1; subst s1])
    | ((try lift_lets -underBinder); intro s1)
    | simp -zeta only [steady_upd]
    | (split <;> try first | (refine (fun (h2 : Steady kp _) => ?_) (Steady.of_pair (by assumption) ?_)) | (refine (fun (h2 : Steady kp _) => ?_) (Steady.of_pair_fst (by assumption) ?_)) | (refine (fun (h2 : Steady kp _) => ?_) (Steady.of_triple (by assumption) ?_)) | (refine (fun (h2 : Steady kp _) => ?_) (Steady.of_some_pair (by assumption) ?_)) | (refine (fun (h2 : Steady kp _) => ?_) (Steady.of_some_quad (by assumption) ?_)) | (refine (fun (h2 : Steady kp _) => ?_) (Steady.of_some (by assumption) ?_)))
    | clear_value *)

theorem loadFlag_steady (nf : kp.flags = none) {s : State} (c f : Nat) (v : Word) (clear : Bool) (hh0 : Steady kp s) :
    Steady kp (loadFlag s c f v clear) := by
  unfold loadFlag
  repeat' (first
    | with_reducible assumption
    | with_reducible apply hh0
    | with_reducible apply setFlagPois_steady
    | with_reducible apply changeFlag_steady
    | with_reducible apply drainIncs_steady
    | with_reducible refine Steady.ite ?_ ?_
    | with_reducible refine Steady.ite_snd ?_ ?_
    | ((try lift_lets -underBinder); intro s1; (refine (fun (h2 : Steady kp s1) => ?_) (?_ : Steady kp s1)) <;> [clear_value s1; subst s1])
    | ((try lift_lets -underBinder); intro s1; (refine (fun (h2 : Steady kp s1.2) => ?_) (?_ : Steady kp s1.2)) <;> [clear_value s1; subst s1])
    | ((try lift_lets -underBinder); intro s1)
    | simp -zeta only [steady_upd]
    | (split <;> try first | (refine (fun (h2 : Steady kp _) => ?_) (Steady.of_pair (by assumption) ?_)) | (refine (fun (h2 : Steady kp _) => ?_) (Steady.of_pair_fst (by assumption) ?_)) | (refine (fun (h2 : Steady kp _) => ?_) (Steady.of_triple (by assumption) ?_)) | (refine (fun (h2 : Steady kp _) => ?_) (Steady.of_some_pair (by assumption) ?_)) | (refine (fun (h2 : Steady kp _) => ?_) (Steady.of_some_quad (by assumption) ?_)) | (refine (fun (h2 : Steady kp _) => ?_) (Steady.of_some (by assumption) ?_)))
    | clear_value *)

theorem outsideSignal_steady (nf : kp.flags = none) {s : State} (c : Nat) (i : FlagInc) (hh0 : Steady kp s) :
    Steady kp (outsideSignal s c i) := by
  unfold outsideSignal
  repeat' (first
    | with_reducible assumption
    | with_reducible apply hh0
    | with_reducible apply freeNat_steady
    | with_reducible apply errOcc_steady
    | with_reducible apply takeSignal_steady
    | with_reducible refine Steady.ite ?_ ?_
    | with_reducible refine Steady.ite_snd ?_ ?_
    | ((try lift_lets -underBinder); intro s1; (refine (fun (h2 : Steady kp s1) => ?_) (?_ : Steady kp s1)) <;> [clear_value s1; subst s1])
    | ((try lift_lets -underBinder); intro s1; (refine (fun (h2 : Steady kp s1.2) => ?_) (?_ : Steady kp s1.2)) <;> [clear_value s1; subst s1])
    | ((try lift_lets -underBinder); intro s1)
    | simp -zeta only [steady_upd]
    | (split <;> try first | (refine (fun (h2 : Steady kp _) => ?_) (Steady.of_pair (by assumption) ?_)) | (refine (fun (h2 : Steady kp _) => ?_) (Steady.of_pair_fst (by assumption) ?_)) | (refine (fun (h2 : Steady kp _) => ?_) (Steady.of_triple (by assumption) ?_)) | (refine (fun (h2 : Steady kp _) => ?_) (Steady.of_some_pair (by assumption) ?_)) | (refine (fun (h2 : Steady kp _) => ?_) (Steady.of_some_quad (by assumption) ?_)) | (refine (fun (h2 : Steady kp _) => ?_) (Steady.of_some (by assumption) ?_)))
    | clear_value *)

theorem setTxDst_steady {s : State} (d : Nat) (x : TxDst) (hh0 : Steady kp s) :
    Steady kp (State.setTxDst s d x) := by
  unfold State.setTxDst
  repeat' (first
    | with_reducible assumption
    | with_reducible apply hh0
    | with_reducible refine Steady.ite ?_ ?_
    | with_reducible refine Steady.ite_snd ?_ ?_
    | ((try lift_lets -underBinder); intro s1; (refine (fun (h2 : Steady kp s1) => ?_) (?_ : Steady kp s1)) <;> [clear_value s1; subst s1])
    | ((try lift_lets -underBinder); intro s1; (refine (fun (h2 : Steady kp s1.2) => ?_) (?_ : Steady kp s1.2)) <;> [clear_value s1; subst s1])
    | ((try lift_lets -underBinder); intro s1)
    | simp -zeta only [steady_upd]
    | (split <;> try first | (refine (fun (h2 : Steady kp _) => ?_) (Steady.of_pair (by assumption) ?_)) | (refine (fun (h2 : Steady kp _) => ?_) (Steady.of_pair_fst (by assumption) ?_)) | (refine (fun (h2 : Steady kp _) => ?_) (Steady.of_triple (by assumption) ?_)) | (refine (fun (h2 : Steady kp _) => ?_) (Steady.of_some_pair (by assumption) ?_)) | (refine (fun (h2 : Steady kp _) => ?_) (Steady.of_some_quad (by assumption) ?_)) | (refine (fun (h2 : Steady kp _) => ?_) (Steady.of_some (by assumption) ?_)))
    | clear_value *)

theorem sendSeq_steady {s : State} (t : TxPkt) (hh0 : Steady kp s) :
    Steady kp (sendSeq s t) := by
  unfold sendSeq
  repeat' (first
    | with_reducible assumption
    | with_reducible apply hh0
    | with_reducible apply setTxDst_steady
    | with_reducible refine Steady.ite ?_ ?_
    | with_reducible refine Steady.ite_snd ?_ ?_
    | ((try lift_lets -underBinder); intro s1; (refine (fun (h2 : Steady kp s1) => ?_) (?_ : Steady kp s1)) <;> [clear_value s1; subst s1])
    | ((try lift_lets -underBinder); intro s1; (refine (fun (h2 : Steady kp s1.2) => ?_) (?_ : Steady kp s1.2)) <;> [clear_value s1; subst s1])
    | ((try lift_lets -underBinder); intro s1)
    | simp -zeta only [steady_upd]
    | (split <;> try first | (refine (fun (h2 : Steady kp _) => ?_) (Steady.of_pair (by assumption) ?_)) | (refine (fun (h2 : Steady kp _) => ?_) (Steady.of_pair_fst (by assumption) ?_)) | (refine (fun (h2 : Steady kp _) => ?_) (Steady.of_triple (by assumption) ?_)) | (refine (fun (h2 : Steady kp _) => ?_) (Steady.of_some_pair (by assumption) ?_)) | (refine (fun (h2 : Steady kp _) => ?_) (Steady.of_some_quad (by assumption) ?_)) | (refine (fun (h2 : Steady kp _) => ?_) (Steady.of_some (by assumption) ?_)))
    | clear_value *)

theorem windowParity_steady {s : State} (c : Nat) (hh0 : Steady kp s) :
    Steady kp (windowParity s c) := by
  unfold windowParity
  repeat' (first
    | with_reducible assumption
    | with_reducible apply hh0
    | with_reducible apply errOcc_steady
    | with_reducible apply takeCrcInjection_steady
    | with_reducible refine Steady.ite ?_ ?_
    | with_reducible refine Steady.ite_snd ?_ ?_
    | ((try lift_lets -underBinder); intro s1; (refine (fun (h2 : Steady kp s1) => ?_) (?_ : Steady kp s1)) <;> [clear_value s1; subst s1])
    | ((try lift_lets -underBinder); intro s1; (refine (fun (h2 : Steady kp s1.2) => ?_) (?_ : Steady kp s1.2)) <;> [clear_value s1; subst s1])
    | ((try lift_lets -underBinder); intro s1)
    | simp -zeta only [steady_upd]
    | (split <;> try first | (refine (fun (h2 : Steady kp _) => ?_) (Steady.of_pair (by assumption) ?_)) | (refine (fun (h2 : Steady kp _) => ?_) (Steady.of_pair_fst (by assumption) ?_)) | (refine (fun (h2 : Steady kp _) => ?_) (Steady.of_triple (by assumption) ?_)) | (refine (fun (h2 : Steady kp _) => ?_) (Steady.of_some_pair (by assumption) ?_)) | (refine (fun (h2 : Steady kp _) => ?_) (Steady.of_some_quad (by assumption) ?_)) | (refine (fun (h2 : Steady kp _) => ?_) (Steady.of_some (by assumption) ?_)))
    | clear_value *)

theorem sendSignal_steady (nf : kp.flags = none) {s : State} (c x : Nat) (fence poison checked : Bool) (ahead : Nat) (hh0 : Steady kp s) :
    Steady kp (sendSignal s c x fence poison checked ahead) := by
  unfold sendSignal
  repeat' (first
    | with_reducible assumption
    | with_reducible apply hh0
    | with_reducible apply outsideSignal_steady
    | with_reducible apply sendSeq_steady
    | with_reducible apply takeSignal_steady
    | with_reducible refine Steady.ite ?_ ?_
    | with_reducible refine Steady.ite_snd ?_ ?_
    | ((try lift_lets -underBinder); intro s1; (refine (fun (h2 : Steady kp s1) => ?_) (?_ : Steady kp s1)) <;> [clear_value s1; subst s1])
    | ((try lift_lets -underBinder); intro s1; (refine (fun (h2 : Steady kp s1.2) => ?_) (?_ : Steady kp s1.2)) <;> [clear_value s1; subst s1])
    | ((try lift_lets -underBinder); intro s1)
    | simp -zeta only [steady_upd]
    | (split <;> try first | (refine (fun (h2 : Steady kp _) => ?_) (Steady.of_pair (by assumption) ?_)) | (refine (fun (h2 : Steady kp _) => ?_) (Steady.of_pair_fst (by assumption) ?_)) | (refine (fun (h2 : Steady kp _) => ?_) (Steady.of_triple (by assumption) ?_)) | (refine (fun (h2 : Steady kp _) => ?_) (Steady.of_some_pair (by assumption) ?_)) | (refine (fun (h2 : Steady kp _) => ?_) (Steady.of_some_quad (by assumption) ?_)) | (refine (fun (h2 : Steady kp _) => ?_) (Steady.of_some (by assumption) ?_)))
    | clear_value *)

theorem sendSignals_steady (nf : kp.flags = none) {s : State} (c : Nat) (d : List Byte) (poison checked : Bool) (ahead : Nat) (hh0 : Steady kp s) :
    Steady kp (sendSignals s c d poison checked ahead) := by
  unfold sendSignals
  repeat' (first
    | with_reducible assumption
    | with_reducible apply hh0
    | with_reducible apply sendSignal_steady
    | (with_reducible refine foldl_steady ?_ ?_ _)
    | (with_reducible refine foldl_steady_snd ?_ ?_ _)
    | (with_reducible refine foldl_steady_fst ?_ ?_ _)
    | (with_reducible refine foldl_steady_snd_snd ?_ ?_ _)
    | with_reducible refine Steady.ite ?_ ?_
    | with_reducible refine Steady.ite_snd ?_ ?_
    | (intro s1 a1 (h1 : Steady kp _); beta_reduce)
    | (intro s1 (h1 : Steady kp _); beta_reduce)
    | ((try lift_lets -underBinder); intro s1; (refine (fun (h2 : Steady kp s1) => ?_) (?_ : Steady kp s1)) <;> [clear_value s1; subst s1])
    | ((try lift_lets -underBinder); intro s1; (refine (fun (h2 : Steady kp s1.2) => ?_) (?_ : Steady kp s1.2)) <;> [clear_value s1; subst s1])
    | ((try lift_lets -underBinder); intro s1)
    | simp -zeta only [steady_upd]
    | (split <;> try first | (refine (fun (h2 : Steady kp _) => ?_) (Steady.of_pair (by assumption) ?_)) | (refine (fun (h2 : Steady kp _) => ?_) (Steady.of_pair_fst (by assumption) ?_)) | (refine (fun (h2 : Steady kp _) => ?_) (Steady.of_triple (by assumption) ?_)) | (refine (fun (h2 : Steady kp _) => ?_) (Steady.of_some_pair (by assumption) ?_)) | (refine (fun (h2 : Steady kp _) => ?_) (Steady.of_some_quad (by assumption) ?_)) | (refine (fun (h2 : Steady kp _) => ?_) (Steady.of_some (by assumption) ?_)))
    | clear_value *)

end Sys2Proof.Machine
end

