-- ==== Sys2Proof/WellFormed.lean ====
section
/-!
DEFINITION. Well-formed commands: every operand fits the field the spec gives it. The meanings do not assume it; it says which
commands an environment that follows the spec's formats can send.
-/

namespace Sys2Proof

/-- Is `n` a value of a field of `w` bits. -/
def fits (w n : Nat) : Bool := decide (n < 2 ^ w)

/-- A short stamp (R400) holds a nanosecond count below one second. -/
def Stamp.wf (t : Stamp) : Bool := fits 18 t.sec && decide (t.ns < 1000000000) && fits 16 t.frac

/-- A frame has 2,625 information bytes and 2,240 symbols of 10 bits, each named once (R257, R258). -/
def Frame.wf (f : Frame) : Bool :=
  f.bytes.length == 2625 && decide (f.errs.map (·.1)).Nodup && f.errs.all (fun e => decide (e.1 < 2240) && decide (0 < e.2) && fits 10 e.2)
    && f.arrival.wf && f.depart.wf

/-- A frame of the least Ethernet size and above; no more codewords corrected than carry it, of 514 symbols of 10 bits each (R473). -/
def HostFrame.wf (f : HostFrame) : Bool := decide (64 ≤ f.bytes.length) && decide (642 * f.fecCorr ≤ f.bytes.length + 1284)

/-- The requesters of R526: 16 sessions, and devices by number. -/
def Writer.wf : Writer → Bool
  | .session k => decide (k < 16)
  | .firmware => true
  | .device n => fits 14 n

/-- Lane pairs, rings and planes of the device (R229, R236). -/
def EpochTests.wf (t : EpochTests) : Bool :=
  t.quarPass.all (fun x => fits 6 x.1 && fits 5 x.2) && t.quarFail.all (fun x => fits 6 x.1 && fits 5 x.2)
    && t.sparePass.all (fun x => fits 3 x.1 && fits 3 x.2.1 && decide (x.2.2 < 36)) && t.planePass.all (fits 6)

/-- Symbols of a plate codeword (R210): 64 of data, 8 of check, each named once. -/
def plateSyms (l : List SymErr) : Bool := decide (l.map (·.sym)).Nodup && l.all (fun e => decide (e.sym < 72) && e.flip != 0)

/-- Symbols of an SRAM line (R214): 32 of data, 8 of check, each named once. -/
def sramSyms (l : List SymErr) : Bool := decide (l.map (·.sym)).Nodup && l.all (fun e => decide (e.sym < 40) && e.flip != 0)

/-- Well-formed commands. -/
def Instr.wf : Instr → Bool
  | .sramScrubRead _ _ errs => sramSyms errs
  | .plateRead off errs => off % 64 == 0 && plateSyms errs
  | .plateScrubRead off errs => off % 64 == 0 && plateSyms errs
  -- a combined write lies in one aligned block of 256 bytes (R209)
  | .plateWrite off data _ => decide (0 < data.length) && decide (off % 256 + data.length ≤ 256)
  | .epochBoundary tests => tests.wf
  | .frameReceive _ _ fr => fr.wf
  | .opticalPowerSample _ _ _ fibOut fibIn => fibOut.length == 8 && fibIn.length == 8
  | .linkRetransmit _ lseq => fits 16 lseq
  | .e2eRetransmit _ _ eseq => fits 32 eseq
  | .sensorSample samples => samples.all (fun x => fits 7 x.sensor)
  | .hostFrameReceive fr => fr.wf
  | .plateTrainingDone failed => failed.all (fits 4)
  | .coreTestDone failed => failed.all (fun x => decide (x.1 < 2304))
  -- bridge numbers of R446
  | .bridgeTestDone failed => failed.all (fun n => decide (n < 10) || (decide (16 ≤ n) && decide (n < 42)))
  | .strelistStartupTest tests loopback engines =>
    tests.shuffle.all (fits 6) && tests.deadDies.all (fits 3) && tests.deadXdma.all (fits 5) && tests.deadColl.all (fits 3) && loopback.all (fits 6) && engines.all (fun x => fits 4 x.1)
  | .claimAcquire w _ _ => w.wf
  | .claimRelease w _ _ => w.wf
  | .claimForceRelease w _ _ => w.wf
  -- CSR access is by aligned words (R520)
  | .csrRegisterWrite w _ off _ => w.wf && off.toNat % 4 == 0
  | .dbgDieChange w _ => w.wf
  | _ => true

end Sys2Proof
end

