-- ==== Sys2Proof/Tests/Slice0.lean ====
section
/-!
SUPPORT. Tests. A theorem named witness_<what> shows a state and operands that meet the hypotheses of a statement of
Certificates/Slice0/Obligations.lean, clause by clause; where a clause asks that a signature verify or that a hash has a value, its
premise holds or fails with the free functions of Config, and no test settles it. A theorem wf_rejects_<what> gives an ill-formed
command to each check of WellFormed. A theorem test_<what> holds a worked example or a value of the spec, named in its comment,
against the model.
-/

open Sys2Proof Sys2Proof.Machine Sys2Proof.Safety

namespace Sys2Proof.Tests

/-- The device with its rails up. -/
def up : State := { State.reset with pins := { State.reset.pins with vin := true, pwrEn := true, mated := true, pwrGood := true } }
/-- A device with its number. -/
def numbered (s : State) : State := s.setFlds pgMbr [(MBR_DEVNUM_VALID, 1), (MBR_DEVNUM_NUMBER, 0)]
def c0 : CoreId := 0
/-- Bytes of a descriptor: the low bytes given, zeros up to 64. -/
def descOf (l : List Byte) : List Byte := l ++ List.replicate (64 - l.length) 0
/-- A descriptor with its opcode, class and instance byte, TAG and operands. -/
def desc (op cls inst tag : Nat) (a b c : Nat) : List Byte :=
  leBytes 1 op ++ leBytes 1 (32 * cls + inst) ++ [0, 0] ++ leBytes 2 tag ++ [0, 0] ++ List.replicate 32 0 ++ leBytes 8 a ++ leBytes 8 b ++ leBytes 8 c
def entry (d : List Byte) : WinEntry := ⟨0, 0, 0, d, [none, none, none], none, none, true, [true, true, true, true], []⟩
/-- Core 0 with ring 0 enabled, 16 entries, one descriptor waiting, and the given window. -/
def ring (w : List WinEntry) : State :=
  (up.setFlds (pgGrv 0) [(qField GRV_QCTRL_EN 0, 1), (qField GRV_QCTRL_WMAX 0, 8), (qField GRV_QCTRL_LOG2SIZE 0, 4), (qField GRV_QTAIL_TAIL 0, 1)]).modCore 0
    (fun x => { x with window := w })

/-! ### Witnesses: the graver -/

theorem witness_power : up.pins.pwrGood = true ∧ up.running = true ∧ up.inFault = false := by decide

theorem witness_DoorbellMovesTail :
    (let used := ((16#16).toNat + 65536 - qHead (ring []) 0 0) % 65536
     let moved := ((16#16).toNat + 65536 - qTail (ring []) 0 0) % 65536
     used ≤ ringSize (ring []) 0 0 ∧ moved ≤ used)
    ∧ ringSize (ring []) 0 0 < ((17#16).toNat + 65536 - qHead (ring []) 0 0) % 65536
    ∧ ((0#16).toNat + 65536 - qHead (ring []) 0 0) % 65536 < ((0#16).toNat + 65536 - qTail (ring []) 0 0) % 65536 := by decide

theorem witness_FetchAdvances :
    let s := ring []
    let r := readRun false (⟨[], [], []⟩, s.modCore c0 (fun x => { x with rr := 0 })) (descAddr s c0 0 (qFetch s c0 0)) 64
    s.pins.pwrGood = true ∧ s.running = true ∧ (s.core c0).window.length < 32 ∧ fetchRing s c0 = some 0
      ∧ s.flag (pgGrv c0) ERR_INJECT_ARM = false ∧ s.flag pgFlt ERR_INJECT_ARM = false ∧ r.1.bad = [] := by decide

theorem issuesIf {s : State} {c : Nat} {e : WinEntry} {op : Nat}
    (h : s.pins.pwrGood = true ∧ candidate s c = some e ∧ e.bad = none ∧ descOpcode e.desc = op
      ∧ descInst e.desc < classInstances (descClass e.desc) ∧ brkCause s c e = none ∧ (s.core c).stepping = false
      ∧ s.flag pgMem ERR_INJECT_ARM = false ∧ commonVerdict s c e = none ∧ sigVerdict s c e.desc = none) : Issues s c e op :=
  ⟨h.1, h.2.1, h.2.2.1, h.2.2.2.1, h.2.2.2.2.1, h.2.2.2.2.2.1, h.2.2.2.2.2.2.1, h.2.2.2.2.2.2.2.1, h.2.2.2.2.2.2.2.2.1, h.2.2.2.2.2.2.2.2.2⟩

/-- A pattern entry without loops: format, base, run; and a reference to a pattern with its PARAM. -/
def pat (fmt base run : Nat) : Option (List Byte) := some (descOf (leBytes 8 base ++ leBytes 1 fmt ++ [0] ++ leBytes 2 run))
def ref (param : Nat) : Nat := 3 * 2 ^ 62 + param
def own (off : Nat) : Nat := mkFa 0 0x3FFF off
def sram0 : Nat := own sramBase

def withPats (e : WinEntry) (l : List (Option (List Byte))) : WinEntry := { e with pats := l }

/-- Entries of the opcodes with operands that pass their checks. -/
def nopE : WinEntry := entry (desc 0 7 0 5 nullRef nullRef nullRef)
def matmulE : WinEntry := withPats (entry (desc 0x10 0 0 5 (ref 2) (ref 1) (ref 0))) [pat 4 sram0 512, pat 4 sram0 64, none]
def vecE (op p0 : Nat) (l : List (Option (List Byte))) : WinEntry := withPats (entry (desc op 1 0 5 (ref p0) (ref 0) (ref 0))) l
def copyE : WinEntry := entry (desc 0x30 2 0 5 sram0 (sram0 + 64) 64)
def fillE : WinEntry := entry (desc 0x31 2 0 5 7 sram0 64)
def selE : WinEntry := withPats (entry (desc 0x38 3 0 5 (ref 0) (ref 0) (ref 0))) [pat 0 sram0 64, pat 0 sram0 8, pat 0 sram0 8]
def far (off : Nat) : Nat := mkFa 0 1 off
def rgetE : WinEntry := entry (desc 0x32 2 0 5 (far 0) sram0 64)
def rputE : WinEntry := entry (desc 0x33 2 0 5 sram0 (far 0) 64)
def ratE : WinEntry := entry (desc 0x34 2 0 5 (far 0) sram0 0)
def xcopyE : WinEntry := entry (desc 0x40 4 0 5 sram0 (sram0 + 64) 64)
def xmcE : WinEntry := entry (desc 0x41 4 0 5 sram0 (own 0) 64)
def xmsE : WinEntry := entry (desc 0x42 4 0 5 (mkFa 2 0x3FFF 0) 1 0)
def collE (op a b x : Nat) : WinEntry := entry (desc op 5 0 5 a b x)
def aloadE : WinEntry := entry (desc 0x60 6 0 5 (own 0) nullRef nullRef)
def streamE (op out len : Nat) : WinEntry := withPats (entry (desc op 6 0 5 (ref 0) (ref 0) nullRef)) [pat 2 (own 0) 64, pat out (own 0x10000) len, none]
def acalE : WinEntry := entry (desc 0x63 6 0 5 nullRef nullRef nullRef)
/-- Core 0 about to issue one entry, in a device with a number, a window on everything, and a group of its own. -/
def about (e : WinEntry) : State :=
  let s := ((ring [e]).setFlds pgMbr [(MBR_DEVNUM_VALID, 1), (MBR_DEVNUM_NUMBER, 0)]).setFld (pgAqt 0) AQT_STAT_OOS 0
  { s with net := { s.net with windows := [⟨0, 0, 0x3FFF, 0, 2 ^ 47, true, true, true, true, true⟩, ⟨2, 0, 0x3FFF, 0, 2 ^ 47, true, true, true, true, true⟩] }
           coll := { s.coll with groups := [(0, ⟨0x80000000, 1, 1, 0, 0⟩)] } }

/-- A descriptor that issues: its state is one in which the opcode's check finds nothing. -/
def issuesWith (e : WinEntry) (op : Nat) (chk : State → WinEntry → Option Verdict) : Prop := Issues (about e) 0 e op ∧ chk (about e) e = none

theorem witness_issue_nop : issuesWith (nopE) 0 (fun _ _ => none (α := Verdict)) :=
  ⟨issuesIf (by decide), by decide⟩
theorem witness_issue_matmul : issuesWith (matmulE) 0x10 (fun s e => checkMatmul s 0 e) :=
  ⟨issuesIf (by decide), by decide⟩
theorem witness_issue_vew : issuesWith (vecE 0x20 0 [pat 0 sram0 64, pat 0 sram0 64, pat 0 sram0 64]) 0x20 (fun s e => checkVec s 0 e) :=
  ⟨issuesIf (by decide), by decide⟩
theorem witness_issue_vtr : issuesWith (vecE 0x21 0 [pat 0 sram0 64, none, pat 0 sram0 64]) 0x21 (fun s e => checkVec s 0 e) :=
  ⟨issuesIf (by decide), by decide⟩
theorem witness_issue_vred : issuesWith (vecE 0x22 0xF0 [pat 0 sram0 64, none, pat 0 sram0 4]) 0x22 (fun s e => checkVec s 0 e) :=
  ⟨issuesIf (by decide), by decide⟩
theorem witness_issue_vsmx : issuesWith (vecE 0x23 0xF0 [pat 0 sram0 64, pat 0 sram0 8, pat 0 sram0 64]) 0x23 (fun s e => checkVec s 0 e) :=
  ⟨issuesIf (by decide), by decide⟩
theorem witness_issue_vcvt : issuesWith (vecE 0x24 0 [pat 0 sram0 64, none, pat 1 sram0 32]) 0x24 (fun s e => checkVec s 0 e) :=
  ⟨issuesIf (by decide), by decide⟩
theorem witness_issue_vbq : issuesWith (vecE 0x25 0 [pat 0 sram0 128, none, pat 7 sram0 48]) 0x25 (fun s e => checkVec s 0 e) :=
  ⟨issuesIf (by decide), by decide⟩
theorem witness_issue_vls : issuesWith (vecE 0x26 0 [pat 0 sram0 64, none, none]) 0x26 (fun s e => checkVec s 0 e) :=
  ⟨issuesIf (by decide), by decide⟩
theorem witness_issue_copy : issuesWith (copyE) 0x30 (fun s e => checkCopy s e) :=
  ⟨issuesIf (by decide), by decide⟩
theorem witness_issue_fill : issuesWith (fillE) 0x31 (fun s e => checkFill s e) :=
  ⟨issuesIf (by decide), by decide⟩
theorem witness_issue_rget : issuesWith (rgetE) 0x32 (fun s e => checkRemote s 0 e 0 .r) :=
  ⟨issuesIf (by decide), by decide⟩
theorem witness_issue_rput : issuesWith (rputE) 0x33 (fun s e => checkRemote s 0 e 1 .w) :=
  ⟨issuesIf (by decide), by decide⟩
theorem witness_issue_ratomic : issuesWith (ratE) 0x34 (fun s e => checkRatomic s 0 e) :=
  ⟨issuesIf (by decide), by decide⟩
theorem witness_issue_select : issuesWith (selE) 0x38 (fun s e => checkSelect s 0 e) :=
  ⟨issuesIf (by decide), by decide⟩
theorem witness_issue_xcopy : issuesWith (xcopyE) 0x40 (fun s e => checkXcopy s 0 e) :=
  ⟨issuesIf (by decide), by decide⟩
theorem witness_issue_xmcast : issuesWith (xmcE) 0x41 (fun s e => checkXmcast s 0 e) :=
  ⟨issuesIf (by decide), by decide⟩
theorem witness_issue_xmsig : issuesWith (xmsE) 0x42 (fun s e => checkXmsig s 0 e) :=
  ⟨issuesIf (by decide), by decide⟩
theorem witness_issue_cbarrier : issuesWith (collE 0x50 nullRef nullRef 0) 0x50 (fun s e => checkColl s e) :=
  ⟨issuesIf (by decide), by decide⟩
theorem witness_issue_cbcast : issuesWith (collE 0x51 (own 0) nullRef (2 ^ 44)) 0x51 (fun s e => checkColl s e) :=
  ⟨issuesIf (by decide), by decide⟩
theorem witness_issue_callgather : issuesWith (collE 0x52 (own 0) (own 64) (2 ^ 44)) 0x52 (fun s e => checkColl s e) :=
  ⟨issuesIf (by decide), by decide⟩
theorem witness_issue_credscat : issuesWith (collE 0x53 (own 0) (own 64) (2 ^ 44)) 0x53 (fun s e => checkColl s e) :=
  ⟨issuesIf (by decide), by decide⟩
theorem witness_issue_callred : issuesWith (collE 0x54 (own 0) (own 64) (2 ^ 44)) 0x54 (fun s e => checkColl s e) :=
  ⟨issuesIf (by decide), by decide⟩
theorem witness_issue_calltoall : issuesWith (collE 0x55 (own 0) (own 64) (2 ^ 44)) 0x55 (fun s e => checkColl s e) :=
  ⟨issuesIf (by decide), by decide⟩
theorem witness_issue_aload : issuesWith (aloadE) 0x60 (fun s e => checkAload s e) :=
  ⟨issuesIf (by decide), by decide⟩
theorem witness_issue_amul : issuesWith (streamE 0x61 0xD 80) 0x61 (fun s e => checkStream s e) :=
  ⟨issuesIf (by decide), by decide⟩
theorem witness_issue_asketch : issuesWith (streamE 0x62 0xE 8) 0x62 (fun s e => checkStream s e) :=
  ⟨issuesIf (by decide), by decide⟩
theorem witness_issue_acal : issuesWith (acalE) 0x63 (fun _ _ => none (α := Verdict)) :=
  ⟨issuesIf (by decide), by decide⟩
theorem witness_issue_flagSet : issuesWith (entry (desc 0x01 7 0 5 (7 * 2 ^ 32 + 9) nullRef nullRef)) 0x01 (fun _ _ => none (α := Verdict)) :=
  ⟨issuesIf (by decide), by decide⟩
theorem witness_issue_event : issuesWith (entry (desc 0x03 7 0 5 9 nullRef nullRef)) 0x03 (fun _ _ => none (α := Verdict)) :=
  ⟨issuesIf (by decide), by decide⟩
theorem witness_issue_trigger : issuesWith (entry (desc 0x02 7 0 5 (mkFa 1 0x3FFF (csrBase + 0x148)) 1 nullRef)) 0x02 (fun s e => checkTrigger s 0 e) :=
  ⟨issuesIf (by decide), by decide⟩

/-- A command of core 0 in the state, as command 1. -/
def withCmd (s : State) (x : Cmd) : State := s.setCmd 1 x
def cmdOf (d : List Byte) : Cmd := { Cmd.none_ with desc := d, cls := descClass d, inst := descInst d, pats := [none, none, none] }
def cmdFrom (e : WinEntry) : Cmd := { cmdOf e.desc with pats := e.pats }

theorem startsIf {s : State} {c cls id : Nat} {q : List Nat}
    (h : q.head? = some id ∧ smHas s.cmds id = true ∧ (s.cmd id).ran = false ∧ (s.cmd id).status = 0 ∧ (s.cmd id).core = c ∧ (s.cmd id).cls = cls
      ∧ s.flag pgFlt ERR_INJECT_ARM = false) : Starts s c cls id q :=
  ⟨h.1, h.2.1, h.2.2.1, h.2.2.2.1, h.2.2.2.2.1, h.2.2.2.2.2.1, h.2.2.2.2.2.2⟩

/-- A vector command at the head of core 0's queue, in which every input reads without a failure. -/
def vecState (e : WinEntry) : State := (withCmd up (cmdFrom e)).modCore 0 (fun x => { x with vec := { x.vec with queue := [1] } })
theorem witness_VecStarts (e : WinEntry) (h : (cmdFrom e).ran = false ∧ (cmdFrom e).status = 0 ∧ (cmdFrom e).core = 0 ∧ (cmdFrom e).cls = 1) :
    VecStarts (vecState e) 0 1 :=
  ⟨startsIf ⟨rfl, rfl, h.1, h.2.1, h.2.2.1, h.2.2.2, show up.flag pgFlt ERR_INJECT_ARM = false by decide⟩, rfl, rfl,
    show up.flag (pgVec 0) ERR_INJECT_ARM = false by decide⟩

theorem witness_VecReads : ∀ x ∈ [(0x20, 0, none), (0x20, 3, pat 0 sram0 64), (0x21, 0, none), (0x22, 0xF0, none), (0x23, 0xF0, none), (0x24, 0, none)],
    let e := vecE x.1 x.2.1 [pat 0 sram0 64, x.2.2, pat 0 sram0 64]
    let s := vecState e
    let a := vecInput s (s.cmd 1) 0
    (cmdFrom e).ran = false ∧ (cmdFrom e).status = 0 ∧ (cmdFrom e).core = 0 ∧ (cmdFrom e).cls = 1
      ∧ a.1.fails = [] ∧ a.1.vals.length = 16 ∧ opParam (s.cmd 1).desc 2 % 4 ≠ 2 ∧ descOpcode (s.cmd 1).desc = x.1
      ∧ (x.2.2 ≠ none → (vecInput a.2 (s.cmd 1) 1).1.fails = []
          ∧ (vecInput (vecInput a.2 (s.cmd 1) 1).2 (s.cmd 1) 2).1.fails = []) := by decide +kernel

theorem witness_VsmxState :
    let s := vecState (vecE 0x23 0xF0 [pat 0 sram0 64, pat 0 sram0 8, pat 0 sram0 64])
    let r := readSlot (vecInput s (s.cmd 1) 0).2 (s.cmd 1) 1 0
    hasPat (s.cmd 1).pats 1 = true ∧ r.1.bad = [] ∧ r.1.soft = [] := by decide +kernel

theorem witness_VbqReads :
    let s := vecState (vecE 0x25 0 [pat 0 sram0 128, none, pat 7 sram0 48])
    let a := vecInput s (s.cmd 1) 0
    let n := countOf (s.cmd 1).pats 0
    descOpcode (s.cmd 1).desc = 0x25 ∧ a.1.fails = [] ∧ a.1.vals.length = n ∧ n % 32 = 0 ∧ opParam (s.cmd 1).desc 2 % 4 ≠ 2 := by decide +kernel

theorem witness_VlsReads :
    let s := vecState (vecE 0x26 0 [pat 0 sram0 64, none, none])
    let r := readSlot s (s.cmd 1) 0 0
    descOpcode (s.cmd 1).desc = 0x26 ∧ r.1.bad = [] ∧ r.1.soft = [] ∧ (vecInput s (s.cmd 1) 0).1.fails = [] ∧ opParam (s.cmd 1).desc 2 % 4 ≠ 2 := by decide +kernel

/-- A DMA command at the head of engine 0 of core 0. -/
def dmaState (e : WinEntry) : State :=
  (withCmd (numbered up) (cmdFrom e)).modCore 0 (fun x => { x with dma0 := { x.dma0 with queue := [1] } })

theorem witness_DmaStarts (e : WinEntry) (h : (cmdFrom e).ran = false ∧ (cmdFrom e).status = 0 ∧ (cmdFrom e).core = 0 ∧ (cmdFrom e).cls = 2) :
    Starts (dmaState e) 0 2 1 (((dmaState e).core 0).eng 2 0).queue ∧ (((dmaState e).core 0).eng 2 0).power = 0 ∧ NoInjection (dmaState e) (pgDma 0) :=
  ⟨startsIf ⟨rfl, rfl, h.1, h.2.1, h.2.2.1, h.2.2.2, show (numbered up).flag pgFlt ERR_INJECT_ARM = false by decide⟩, rfl,
    show (numbered up).flag (pgDma 0) ERR_INJECT_ARM = false by decide⟩

theorem witness_DmaReads :
    (∀ e ∈ [copyE, fillE, rgetE, rputE, ratE], (cmdFrom e).ran = false ∧ (cmdFrom e).status = 0 ∧ (cmdFrom e).core = 0 ∧ (cmdFrom e).cls = 2)
    ∧ (let s := dmaState copyE
       let r := readSlot s (s.cmd 1) 0 (moveLen (s.cmd 1).desc (s.cmd 1).pats [0, 1])
       descOpcode (s.cmd 1).desc = 0x30 ∧ r.1.bad = [] ∧ r.1.soft = [])
    ∧ descOpcode ((dmaState fillE).cmd 1).desc = 0x31
    ∧ (∀ x ∈ [(rgetE, 0x32, 0), (rputE, 0x33, 1), (ratE, 0x34, 0)], let s := dmaState x.1
       hasPat (s.cmd 1).pats 0 = false ∧ hasPat (s.cmd 1).pats 1 = false ∧ descOpcode (s.cmd 1).desc = x.2.1
         ∧ faSpace (descOp (s.cmd 1).desc x.2.2) ≠ 1 ∧ s.fencedDetail (faDev (descOp (s.cmd 1).desc x.2.2)) = none)
    ∧ (let s := dmaState ratE
       let r := (readRuns (ctlPoisonPass (s.cmd 1).desc) [(some (faOff (descOp (s.cmd 1).desc 1)), 16)] s).1
       r.bad = [] ∧ r.soft = []) := by decide +kernel

/-- A SELECT at the head of core 0's sketch matcher: K 1, of which a sink of 1. -/
def selState : State := (withCmd up (cmdFrom selE)).modCore 0 (fun x => { x with skm := { x.skm with queue := [1] } })

theorem witness_SelectStarts : Starts selState 0 3 1 (selState.core 0).skm.queue ∧ (selState.core 0).skm.power = 0 ∧ NoInjection selState (pgSkm 0) :=
  ⟨startsIf (by decide), by decide, show selState.flag (pgSkm 0) ERR_INJECT_ARM = false by decide⟩
theorem witness_SelectReads :
    let x := selState.cmd 1
    let q := readSlot selState x 1 0
    let k := readSlot q.2 x 0 0
    descOpcode x.desc = 0x38 ∧ natBits (opParam x.desc 2) 9 0 + natBits (opParam x.desc 2) 19 10 ≤ natBits (opParam x.desc 1) 9 0 + 1
      ∧ q.1.bad = [] ∧ q.1.soft = [] ∧ k.1.bad = [] ∧ k.1.soft = [] := by decide +kernel

theorem witness_FlagsChange :
    (let s := up.setFld (pgGrv 0) GRV_GCTRL_LOCAL_LIMIT 8
     s.pins.pwrGood = true ∧ s.flag (pgGrv 0) ERR_INJECT_ARM = false ∧ (s.core 0).finc = []
       ∧ (7 : Nat) < s.fld (pgGrv 0) GRV_GCTRL_LOCAL_LIMIT ∧ s.fld (pgGrv 0) GRV_GCTRL_LOCAL_LIMIT ≤ 8)
    ∧ (let s := up.modCore 0 (fun x => { x with finc := [⟨4095, false, 3, true⟩] })
       s.pins.pwrGood = true ∧ s.flag (pgGrv 0) ERR_INJECT_ARM = false ∧ ∀ i ∈ (s.core 0).finc, i.flag < 4096) := by decide

theorem witness_CtlActsDo :
    (countIf (fun x => !x.keeps) (up.events ++ up.host.unacked.map (·.2)) < 4032)
    ∧ (let e := entry (desc 0x02 7 0 5 (mkFa 1 0x3FFF (csrBase + 0x148)) 1 nullRef)
       up.isOwn (faDev (descOp e.desc 0)) = true ∧ qtailOf (faOff (descOp e.desc 0)) = some (0, 0)) := by decide

theorem witness_CtlCompletes :
    let s := (withCmd up { cmdOf nopE.desc with ran := true, status := 7, ring := 7 }).modCore 0 (fun x => { x with ctl := [1] })
    s.running = true ∧ (s.core 0).ctl.find? (fun id => (s.cmd id).ran && (s.cmd id).left == 0) = some 1 ∧ (s.cmd 1).core = 0
      ∧ (s.cmd 1).ring < 8 ∧ (s.cmd 1).status ≠ 0 ∧ (s.cmd 1).src = none ∧ (grvSource (s.cmd 1).status).isSome = true := by decide

/-- An entry of ring 0 with one unmet wait on flag 9. -/
def waiting : WinEntry := { entry ([0, 0xE0, 0, 0, 5, 0, 1, 0, 9, 0x10] ++ List.replicate 54 0) with met := [false, false, false, false] }

theorem witness_GraverTimers :
    (let s := (ring [waiting]).setFlds (pgGrv 0) [(GRV_GCTRL_STALL_EN, 1), (GRV_GCTRL_LOCAL_LIMIT, 16)]
     s.pins.pwrGood = true ∧ stallCond s 0 = true ∧ (s.core 0).window.Pairwise (fun x y => x.seq ≠ y.seq)
       ∧ s.flag (pgGrv 0) (qField GRV_QCTRL_EN 0) = true ∧ oldestOf s 0 0 = some waiting)
    ∧ (let s := (ring [waiting]).setFld (pgGrv 0) (qField GRV_QCTRL_TMO 0) 4
       s.running = true ∧ s.fld (pgGrv 0) (qField GRV_QCTRL_TMO 0) ≠ 0 ∧ s.flag (pgGrv 0) (qField GRV_QSTAT_HALT_BRK 0) = false
         ∧ (s.core 0).window.find? (fun e => e.ring == 0 && !waitsMet e) = some waiting)
    ∧ (let s := up.setFld (pgGrv 0) GRV_BRK_STAT_HIT 1
       s.pins.pwrGood = true ∧ s.flag (pgGrv 0) GRV_BRK_STAT_HIT = true) := by decide

theorem witness_FlushRule :
    let s := (ring []).setFld (pgGrv 0) (qField GRV_QSTAT_FLUSH_PEND 0) 1
    s.pins.pwrGood = true ∧ s.flag (pgGrv 0) (qField GRV_QSTAT_FLUSH_PEND 0) = true ∧ ringBusy s 0 0 = false := by decide

/-! ### Witnesses: the arrays and core memory -/

/-- Core 0 with array 0's queue holding command 1. -/
def arrayWith (x : Cmd) : State := (withCmd up x).modArr 0 0 (fun r => { r with queue := [1] })
def mmCmd : Cmd := { cmdOf matmulE.desc with pats := matmulE.pats }
/-- The weights compressed, one block of 4,096 bytes. -/
def mmComp : Cmd := { cmdOf matmulE.desc with pats := [pat 4 sram0 512, pat 0x24 sram0 4096, none] }
/-- With DRAIN, in the given format. -/
def mmDrain : Cmd := { cmdOf (desc 0x10 0 0 5 (ref 2) (ref 0x201) (ref 0)) with pats := matmulE.pats, ran := true, fed := 128 }

theorem witness_FeedStarts : ∀ x ∈ [mmCmd, mmComp],
    let s := arrayWith x
    s.running = true ∧ smHas s.cmds 1 = true ∧ (s.cmd 1).core = 0 ∧ nextFeed s 0 0 = some 1 ∧ (s.cmd 1).sent = 0
      ∧ (s.cmd 1).inst = descInst (s.cmd 1).desc ∧ (s.cmd 1).inst < 6
      ∧ (∀ b ∈ arraysOf (s.cmd 1).inst, nextFeed s 0 b = some 1 ∧ ((s.core 0).arr b).power = 0) ∧ rampNeeded s 1 = false := by decide

theorem witness_FeedStarts_comp : (matOf mmCmd.desc mmCmd.pats).comp = false ∧ (matOf mmComp.desc mmComp.pats).comp = true := by decide

theorem witness_ColumnDrains :
    let s := arrayWith mmDrain
    s.running = true ∧ smHas s.cmds 1 = true ∧ nextDrain s 0 0 = some (1, 0) := by decide

theorem witness_ColumnDrains_odd :
    let s := (withCmd up { mmDrain with desc := desc 0x10 0 4 5 (ref 2) (ref 0x201) (ref 0), inst := 4 }).modArr 0 1 (fun r => { r with queue := [1] })
    s.running = true ∧ smHas s.cmds 1 = true ∧ nextDrain s 0 1 = some (1, 1) := by decide

theorem witness_BlockEnds : ∀ n ∈ [1, 2],
    let s := arrayWith { mmComp with sent := 1, left := n }
    s.running = true ∧ smHas s.cmds 1 = true ∧ nextFeed s 0 0 = some 1 ∧ (matOf (s.cmd 1).desc (s.cmd 1).pats).comp = true
      ∧ (s.cmd 1).sent ≠ 0 ∧ (s.cmd 1).left ≠ 0 := by decide

theorem witness_ShadingSteps :
    (let s := ((ring [matmulE]).modArr 0 0 (fun r => { r with gap := true })).setFlds (pgArr 0) [(ARR_SHADE_CTRL_EN, 1), (ARR_SHADE_CTRL_THRESH, 1)]
     ((s.core 0).arr 0).gap = true ∧ s.flag (pgArr 0) ARR_SHADE_CTRL_EN = true ∧ ((s.core 0).arr 0).power < 2 ∧ clampStep s 0 = 0
       ∧ windowNames s 0 0 = true ∧ s.fld (pgArr 0) ARR_SHADE_CTRL_THRESH ≠ 0)
    ∧ (∀ x ∈ [(Shade.full, 4), (Shade.down, 2), (Shade.down, 1), (Shade.up, 3)],
        let s := up.modArr 0 0 (fun r => { r with shade := x.1, density := x.2 })
        ((s.core 0).arr 0).shade = x.1 ∧ ((s.core 0).arr 0).density = x.2 ∧ x.2 ≤ shadeCap s 0) := by decide

/-- A range of the tracker: the line it writes, whether a fetch writes it, and whether that is complete. -/
def range (line : Nat) (fetched done : Bool) (a : Option Ack) : InRange := ⟨32 * line, 32 * line + 31, fetched, 0, done, none, [], false, a⟩
def tracking (l : List InRange) : State := up.modCore 0 (fun x => { x with inbound := l })

/-- A completed fetch behind one that is not, and a write behind fetches that are not, without and with a packet to commit; a write that
waits behind 64 ranges; and a fetch that is not complete. -/
theorem witness_InboundTracker :
    (∀ a ∈ [none, some (Ack.seq 1 5 none none)],
      ((tracking [range 0 true false none, range 2 true true a]).core 0).inbound = [range 0 true false none] ++ range 2 true true a :: []
      ∧ (let s := tracking [range 0 true false none, range 2 false false a]
         (∀ x ∈ (s.core 0).inbound.take 64, x.done = false) ∧ (s.core 0).inbound = [range 0 true false none] ++ range 2 false false a :: []))
    ∧ ([] ++ (List.replicate 64 (range 2 false false none)))[63]? = some (range 2 false false none)
    ∧ (range 0 true false none).fetched = true ∧ (range 0 true false none).done = false := by decide

theorem witness_CoreStores :
    let s := up.modCore 0 (fun x => { x with wback := [(5, ())], seedPend := true })
    smHas (s.core 0).wback 5 = true ∧ (s.core 0).seedPend = true := by decide

theorem witness_Scrubs :
    (up.pins.pwrGood = true ∧ up.flag (pgSrm 0) SRM_SCFG_EN = true ∧ up.flag (pgSrm 0) ERR_INJECT_ARM = false ∧ smGet [] up.sramCodes.errs 0 = [])
    ∧ (isPlate up.fuses 0 = true ∧ plateOf up.fuses 0 = 0 ∧ up.flag (pgPlt 0) ERR_INJECT_ARM = false ∧ up.flag (pgPlt 0) PLT_PSTAT_LOST = false
        ∧ up.flag (pgPlt 0) PLT_SCRUB_CFG_EN = true ∧ (up.plate 0).power < 3 ∧ smGet [] up.plateCodes.errs 0 = [] ∧ platePresent up 0 = true
        ∧ rangeExists up.fuses 0 64 = true ∧ (smInsert (up.plate 0).scrubbed 0 ()).length ≠ plateCodewords)
    ∧ (let s := up.setFld (pgPlt 0) PLT_SCRUB_CFG_EN 0
       platePresent s 0 = true ∧ s.flag (pgPlt 0) PLT_SCRUB_CFG_EN = false) := by decide

theorem witness_GranulesSpread : Fuses.init.part.plates = 16 ∧ { Fuses.init with part := .g0804 }.part.plates = 8 := by decide

theorem witness_DieAbsent : (Fuses.init.part).dies = 8 := by decide

/-! ### Witnesses: aquatint -/

/-- Engine 0 in service, awake and idle, with command 1 at the head of its queue. -/
def aqtWith (x : Cmd) (f : AqtSt → AqtSt) : State :=
  ((withCmd up x).setFld (pgAqt 0) AQT_STAT_OOS 0).modAqt 0 (fun a => f { a with queue := [1] })

theorem takesIf {s : State} {e : AqtId} {id op : Nat}
    (h : s.pins.pwrGood = true ∧ (aqtWaiting s e).head? = some id ∧ aqtFree s e = true ∧ (s.aqt e).due = false ∧ (s.aqt e).recalFirst = false
      ∧ descOpcode (s.cmd id).desc = op ∧ smHas s.cmds id = true) : AqtTakes s e id op :=
  ⟨h.1, h.2.1, h.2.2.1, h.2.2.2.1, h.2.2.2.2.1, h.2.2.2.2.2.1, h.2.2.2.2.2.2⟩

def aload : State := aqtWith (cmdOf aloadE.desc) id

theorem witness_AloadTakes : AqtTakes aload 0 1 0x60 := takesIf (by decide)
theorem witness_AloadReads :
    let r := (readSlot aload (aload.cmd 1) 0 imageLen).1
    let u := (readSlot aload (aload.cmd 1) 0 imageLen).2
    r.bad = [] ∧ r.soft = [] ∧ u.flag (pgAqt 0) ERR_INJECT_ARM = false ∧ imageOk r.bytes = false ∧ (u.cmd 1).status = 0 := by decide +kernel

/-- An amplitude image of zeros with its CRC: a well-formed image. -/
def imageOf (z : List Byte) : List Byte :=
  [0xA9, 1, 1, 0, 1, 0, 0, 0, 0, 0, 0x80, 0x3F] ++ (leBytes 4 (crc32c z).toNat ++ (List.replicate 48 0 ++ z))
def goodImage : List Byte := imageOf (List.replicate 24576 0)

theorem drop_imageOf (z : List Byte) : (imageOf z).drop 64 = z := rfl
theorem length_imageOf (z : List Byte) : (imageOf z).length = 64 + z.length := by simp [imageOf, leBytes]; omega

theorem leNat_leBytes4 (x : BitVec 32) : leNat (leBytes 4 x.toNat) = x.toNat := by
  have := x.isLt
  simp [leBytes, leNat, BitVec.toNat_ofNat]
  omega

theorem witness_AloadReads_good : goodImage.length = imageLen ∧ imageOk goodImage = true := by
  have hd : goodImage.drop 64 = List.replicate 24576 0 := drop_imageOf _
  have hc : leAt goodImage 12 4 = (crc32c (List.replicate 24576 0)).toNat := by
    rw [← leNat_leBytes4]; rfl
  have h1 : (leAt goodImage 0 1 == 0xA9 && leAt goodImage 1 1 == 1 && decide (leAt goodImage 2 1 ≤ 1) && leAt goodImage 3 1 == 0 && leAt goodImage 4 4 != 0
    && decide (0 < leAt goodImage 8 4) && decide (leAt goodImage 8 4 < 0x7F800000) && (leAt goodImage 2 1 == 1 || leAt goodImage 8 4 == 0x3F800000)) = true := by decide +kernel
  have h2 : (leAt goodImage 16 48 == 0 && (leAt goodImage 2 1 == 1 || (List.range 64).all (fun i => leAt goodImage (24384 + 2 * i) 2 == 0xFFFF))) = true := by decide +kernel
  have h3 : (List.range 4096).all (fun i => targetOk (leAt goodImage (64 + 2 * i) 2)) = true := by
    rw [List.all_eq_true]
    intro i _
    have e : leAt goodImage (64 + 2 * i) 2 = 0 := by
      unfold leAt
      rw [← List.drop_drop, hd, List.drop_replicate, List.take_replicate]
      generalize min 2 (24576 - 2 * i) = n
      induction n with
      | zero => rfl
      | succ n ih => rw [List.replicate_succ, leNat, ih]; rfl
    rw [e]; rfl
  refine ⟨(length_imageOf _).trans (by rw [List.length_replicate]; rfl), ?_⟩
  simp only [Bool.and_eq_true] at h1 h2
  simp only [imageOk, hd, hc, h1, h2, h3, Bool.and_self, beq_self_eq_true]

/-- AMUL, ASKETCH and ACAL at the head, with IDCHK naming matrix 3 in the first two. -/
def aqtCmd (op : Nat) : Cmd := cmdOf (desc op 6 0 5 (own 0) (own 0x10000) (2 ^ 32 + 3))
theorem witness_AqtNeeds_61 : AqtTakes (aqtWith (aqtCmd 0x61) id) 0 1 0x61 := takesIf (by decide)
theorem witness_AqtNeeds_62 : AqtTakes (aqtWith (aqtCmd 0x62) id) 0 1 0x62 := takesIf (by decide)
theorem witness_AqtNeeds_63 : AqtTakes (aqtWith (aqtCmd 0x63) id) 0 1 0x63 := takesIf (by decide)
theorem witness_AqtRun_61 : AqtTakes (aqtWith (aqtCmd 0x61) (fun a => { a with resident := true })) 0 1 0x61 := takesIf (by decide)
theorem witness_AqtRun_62 : AqtTakes (aqtWith (aqtCmd 0x62) (fun a => { a with resident := true })) 0 1 0x62 := takesIf (by decide)
theorem witness_AqtRun_63 : AqtTakes (aqtWith (aqtCmd 0x63) (fun a => { a with resident := true })) 0 1 0x63 := takesIf (by decide)
/-- The other hypotheses of the three statements on these states. -/
theorem witness_AqtMatrix : ∀ op ∈ [0x61, 0x62, 0x63],
    let s := aqtWith (aqtCmd op) id
    let t := aqtWith (aqtCmd op) (fun a => { a with resident := true })
    let v := t.setFld (pgAqt 0) AQT_MATRIX_ID 3
    (s.cmd 1).status = 0 ∧ (s.aqt 0).resident = false
      ∧ (t.aqt 0).resident = true ∧ (descOp (t.cmd 1).desc 2).testBit 32 = true ∧ descOp (t.cmd 1).desc 2 % 2 ^ 32 ≠ t.fld (pgAqt 0) AQT_MATRIX_ID
      ∧ (v.aqt 0).resident = true ∧ descOp (v.cmd 1).desc 2 % 2 ^ 32 = v.fld (pgAqt 0) AQT_MATRIX_ID ∧ aqtFree v 0 = true
      ∧ (aqtWaiting v 0).head? = some 1 := by decide

theorem witness_AqtCalibrates :
    (∀ ph ∈ [AqtPhase.settle (.load 1) 0, .settle .full 0, .settle .full 1, .settle .drift 0], let s := aqtWith (aqtCmd 0x60) (fun a => { a with phase := ph, line := 32 })
      s.inFault = false ∧ (s.aqt 0).phase = ph ∧ s.fld (pgAqt 0) AQT_CFG_LINE ≠ (s.aqt 0).line)
    ∧ (∀ n ∈ [2, 3], let s := aqtWith (aqtCmd 0x60) (fun a => { a with phase := .check (.load 1) n })
      s.inFault = false ∧ (s.aqt 0).phase = .check (.load 1) n ∧ smHas s.cmds 1 = true ∧ s.fld (pgAqt 0) AQT_CAL_CAL_TOL < 0xFFFF)
    ∧ (∀ n ∈ [0, 1], let s := aqtWith (aqtCmd 0x60) (fun a => { a with phase := .check .drift n })
      s.inFault = false ∧ 0 < s.fuses.part.aqts ∧ (s.aqt 0).phase = .check .drift n ∧ s.fld (pgAqt 0) AQT_CAL_CAL_TOL < 0xFFFF) := by decide

/-- Engine 0 with a resident matrix; its die lit by input A. -/
def res (f : AqtSt → AqtSt) : State :=
  let s := (aqtWith (aqtCmd 0x61) (fun a => f { a with resident := true, queue := [] })).setFld (pgStl 0) STL_LSTAT_A_LIGHT 1
  { s with dies := [(0, { DieSt.init with selected := true })] }

theorem witness_Recalibrations :
    ((res id).aqt 0).resident = true ∧ aqtInService (res id) 0 = true ∧ ((res id).aqt 0).phase = .idle ∧ ((res id).aqt 0).power < 3
      ∧ 4 * bits ((res id).aqt 0).cfg 27 24 ≤ (aqtTemp (res (fun a => { a with tempRef := 1000 })) 0 - 1000).natAbs
      ∧ aqtFree (res (fun a => { a with recalFirst := true })) 0 = true
      ∧ aqtFree (res (fun a => { a with due := true })) 0 = true ∧ ((res (fun a => { a with due := true })).aqt 0).recalFirst = false
      ∧ (∀ n ∈ [0, 1], let s := res (fun a => { a with heldLight := true, lossSwitch := n })
         s.inFault = false ∧ (s.aqt 0).heldLight = true ∧ dieLit s (aqtDie 0) = true ∧ (s.aqt 0).phase = .idle ∧ aqtInService s 0 = true
           ∧ (s.aqt 0).power = 0 ∧ decide ((s.die (aqtDie 0)).switches = (s.aqt 0).lossSwitch) = (n == 0)) := by decide

theorem witness_Readmission :
    let s := up.setFlds (pgAqt 0) [(AQT_STAT_OOS, 1), (AQT_SVC_READMIT_PEND, 1)]
    s.flag (pgAqt 0) AQT_STAT_OOS = true ∧ s.flag (pgAqt 0) AQT_SVC_READMIT_PEND = true ∧ s.inFault = false ∧ 0 ≤ s.fld (pgAqt 0) AQT_CAL_CAL_TOL
      ∧ dieLit (res id) (aqtDie 0) = true ∧ dieLit s (aqtDie 0) = false ∧ calOwner (s.aqt 0) = none
      ∧ calOwner ((res (fun a => { a with phase := .settle (.load 1) 0 })).aqt 0) ≠ none := by decide

theorem witness_Light :
    let s := (res (fun a => { a with confirm := [1], phase := .settle (.load 1) 0 }))
    aqtInService s 0 = true ∧ calOwner (s.aqt 0) = some 1 ∧ 1 ∈ (s.aqt 0).confirm ∧ smHas s.cmds 1 = true ∧ (s.cmd 1).status = 0
      ∧ (s.aqt 0).confirm = 1 :: [] := by decide

/-! ### Witnesses: optics -/

/-- Die 0 with an input selected and the given flags of its page. -/
def die0 (x : DieSt) (l : List (Fld × Nat)) : State := { up.setFlds (pgStl 0) l with dies := [(0, x)] }
def sel : DieSt := { DieSt.init with selected := true }
/-- A ring of fibre 0 with the given fields, and what it keeps. -/
def ring0 (r : Nat) (l : List (Fld × Nat)) (x : RingSt) : State :=
  { up.setFlds (pgKey 0) (l.map (fun e => (rg e.1 0 r, e.2))) with rings := [(r, x)] }
/-- The lane pair of plane 0 and line 3. -/
def lane (x : LaneSt) : State := { up with lanes := [(pairKey 0 3, x)] }

theorem witness_LaserInputs :
    dieFitted up 0 = true
    ∧ (let s := die0 sel [(STL_LASER_AUTO, 1), (qualFld true, 1), (lightFld true, 1)]
       (s.die 0).selected = true ∧ selB s 0 = false ∧ s.flag (pgStl 0) STL_LASER_AUTO = true ∧ s.flag (pgStl 0) (qualFld !(selB s 0)) = true
         ∧ s.flag (pgStl 0) (lightFld !(selB s 0)) = true)
    ∧ ((die0 { sel with switching := true } []).die 0).switching = true
    ∧ (∀ n ∈ [30, 31], let s := die0 { DieSt.init with toneA := n } []
       (s.die 0).selected = false ∧ (s.die 0).toneA = n ∧ s.fld (pgKey 0) KEY_KCFG_TONE_MARGIN ≤ 200 ∧ s.fld (pgKey 0) KEY_KCFG_DEPTH_MIN ≤ 200
         ∧ 0 < s.fld (pgKey 0) KEY_KCFG_TONE_MARGIN)
    ∧ (∀ b ∈ [true, false], let s := die0 { DieSt.init with selected := b, checkB := true } [(lightFld true, 1), (STL_LSTAT_DARK, 0)]
       s.flag (pgStl 0) (lightFld true) = true ∧ (s.die 0).checkB = true ∧ (s.die 0).selected = b ∧ s.flag (pgStl 0) STL_LSTAT_DARK = false)
    ∧ (let s := die0 sel [(qualFld true, 1)]
       (s.die 0).selected = true ∧ s.flag (pgStl 0) (qualFld !(selB s 0)) = true)
    ∧ (let s := die0 sel []
       (s.die 0).selected = true ∧ (s.die 0).switching = false ∧ s.flag (pgStl 0) (lightFld (selB s 0)) = false) := by decide

theorem witness_LaserInputs_ring :
    let s := { up.setFld (pgKey 0) (rg KEY_RING_INUSE 0 0) 1 with lanes := [(pairKey (planeOf 0 0) 3, { LaneSt.init with st := 6 })] }
    ringFlag s 0 0 0 KEY_RING_INUSE = true ∧ (s.lane (pairKey (planeOf 0 0) 3)).st = 6 := by decide

theorem witness_RingEvents :
    (let s := ring0 3 [(KEY_RING_INUSE, 1), (KEY_RING_LOCKED, 1)] RingSt.init
     ringFlag s 0 0 3 KEY_RING_INUSE = true ∧ ringFlag s 0 0 3 KEY_RING_LOCKED = true ∧ (s.ring 0 0 3).verifying = false)
    ∧ (let s := ring0 3 [(KEY_RING_INUSE, 1), (KEY_RING_LOCKED, 0)] RingSt.init
       ringFlag s 0 0 3 KEY_RING_INUSE = true ∧ ringFlag s 0 0 3 KEY_RING_LOCKED = false ∧ ringFlag s 0 0 3 KEY_RING_FAILED = false
         ∧ dieLit s 0 = false ∧ dieLit (die0 sel [(STL_LSTAT_A_LIGHT, 1)]) 0 = true)
    ∧ (∀ b ∈ [true, false], let s := ring0 3 [(KEY_RING_FAILED, 1)] { RingSt.init with testing := b }
       ringFlag s 0 0 3 KEY_RING_FAILED = true ∧ (s.ring 0 0 3).testing = b)
    ∧ (let s := { ring0 3 [(KEY_RING_INUSE, 1), (KEY_RING_LOCKED, 1)] RingSt.init with
         lanes := [(pairKey (planeOf 0 0) (lineOfRing up 0 0 3), { LaneSt.init with st := 6 })] }
       (s.lane (pairKey (planeOf 0 0) (lineOfRing s 0 0 3))).st = 6) := by decide

/-- A failed ring of fibre 0 whose fibre can test it, and one beside a ring that is tested. -/
theorem witness_Readmit : ∀ b ∈ [true, false],
    let s := { ring0 3 [(KEY_RING_FAILED, 1)] RingSt.init with rings := [(3, RingSt.init), (4, { RingSt.init with testing := !b })] }
    ringFlag s 0 0 3 KEY_RING_FAILED = true ∧ (s.ring 0 0 3).testing = false ∧ canTest s 0 0 3 = b := by decide

theorem witness_RingFails : ringFlag up 0 0 3 KEY_RING_FAILED = false := by decide

theorem witness_Verification :
    let s := ring0 3 [] { RingSt.init with verifying := true }
    (s.ring 0 0 3).verifying = true ∧ ringLine s 0 0 3 < 32
      ∧ s.fld (pgKey 0) KEY_KCFG_TONE_MARGIN ≤ 200 ∧ s.fld (pgKey 0) KEY_KCFG_DEPTH_MIN ≤ 200 ∧ 0 < s.fld (pgKey 0) KEY_KCFG_TONE_MARGIN := by decide

theorem witness_LaneSteps :
    planeFitted up 0 = true
    ∧ (let s := { (up.setFlds (pgKey (planeDie 0)) ([(0, 3), (18, 29)].flatMap (fun r => [(rg KEY_RING_LOCKED 0 r.1, 1), (rg KEY_RING_VERIFIED 0 r.1, 1), (rg KEY_RING_INUSE 0 r.1, 1), (rg KEY_RING_LINE 0 r.1, r.2)]))) with
         lanes := [(pairKey 0 3, { LaneSt.init with st := 1 })], rings := [0, 18].map (fun r => (r, { RingSt.init with proven := true })) }
       (s.lane (pairKey 0 3)).st = 1 ∧ bothRings s 0 3 KEY_RING_LOCKED = true)
    ∧ (let x := { LaneSt.init with st := 4, good := 64, peerIdent := true }
       (lane x).lane (pairKey 0 3) = x ∧ x.st = 4 ∧ 64 ≤ x.good ∧ x.peerIdent = true ∧ ringsProven (lane x) 0 3 = false)
    ∧ (let x := { LaneSt.init with st := 5, chkFrames := 256, chkSym := 0 }
       x.st = 5 ∧ 256 ≤ x.chkFrames ∧ x.chkSym ≤ 4 * x.chkFrames * (lane x).fld (pgStl (planeDie 0)) STL_LANE_CFG_CHECK_SYM)
    ∧ (let x := { LaneSt.init with st := 5, added := true }
       x.added = true ∧ x.st ≠ 6 ∧ x.st ≠ 0)
    ∧ (let x := { LaneSt.init with st := 6, msUncorr := 256, peerSt := 8 }
       x.st = 6 ∧ x.peerSt = 8 ∧ (lane x).fld (pgStl (planeDie 0)) STL_LANE_CFG_UC_LIMIT < x.msUncorr) := by decide

/-- The rings of plane 0 and line 3, locked, verified and proven. -/
def proved (x : LaneSt) : State :=
  { (up.setFlds (pgKey (planeDie 0)) ([(0, 3), (18, 29)].flatMap (fun r =>
      [(rg KEY_RING_LOCKED 0 r.1, 1), (rg KEY_RING_VERIFIED 0 r.1, 1), (rg KEY_RING_INUSE 0 r.1, 1), (rg KEY_RING_LINE 0 r.1, r.2)]))) with
    lanes := [(pairKey 0 3, x)], rings := [0, 18].map (fun r => (r, { RingSt.init with proven := true })) }

theorem witness_LaneTests : ∀ n ∈ [1, 2, 3, 4, 5],
    let x := { LaneSt.init with st := 8, test := n, good := 64, peerIdent := true, chkFrames := 256 }
    let s := proved x
    (s.lane (pairKey 0 3)) = x ∧ x.st = 8 ∧ x.test = n ∧ 64 ≤ x.good ∧ x.peerIdent = true ∧ x.resume = false ∧ 256 ≤ x.chkFrames
      ∧ x.chkSym ≤ 4 * x.chkFrames * s.fld (pgStl (planeDie 0)) STL_LANE_CFG_CHECK_SYM
      ∧ bothRings s 0 3 KEY_RING_LOCKED = true ∧ bothProven s 0 3 = true ∧ ringsProven s 0 3 = true
      ∧ s.flag (pgStl (planeDie 0)) STL_HOLD_STAT_HELD = false := by decide

theorem witness_LaneIdents : ∀ n ∈ [4, 5],
    let x := { LaneSt.init with st := n, good := 64, peerIdent := true, chkFrames := 256 }
    let s := proved x
    s.lane (pairKey 0 3) = x ∧ ringsProven s 0 3 = true ∧ x.chkSym ≤ 4 * x.chkFrames * s.fld (pgStl (planeDie 0)) STL_LANE_CFG_CHECK_SYM := by decide

/-- The head of a frame of device `src` on plane 0 and a line, and the frame with nothing in its PKT. -/
def head (src line : Nat) : Head := ⟨0, src, 0, line, 0, 4, true, false, true⟩
def noSync : TSync := ⟨⟨0, 0, 0⟩, ⟨0, 0, 0⟩, 0, 0, 0, false, 0, 0, 0, false, false, false⟩
def frame (src line : Nat) (errs : List (Nat × Nat)) : Frame :=
  ⟨frameBytes (head src line) LCtl.idle noSync (List.replicate 2500 0), errs, ⟨0, 0, 0⟩, ⟨0, 0, 0⟩⟩

/-- Lane 3 of plane 0, in the given state of the pair it receives on. -/
def rxLane (x : LaneSt) : State := { numbered up with lanes := [(pairKey 0 (mirror 0 3), x)] }

/-- What the FEC leaves of an errorless frame is its head, which passes on its own line and fails on another. -/
theorem witness_FrameHead : (fecOf []).uncorr = false ∧ parseHead (frameInfo (frame 29 3 [])) = head 29 3 ∧ parseHead (frameInfo (frame 29 4 [])) = head 29 4 := by
  decide +kernel
/-- Eighteen symbols of one codeword are too many. -/
theorem witness_FrameLost : (fecOf ((List.range 18).map (fun i => (4 * i, 1)))).uncorr = true := by decide +kernel

theorem witness_Frames :
    (∀ n ∈ [3, 6, 7], let s := rxLane { LaneSt.init with st := n }
     planeFitted s 0 = true ∧ 3 ≤ (s.lane (pairKey 0 (mirror 0 3))).st ∧ (s.lane (pairKey 0 (mirror 0 3))).st ≤ 7
       ∧ (s.lane (pairKey 0 (mirror 0 3))).bad = 0 ∧ headOk s 0 3 (head 29 3) = true ∧ headOk s 0 3 (head 29 4) = false)
    ∧ (let s := { numbered up with lanes := [(pairKey 48 (mirror 48 3), { LaneSt.init with st := 5 })] }
       let s := s.setFlds (pgStl (planeDie 48)) [(opeer STL_OPEER_VALID 0, 1), (opeer STL_OPEER_DEV 0, 29)]
       let t := { s with mbr := { s.mbr with view := [(29, 4)] } }
       s.flag (pgStl (planeDie 48)) (opeer STL_OPEER_VALID 0) = true ∧ outerFenced s 0 = false ∧ outerFenced t 0 = true ∧ planeFitted s 48 = true
         ∧ headOk s 48 3 (head 29 3) = true) := by decide

theorem witness_Holds :
    (let s := { up with thm := { up.thm with holds := [up.fuses.part.stlPos 0] } }
     holdOrdered s 0 = true ∧ s.flag (pgStl 0) STL_HOLD_STAT_HELD = false)
    ∧ (let s := up.setFld (pgStl 0) STL_HOLD_STAT_HELD 1
       holdOrdered s 0 = false ∧ s.flag (pgStl 0) STL_HOLD_STAT_HELD = true ∧ verifyCount s 0 = 0)
    ∧ dieFitted up 0 = true ∧ planeFitted up 0 = true
    ∧ (let s := (up.setFld (pgStl 0) STL_HOLD_STAT_HELD 1).setFld (pgKey 0) (rg KEY_RING_INUSE 0 3) 1
       holdOrdered s 0 = false ∧ s.flag (pgStl 0) STL_HOLD_STAT_HELD = true ∧ ringFlag s 0 0 3 KEY_RING_INUSE = true)
    ∧ (∀ d : Fin 8, ringFlag up 0 d 35 KEY_RING_INUSE = false)
    ∧ (up.setFld (pgStl 0) (opeer STL_OPEER_VALID 0) 1).flag (pgStl 0) (opeer STL_OPEER_VALID 0) = true := by decide

/-! ### Witnesses: lane allocation and transport -/

def mgmt (src : Nat) (b : List Byte) : Packet := mkPkt 0x40 0 src 0 0 b
/-- Device 0 as the only member in service, hence its leader; and device 1 as the leader of device 2. -/
def leader0 : State := { (numbered up).setFld pgMbr MBR_MSTAT_VIEW_VALID 1 with mbr := { up.mbr with view := [(0, 2)] } }
def member2 : State :=
  { up.setFlds pgMbr [(MBR_DEVNUM_VALID, 1), (MBR_DEVNUM_NUMBER, 2), (MBR_MSTAT_VIEW_VALID, 1), (MBR_MSTAT_INDEX, 2)] with mbr := { up.mbr with view := [(1, 2), (2, 2)] } }
def withMgmt (s : State) (p : Packet) : State := { s with net := { s.net with mgmt := [p] } }
def report1 : List Byte := [1, 1, 1, 0, 0, 0, 0, 0] ++ List.replicate 376 0
/-- A grant of the next epoch that removes one pair, one that is malformed, and one that adds a pair this device's planes do not have. -/
def grantRemove : List Byte := [2, 1, 1, 0, 1, 0, 0, 0] ++ leBytes 4 (64 * 5)
def grantBad : List Byte := [2, 1, 0, 0, 1, 0, 0, 0]
def grantAdd : List Byte := [2, 1, 1, 0, 1, 0, 0, 0] ++ leBytes 4 (2048 + 64 * 5)

theorem witness_AllocReport :
    let s := withMgmt leader0 (mgmt 1 report1)
    let p := mgmt 1 report1
    s.net.mgmt = [] ++ p :: [] ∧ isAllocMsg 1 p = true ∧ s.alloc.waited = false ∧ isLeader s = true ∧ p.src / 32 = s.ownDev / 32
      ∧ p.payload.length = 384 ∧ leAt p.payload 1 1 = 1 ∧ leAt p.payload 2 2 = p.src ∧ leAt p.payload 4 4 = curEpoch s := by decide +kernel

theorem witness_AllocGrant :
    let s := member2
    (leaderOf s = some (1 % 32) ∧ 1 / 32 = s.ownDev / 32 ∧ leAt grantRemove 4 4 = (curEpoch s + 1) % 2 ^ 32 ∧ isAllocMsg 2 (mgmt 1 grantRemove) = true
      ∧ parseGrant s grantRemove = some [(0, 5, false)] ∧ grantFits s [(0, 5, false)] = true)
    ∧ parseGrant s grantBad = none
    ∧ (parseGrant s grantAdd = some [(0, 5, true)] ∧ grantFits s [(0, 5, true)] = false) := by decide

theorem witness_AllocMoments :
    (let s := { leader0 with alloc := { leader0.alloc with waited := true, ctl := 0xC0880A01#32 } }
     isLeader s = true ∧ s.alloc.waited = true ∧ s.alloc.planned = false ∧ allocCtl s STL_ALLOC_CTRL_EN ≠ 0 ∧ s.inFault = false)
    ∧ (let s := { member2 with alloc := { up.alloc with grant := some (1, [(0, 5, false)]) }, lanes := [(pairKey 0 ((32 + 5 - 2) % 32), { LaneSt.init with st := 6 })] }
       s.alloc.grant = some (1, [(0, 5, false)]) ∧ (s.lane (pairKey 0 ((32 + 5 - s.ownIdx) % 32))).kept = true
       ∧ s.alloc.num < timeNs { s with time := ⟨60, 0, 0⟩ } / epochLen s.alloc.ctl ∧ timeNs s / epochLen s.alloc.ctl ≤ s.alloc.num)
    ∧ (let s := { (leader0.setFld pgAlloc STL_ALLOC_CTRL_EN 0) with alloc := { leader0.alloc with ctl := 0xC0880A01#32 } }
       planReturns s = true ∧ (10 : Nat) ∉ planLines 0) := by decide

/-- A packet of a kind from device 1, and a state in which it waits with its buffers, on link 1. -/
def packet (kind addr aux : Nat) (b : List Byte) : Packet := mkPkt kind 0 1 addr aux b
def arrived (p : Packet) : State := { numbered up with net := { up.net with rxq := [⟨1, 0, 10, p⟩] } }
def rx (p : Packet) : RxPkt := ⟨1, 0, 10, p⟩

theorem arrives (p : Packet) : Arrives (arrived p) p.kind (rx p) [] :=
  ⟨rfl, [], [], rfl, rfl, beq_self_eq_true _, by simp⟩

theorem witness_LinkSend :
    (let s := { numbered up with lanes := [(pairKey 0 3, { LaneSt.init with st := 6, peerSt := 6 })], net := { up.net with links := [(3, { LinkSt.init with queue := [(0, packet 1 0 0 [1])] })] } }
     laneTakes s 3 (pairKey 0 3) = true
       ∧ (s.link 3).queue = (0, packet 1 0 0 [1]) :: [] ∧ creditsOf (unitsNeeded (packet 1 0 0 [1])) ≤ (s.link 3).room 0
       ∧ ((s.link 3).lseq + 2 ^ 16 - (((s.link 3).unacked.map (·.lseq)).head?.getD (s.link 3).lseq)) % 2 ^ 16 < 4096)
    ∧ (let u : TxUnit := ⟨4095, 0, 10, packet 1 0 0 [1], pairKey 0 3, false⟩
       let s := { numbered up with lanes := [(pairKey 0 3, { LaneSt.init with st := 6, peerSt := 6 })], net := { up.net with links := [(3, { LinkSt.init with unacked := [u] })] } }
       (s.link 3).unacked.find? (fun u => u.lseq == 4095) = some u ∧ activePair s 3 = some (pairKey 0 3))
    ∧ (let u : TxUnit := ⟨4095, 0, 10, packet 1 0 0 [1], pairKey 0 3, false⟩
       let s := { numbered up with net := { up.net with links := [(3, { LinkSt.init with unacked := [u] })] } }
       linkUp s 3 = false ∧ s.link 3 ≠ LinkSt.init ∧ (∀ u ∈ (s.link 3).unacked, kindClass u.packet.kind ≠ .forwarded)
         ∧ ∀ e ∈ (s.link 3).queue, kindClass e.2.kind ≠ .forwarded)
    ∧ (let s := { numbered up with net := { up.net with links := [(3, { LinkSt.init with queue := [(2, packet 0x20 0 0 [1])] })] } }
       linkUp s 3 = false ∧ (s.link 3).unacked = [] ∧ (s.link 3).queue = [(2, packet 0x20 0 0 [1])] ∧ kindClass (packet 0x20 0 0 [1]).kind = .forwarded
         ∧ s.isOwn (packet 0x20 0 0 [1]).src = false ∧ s.inFault = false) := by decide

/-- A unit at the head of link 3's queue: below, one with a packet of one byte, and one whose packet's CRC is wrong. -/
def unitIn (u : LinkUnit) : State := { numbered up with net := { up.net with unitq := [(3, u)] } }

theorem witness_LinkTake : ∀ b ∈ [packetBytes (packet 0x10 0 0 [1]), List.replicate 40 7],
    let u : LinkUnit := ⟨4095, 5, false, 6, b⟩
    let s := unitIn u
    let p := packet 0x10 0 0 [1]
    s.net.unitq = (3, u) :: [] ∧ u.vc < 6 ∧ (u.lseq + 2 ^ 16 - (s.link 3).ackNext) % 2 ^ 16 ≤ 4095 ∧ u.lseq ∉ (s.link 3).ackMap
      ∧ rxRoom s 3 u.vc (creditsOf u.units) = true
      ∧ s.flag pgFab ERR_INJECT_ARM = false ∧ parsePacket u.body = (if b.length = 40 then none else some p)
      ∧ kindClass p.kind ≠ .reserved ∧ kindClass p.kind ≠ .mgmt
      ∧ s.isOwn p.dst = true ∧ s.fenced p.src = false ∧ s.inFault = false := by decide +kernel

theorem witness_LinkFiller : (unitIn ⟨0, 7, false, 1, []⟩).net.unitq = (3, ⟨0, 7, false, 1, []⟩) :: [] := by decide

/-- The reserve and the whole pool are taken on VC 5 of link 3, and VC 0 still has its reserve. -/
theorem witness_LinkFull :
    let u : LinkUnit := ⟨0, 5, false, 1, []⟩
    let s := { numbered up with net := { up.net with unitq := [(3, u)], links := [(3, { LinkSt.init with taken := [0, 0, 0, 0, 0, 130 + 393216] })] } }
    u.vc < 6 ∧ (u.lseq + 2 ^ 16 - (s.link 3).ackNext) % 2 ^ 16 ≤ 4095 ∧ u.lseq ∉ (s.link 3).ackMap
      ∧ rxRoom s 3 5 (creditsOf u.units) = false ∧ rxRoom s 3 0 130 = true := by decide

/-- Device 0 with an ACTIVE lane pair to device 1. -/
def joined (n : NetSt) : State := { numbered up with lanes := [(pairKey 0 1, { LaneSt.init with st := 6, peerSt := 6 })], net := n }
def fwdPkt (dst : Nat) : RxPkt := ⟨2, 2, 10, { packet 0x20 0 0 [1] with dst := dst, src := 2 }⟩

theorem witness_Relays :
    (∃ l vc, forwardHop (joined { up.net with fwd := [fwdPkt 1] }) (fwdPkt 1) = .go l vc)
    ∧ forwardHop (joined { up.net with fwd := [fwdPkt 3] }) (fwdPkt 3) = .noLane
    ∧ forwardHop { joined { up.net with fwd := [fwdPkt 1] } with mbr := { up.mbr with view := [(1, 4)] } } (fwdPkt 1) = .fenced :=
  ⟨⟨1, 3, by decide⟩, by decide, by decide⟩

/-- A PUT to device 1 that this device serves, and the sequenced packet that carries it. -/
def tx1 (tries : Nat) : TxPkt := { mkTx (mkPkt 0x20 1 0 0 0 [1]) .serve [] with tries := tries, sent := true, limit := 8 }
def txState (x : TxDst) : State := joined { up.net with tx := [(1, x)] }

theorem witness_Sources :
    (let s := txState { TxDst.init with wait := [{ tx1 0 with again := true }], failed := [2 ^ 32 - 255] }
     s.inFault = false ∧ (s.txDst 1).wait = { tx1 0 with again := true } :: [] ∧ limitOk s (s.txDst 1) { tx1 0 with again := true } = true
       ∧ ∀ n ∈ (s.txDst 1).failed, ((s.txDst 1).next + 2 ^ 32 - n) % 2 ^ 32 < 256)
    ∧ (let s := txState { TxDst.init with failed := [2 ^ 32 - 256] }
       (s.txDst 1).held = [] ∧ (s.txDst 1).out = [] ∧ (s.txDst 1).failed = [2 ^ 32 - 256] ∧ 256 ≤ ((s.txDst 1).next + 2 ^ 32 - (2 ^ 32 - 256)) % 2 ^ 32)
    ∧ route (numbered up) 0x24 1 0 0 = none
    ∧ (let s := txState { TxDst.init with wait := [tx1 0] }
     s.inFault = false ∧ (s.txDst 1).wait = tx1 0 :: [] ∧ limitOk s (s.txDst 1) (tx1 0) = true ∧ (s.txDst 1).held = [] ∧ (s.txDst 1).out = []
       ∧ (tx1 0).pkt.flagged = false)
    ∧ (let s := txState { TxDst.init with held := [⟨5, tx1 0, []⟩] }
       (s.txDst 1).held = ⟨5, tx1 0, []⟩ :: [] ∧ flaggedFree s { s.txDst 1 with held := [] } ⟨5, tx1 0, []⟩ = true)
    ∧ (let s := txState { TxDst.init with out := [⟨5, tx1 0, []⟩] }
       (s.txDst 1).out.find? (fun q => q.seq == 5) = some ⟨5, tx1 0, []⟩ ∧ (tx1 0).tries < (tx1 0).limit ∧ (tx1 8).limit ≤ (tx1 8).tries
         ∧ (let y := loadPayload s { tx1 0 with tries := 1 } false
            route y.2 y.1.pkt.kind y.1.pkt.dst y.1.pkt.seq y.1.tries ≠ none))
    ∧ (let s := joined { up.net with rx := [(1, { RxSrc.init with ackDue := true })] }
       (s.rxSrc 1).ackDue = true ∧ s.fenced 1 = false ∧ (route s 0x24 1 0 0).isSome = true) := by decide

theorem witness_ackArrives : Arrives (arrived (packet 0x24 0 0 (List.replicate 40 0))) 0x24 (rx (packet 0x24 0 0 (List.replicate 40 0))) [] := arrives _

/-- The packets of the nine kinds that a duplicate can have, from device 1: below CUM, and with their MAP bit set. -/
theorem witness_Duplicates : ∀ k ∈ [0x01, 0x02, 0x03, 0x04, 0x05, 0x20, 0x21, 0x22, 0x23],
    let s := { joined { up.net with rx := [(1, { RxSrc.init with cum := 1, map := [3] })], rxq := [rx (packet k 0 4 [])] } with pins := up.pins }
    s.pins.pwrGood = true ∧ 2 ^ 31 ≤ ((packet k 0 4 []).seq + 2 ^ 32 - (s.rxSrc 1).cum) % 2 ^ 32 ∧ 3 ∈ (s.rxSrc 1).map
      ∧ rspRoom s 1 4 = true ∧ rspRoom s 1 8 = true := by decide

theorem witness_DuplicatesFirst (k : Nat) : FirstIn (fun q : RxPkt => q.pkt.kind == k) [rx (packet k 0 4 [])] (rx (packet k 0 4 [])) [] :=
  ⟨[], [], rfl, rfl, beq_self_eq_true _, by simp⟩

theorem witness_Commits :
    (∀ x ∈ [(0x01, 0, [1, 2, 3, 4]), (0x20, 0, [1, 2, 3, 4]), (0x01, 2 ^ 40, [1]), (0x20, 2 ^ 40, [1])],
      let s := arrived (packet x.1 x.2.1 0 x.2.2)
      let p := packet x.1 x.2.1 0 x.2.2
      isDup s p = false ∧ faSpace p.addr ≠ 2 ∧ p.aux.testBit 16 = false ∧ rangeExists s.fuses (faOff p.addr) p.payload.length = (x.2.1 == 0))
    ∧ faSpace (packet 0x01 (mkFa 2 0 0) 0 [1, 0, 0, 0]).addr = 2
    ∧ (∀ n ∈ [0, 63, 64], let s := (tracking (List.replicate n (range 9 false false none)))
       let p := packet 0x20 sramBase 0 [1, 2, 3, 4]
       isSram (faOff p.addr) = true ∧ decide ((s.core (sramCore (faOff p.addr))).inbound.length < 64) = decide (n < 64)
         ∧ rangeExists s.fuses (faOff p.addr) 4 = true ∧ faOff p.addr % 0x100000 + p.payload.length ≤ 0x100000)
    ∧ (let s := joined { up.net with rx := [(1, { RxSrc.init with pend := [0] })] }
       (packet 0x20 sramBase 0 [1]).seq ∈ (s.rxSrc 1).pend) := by decide

/-- A PUT that a pull of this device brings back with a failing STATUS. -/
theorem witness_PullFails :
    let p := packet 0x20 0 (2 ^ 24 * 5 + 2 ^ 16 + 7) [1]
    let x : PullOut := ⟨1, 1, 0, 7, 0, 0, 64, 0, [], true, 0, 8⟩
    let s := withCmd { arrived p with net := { (arrived p).net with pulls := [x] } } (cmdOf xcopyE.desc)
    p.aux.testBit 16 = true ∧ pullFrom s (p.aux % 65536) p.src = some x ∧ smHas s.cmds x.cmd = true ∧ natBits p.aux 31 24 ≠ 0
      ∧ (s.cmd x.cmd).status = 0 := by decide

theorem witness_Requests : ∀ x ∈ [(2, 0), (3, 0), (4, mkFa 1 0 csrBase), (2, 2 ^ 40), (3, 2 ^ 40)],
    let s := joined { up.net with rxq := [rx (packet x.1 x.2 4 (List.replicate 16 0))] }
    let p := packet x.1 x.2 4 (List.replicate 16 0)
    s.pins.pwrGood = true ∧ isDup s p = false ∧ s.flag pgMbr MBR_DEVNUM_VALID = true ∧ p.src / 32 = s.ownDev / 32 ∧ rspRoom s p.src (p.aux % 512) = true
      ∧ rspRoom s p.src 8 = true ∧ rspRoom s p.src 4 = true
      ∧ (rangeExists s.fuses (faOff p.addr) 4 = decide (x.2 = 0)) := by decide

/-- An ATOMIC to a plate, and to a core's SRAM with and without room in its tracker; requests to SPACEs that hold no memory. -/
theorem witness_Atomics :
    (∀ x ∈ [(0, 64), (sramBase, 63), (sramBase, 64)],
      let p := packet 3 x.1 0 (List.replicate 16 0)
      let s := { joined { up.net with rxq := [rx p] } with cores := (tracking (List.replicate x.2 (range 9 false false none))).cores }
      isDup s p = false ∧ rspRoom s p.src 8 = true ∧ atomicRoom s p = (x != (sramBase, 64)) ∧ faOff p.addr % 0x100000 + 8 ≤ 0x100000
        ∧ decide (∀ q ∈ s.net.rxq, q.pkt.kind = 3 → atomicRoom s q.pkt = false) = (x == (sramBase, 64)))
    ∧ (∀ n ∈ [1, 3], faSpace (packet 2 (mkFa n 0 0) 4 []).addr = n)
    ∧ faSpace (packet 3 (mkFa 2 0 0) 0 []).addr ≠ 0 ∧ faSpace (packet 4 (mkFa 0 0 0) 0 []).addr ≠ 1
    ∧ faSpace (packet 2 (2 ^ 40) 4 []).addr = 0 ∧ rangeExists up.fuses (faOff (2 ^ 40)) 4 = false := by decide

theorem witness_AtomicWrites :
    let p := packet 3 sramBase 0 (List.replicate 16 0)
    (atomicPerform (consumed (arrived p) (rx p) []) p).2.1.isSome = true := by decide +kernel

/-- Slot 0 of core 0 holds a request of command 1 to device 1. -/
def asked (kind tries : Nat) : RReq := ⟨1, 0, 4, tries, 8, 0, { mkPkt kind 1 0 0 4 [] with rtag := 0 }, []⟩
def askedState (kind tries : Nat) (l : List RxPkt) : State :=
  { (withCmd (joined { up.net with rxq := l }) { cmdOf rgetE.desc with left := 1 }).modCore 0 (fun x => { x with tracker := [(0, asked kind tries)] }) with pins := up.pins }

theorem witness_Responses : ∀ x ∈ [(0x10, 2, 0), (0x11, 3, 0), (0x12, 4, 0), (0x10, 2, 4)],
    let p := packet x.1 0 x.2.2 [1, 2, 3, 4]
    let s := askedState x.2.1 0 [rx p]
    (rtagSlot p.rtag = (0, 0)) ∧ smFind (s.core 0).tracker 0 = some (asked x.2.1 0) ∧ (asked x.2.1 0).pkt.rtag = p.rtag ∧ (asked x.2.1 0).pkt.kind = x.2.1
      ∧ (asked x.2.1 0).pkt.dst = p.src ∧ smHas s.cmds 1 = true ∧ (s.cmd 1).status = 0 ∧ p.poison = false ∧ smFind (up.core 0).tracker 0 = none := by decide

/-- A pull of command 1 from device 1. -/
def pull1 (tries : Nat) : PullOut := ⟨1, 1, 0, 7, 0, 0, 64, 0, [], true, tries, 8⟩

theorem witness_Timeouts :
    (∀ n ∈ [0, 15], let s := askedState 2 n []
      s.inFault = false ∧ smFind (s.core 0).tracker 0 = some (asked 2 n) ∧ hasResponse (asked 2 n).pkt.kind = true ∧ smHas s.cmds 1 = true
        ∧ (decide ((asked 2 n).tries < (asked 2 n).limit) = (n == 0)) ∧ requestWaits s 0 0 (asked 2 n) = false ∧ (s.cmd 1).status = 0)
    ∧ (∀ n ∈ [0, 15], let s := withCmd (joined { up.net with pulls := [pull1 n] }) (cmdOf xcopyE.desc)
      s.net.pulls.find? (fun x => x.pullId == 7) = some (pull1 n) ∧ (pull1 n).acked = true ∧ smHas s.cmds 1 = true
        ∧ (decide ((pull1 n).tries < (pull1 n).limit) = (n == 0)))
    ∧ (∀ n ∈ [0, 8], let q := { asked 3 0 with stuck := n }
       let s := (withCmd (numbered up) { cmdOf ratE.desc with left := 1 }).modCore 0 (fun x => { x with tracker := [(0, q)] })
       s.inFault = false ∧ smFind (s.core 0).tracker 0 = some q ∧ hasResponse q.pkt.kind = true ∧ smHas s.cmds q.cmd = true ∧ requestWaits s 0 0 q = false
         ∧ q.tries < q.limit ∧ q.pkt.kind = 3 ∧ route s 3 q.pkt.dst q.pkt.seq (q.tries + 1) = none ∧ decide (q.stuck < q.limit) = (n == 0)
         ∧ (s.cmd q.cmd).status = 0)
    ∧ (route (askedState 3 0 []) 3 1 0 1).isSome = true
    ∧ (joined { up.net with pullq := [⟨1, 0, 7, 0, 0, 64⟩] }).net.pullq = ⟨1, 0, 7, 0, 0, 64⟩ :: []
    ∧ (joined { up.net with pullq := [⟨1, 0, 7, 0, 0, 64⟩] }).fenced 1 = false ∧ (pullsWorked (joined up.net)).length < 16
    ∧ (pullsWorked (joined { up.net with tx := [(1, { TxDst.init with
        wait := (List.range 16).map (fun i => mkTx (mkPkt 0x20 1 0 0 i []) .serve []) })] })).length = 16
    ∧ (let t : TxPkt := mkTx (asked 2 0).pkt (.rls 0 0 1 0 4) []
       requestWaits (txState { TxDst.init with wait := [t] }) 0 0 (asked 2 0) = true) := by decide

def tree0 : TreeSt := { TreeSt.init with valid := true, src := 1, up := 1, mackDue := true, cum := 1 }
def treeState (l : List RxPkt) : State := joined { up.net with trees := [(0, tree0)], rxq := l }

theorem witness_Trees :
    (let s := treeState []
     (s.tree 0).mackDue = true ∧ (s.tree 0).valid = true ∧ originates s (s.tree 0) = false ∧ s.inFault = false ∧ s.fenced (s.tree 0).up = false ∧ (route s 0x27 (s.tree 0).up 0 0).isSome = true)
    ∧ (∀ k ∈ [0x25, 0x26], ∀ n ∈ [1, 2], let p := { packet k 0 0 [1, 0, 0, 0] with dst := 0, stage := 2 }
       let s := { treeState [rx p] with net := { (treeState [rx p]).net with trees := [(0, { tree0 with stages := [(2, ⟨n - 1, []⟩)], localMask := 1 })] } }
       (s.tree (p.dst % 256)).valid = true ∧ originates s (s.tree 0) = false ∧ p.stage = 2
         ∧ seqBefore p.seq ((s.tree 0).stage 2).cum = (n == 2) ∧ ((s.tree 0).stage 2).seen = []
         ∧ treeDelivers s (s.tree 0) 2 = true ∧ treeKids s (s.tree 0) 2 = [])
    ∧ treeDelivers (treeState []) tree0 1 = false
    ∧ (let r : RxPkt := ⟨2, 2, 10, { packet 0x25 0 0 [1] with dst := 0, stage := 3 }⟩
       r.vc = 2 ∧ r.pkt.stage = 3)
    ∧ (let p := packet 0x27 0 0 (List.replicate 8 0)
       let s := treeState [rx p]
       (s.tree (p.aux % 256)).valid = true)
    ∧ (let s := { numbered up with net := { up.net with trees := [(0, tree0)] } }
       (s.tree 0).mackDue = true ∧ (s.tree 0).valid = true ∧ originates s (s.tree 0) = false ∧ s.inFault = false ∧ s.fenced (s.tree 0).up = false
         ∧ route s 0x27 (s.tree 0).up 0 0 = none)
    ∧ ((treeState []).tree 1).valid = false := by decide

theorem witness_Windows :
    (let s := up.setFlds pgMem [(MEM_WCTRL_COMMIT_PEND, 0)]
     s.flag pgMem MEM_WCTRL_COMMIT_PEND = false ∧ (windowTable s).any Window.reserved = false)
    ∧ (let s := up.setFld pgMem MEM_WATTR_VALID 1
       s.flag pgMem MEM_WCTRL_COMMIT_PEND = false ∧ (windowTable s).any Window.reserved = true)
    ∧ ({ up with net := { up.net with commit := some [] } }.net.commit = some [])
    ∧ (up.setFld pgMem MEM_WCTRL_COMMIT_PEND 1).flag pgMem MEM_WCTRL_COMMIT_PEND = true := by decide

theorem witness_Xdma : ∀ e ∈ [xcopyE, xmcE, xmsE],
    let s := withCmd (joined { up.net with xdma := [(0, [1])] }) (cmdOf e.desc)
    s.inFault = false ∧ s.flag (pgXdm 0) ERR_INJECT_ARM = false ∧ smGet [] s.net.xdma 0 = 1 :: [] ∧ smHas s.cmds 1 = true ∧ (s.cmd 1).ran = false
      ∧ (s.cmd 1).status = 0 ∧ originates s (s.tree 0) = false ∧ natBits (descOp (s.cmd 1).desc 2) 39 32 = 0 ∧ descOpcode (s.cmd 1).desc = descOpcode e.desc := by decide

/-- An XCOPY of 64 bytes at the head: within the device, and with device 1 its target and its source. -/
def xcopyState (a b : Nat) : State := withCmd (joined { up.net with xdma := [(0, [1])] }) (cmdOf (desc 0x40 4 0 5 a b 64))

theorem witness_Xcopies :
    (∀ x ∈ [(sram0, sram0 + 64, true, true), (sram0, far 0, true, false), (far 0, sram0, false, true)], let s := xcopyState x.1 x.2.1
      let d := (s.cmd 1).desc
      s.inFault = false ∧ s.flag (pgXdm 0) ERR_INJECT_ARM = false ∧ smGet [] s.net.xdma 0 = 1 :: [] ∧ smHas s.cmds 1 = true ∧ (s.cmd 1).ran = false
        ∧ descOpcode d = 0x40 ∧ (s.cmd 1).cls = 4 ∧ (s.cmd 1).status = 0 ∧ hasPat (s.cmd 1).pats 0 = false ∧ hasPat (s.cmd 1).pats 1 = false
        ∧ s.isOwn (faDev (descOp d 0)) = x.2.2.1 ∧ s.isOwn (faDev (descOp d 1)) = x.2.2.2 ∧ s.fencedDetail 1 = none)
    ∧ (let s := xcopyState sram0 (sram0 + 64)
       let n := moveLen (s.cmd 1).desc (s.cmd 1).pats [0, 1]
       let r := (readSlot s (s.cmd 1) 0 n).1
       let dst := faOff (descOp (s.cmd 1).desc 1)
       r.bad = [] ∧ r.soft = [] ∧ 0 < n ∧ rangeExists s.fuses dst n = true ∧ dst % 0x100000 + n ≤ 0x100000
         ∧ (s.core (sramCore dst)).inbound.length < 64) := by decide +kernel

/-! ### Witnesses: collectives -/

/-- Group 0 of devices 0 and 1 of the sheet on engine 0, valid or not, and a collective of it in context 0 whose descriptor is command 1. -/
def group01 (valid : Bool) : GroupSt := ⟨if valid then 0x80000000 else 0, 2, 3, 0, 0⟩
def coll0 (op slice : Nat) : Cmd := cmdOf (collE op (own 0) (own 0x10000) (slice * 2 ^ 44)).desc
def ctx0 : CollCtx :=
  { cmd := 1, gid := 0, seq := 0, ord := 0, cfg := 0x01000002, work := [], cnt := [], fin := [], sent := [], credit := [], rcvd := [], granted := [],
    opened := [], out := [], abort := none, ended := false }
def collState (x : Cmd) (valid : Bool) (ctxs : SMap CollCtx) (l : List RxPkt) : State :=
  { (withCmd (joined { up.net with rxq := l, coll := [(0, [1])] }) x) with coll := { up.coll with groups := [(0, group01 valid)], ctxs := ctxs } }

/-- A collective of a group that waits in its queue while the group is withdrawn, and one that the withdrawal has aborted. -/
theorem witness_QueuedCollective :
    (let s := collState (coll0 0x50 0) true [] []
     (s.group 0).valid = true ∧ 1 ∈ smGet [] s.net.coll (s.group 0).engine ∧ smHas s.cmds 1 = true ∧ smHas s.coll.voids 1 = false
       ∧ descOpcode (s.cmd 1).desc ≠ 0 ∧ (collOp (s.cmd 1).desc).gid = 0 ∧ (s.cmd 1).ran = false ∧ (∀ p ∈ s.coll.pending, p.gid ≠ 0))
    ∧ (let s := collState { coll0 0x50 0 with ran := true, status := 5, detail := 6 } true [] []
       smGet [] s.net.coll 0 = 1 :: [] ∧ mayStart s 0 (collOp (s.cmd 1).desc) = true ∧ (s.cmd 1).ran = true) := by decide

theorem witness_Groups :
    (let s := collState (coll0 0x50 0) false [] []
     s.pins.pwrGood = true ∧ (s.group 0).valid = false ∧ groupOk s (s.group 0) = true ∧ (s.group 1).valid = false ∧ groupOk s (s.group 1) = false)
    ∧ (let s := collState (coll0 0x50 0) true [(0, ctx0)] []
       (s.group 0).valid = true ∧ s.ctx 0 = some ctx0 ∧ ctx0.gid = 0)
    ∧ (let s := collState (coll0 0x50 0) true [] []
       smGet [] s.net.coll 0 = 1 :: [] ∧ mayStart s 0 (collOp (s.cmd 1).desc) = true ∧ smHas s.coll.voids 1 = false)
    ∧ (let s := collState (coll0 0x50 0) true [] []
       smHas { s with coll := { s.coll with voids := [(1, ())] } }.coll.voids 1 = true
         ∧ mayStart { s with coll := { s.coll with voids := [(1, ())] } } 0 (collOp (s.cmd 1).desc) = true) := by decide

def chunkPkt (type aux : Nat) (b : List Byte) : Packet := packet 0x30 (chunkAddr 0 type 0 1 0) aux b
def chunkState (type aux : Nat) (b : List Byte) (valid : Bool) : State := collState (coll0 0x55 1) valid [(0, ctx0)] [rx (chunkPkt type aux b)]

/-- A chunk of each type from device 1; a CACK of data and of an abort. -/
theorem witness_ChunkOf : ∀ x ∈ [(1, 4), (2, 0), (2, 4), (3, 0), (4, 3)],
    let s := chunkState x.1 x.2 [] true
    let p := chunkPkt x.1 x.2 []
    s.pins.pwrGood = true ∧ p.kind = 0x30 ∧ chunkType p = x.1 ∧ (s.group (chunkGid p)).valid = true
      ∧ edgeOfLink s (s.group (chunkGid p)) (rx p).link = some 1 ∧ ctxOf s (chunkGid p) p.seq = some (0, ctx0) ∧ s.ctx 0 = some ctx0
      ∧ ctx0.ord = chunkOrd p ∧ ctx0.abort = none ∧ smHas s.cmds ctx0.cmd = true ∧ p.aux % 16 = x.2 := by decide

theorem witness_ChunkOf_invalid : ∀ t ∈ [1, 2, 3, 4],
    let s := chunkState t 0 [] false
    s.pins.pwrGood = true ∧ (s.group (chunkGid (chunkPkt t 0 []))).valid = false := by decide

theorem witness_ChunkFirst (t a : Nat) (b : List Byte) (want : RxPkt → Bool) (h : want (rx (chunkPkt t a b)) = true) :
    FirstIn want [rx (chunkPkt t a b)] (rx (chunkPkt t a b)) [] := ⟨[], [], rfl, rfl, h, by simp⟩

theorem witness_ChunkSend :
    let c := { ctx0 with credit := [(streamKey 1 1, 1)] }
    let s := collState (coll0 0x55 1) true [(0, c)] []
    s.pins.pwrGood = true ∧ s.inFault = false ∧ s.ctx (4 * 0 + 0) = some c ∧ c.abort = none
      ∧ ((phasesOf (c.op s) (s.group c.gid)).flatMap (fun p =>
            ((edgesOf s (s.group c.gid)).filter (fun d => edgeDev s (s.group c.gid) d == some 1)).map (fun d => (p, d)))).findSome?
          (fun t => (nextChunk s c t.1 t.2).map (fun k => (t, k))) = some ((1, 1), ⟨0, 1, [1]⟩) := by decide

/-- A barrier's token from device 1. -/
theorem witness_ChunkData :
    let p := chunkPkt 0 (crc32c []).toNat []
    let s := collState (coll0 0x50 0) true [(0, ctx0)] [rx p]
    chunkType p = 0 ∧ (s.group (chunkGid p)).valid = true ∧ edgeOfLink s (s.group (chunkGid p)) (rx p).link = some 1
      ∧ ctxOf s (chunkGid p) p.seq = some (0, ctx0) ∧ ctx0.ord = chunkOrd p ∧ abortHeld s p = false
      ∧ (chunksIn s (ctx0.op s) (s.group ctx0.gid) (chunkPhase p) 1).find? (fun k => k.off == chunkOff p) = some ⟨0, 0, []⟩
      ∧ 64 * 0 = p.payload.length ∧ chunkOff p ∉ smGet [] ctx0.rcvd (streamKey (chunkPhase p) 1)
      ∧ s.flag (pgCol 0) ERR_INJECT_ARM = false ∧ (crc32c p.payload).toNat = p.aux := by decide

/-- A GRANT of a collective whose abort is held; chunks of a running collective with another ORD. -/
theorem witness_ChunkOrd :
    (let c := { ctx0 with abort := some ⟨3, 0, true⟩ }
     let s := collState (coll0 0x55 1) true [(0, c)] [rx (chunkPkt 1 4 [])]
     s.ctx 0 = some c ∧ c.ord = chunkOrd (chunkPkt 1 4 []) ∧ abortHeld s (chunkPkt 1 4 []) = true)
    ∧ (∀ x ∈ [(1, 4), (2, 0), (3, 0), (4, 3)], let c := { ctx0 with ord := 5 }
       let s := collState (coll0 0x55 1) true [(0, c)] [rx (chunkPkt x.1 x.2 [])]
       s.ctx 0 = some c ∧ ctxOf s 0 (chunkPkt x.1 x.2 []).seq = some (0, c) ∧ c.ord ≠ chunkOrd (chunkPkt x.1 x.2 []) ∧ c.abort = none)
    ∧ abortHeld (chunkState 1 4 [] true) (chunkPkt 1 4 []) = false := by decide

/-- The link that a chunk sent, a repeated one and an ABORT that is due go over. -/
theorem witness_ChunkLinks :
    (let s := collState (coll0 0x55 1) true [(0, { ctx0 with credit := [(streamKey 1 1, 1)] })] []
     edgeLink s (s.group 0) 1 0 0 = some 1 ∧ chunkMay s 1 = true)
    ∧ (let p := chunkPkt 0 (crc32c []).toNat []
       let c := { ctx0 with rcvd := [(streamKey (chunkPhase p) 1, [0])] }
       let s := collState (coll0 0x50 0) true [(0, c)] [rx p]
       ctxOf s (chunkGid p) p.seq = some (0, c) ∧ abortHeld s p = false ∧ 0 ∈ smGet [] c.rcvd (streamKey (chunkPhase p) 1) ∧ chunkMay s (rx p).link = true)
    ∧ (∀ b ∈ [true, false], let a : AbortOut := ⟨0, 0, 0, 0, 1, 3, 0, 0⟩
       let s := collState (coll0 0x50 0) true [(1, ctx0)] []
       let s := { s with coll := { s.coll with aborts := [a] }, mbr := { s.mbr with view := if b then [] else [(1, 4)] } }
       s.inFault = false ∧ s.coll.aborts.find? (abortDue s 0 1) = some a ∧ s.ctx 0 = none ∧ s.ctx 1 = some ctx0 ∧ ctx0.out = [] ∧ chunkMay s a.link = b) := by
  decide

theorem witness_CollMoments :
    (∀ n ∈ [1, 2], let o : OutChunk := ⟨streamKey 1 1, 0, 0, [], 0, false, n, 0⟩
      let c := { ctx0 with out := [o] }
      let s := collState (coll0 0x55 1) true [(0, c)] []
      s.ctx (4 * 0 + 0) = some c ∧ s.inFault = false ∧ 0 < s.fuses.part.colls ∧ c.abort = none
        ∧ c.out.find? (fun o => edgeDev s (s.group c.gid) (o.stream % 64) == some 1) = some o ∧ decide (o.tries < bits c.cfg 3 0) = (n == 1)
        ∧ abortFirst s 0 1 o = false ∧ outLeaves s c { o with tries := o.tries + 1, stamp := s.coll.sends } = true
        ∧ outLeaves { s with lanes := [] } c { o with tries := o.tries + 1, stamp := s.coll.sends } = false
        ∧ edgeDev { s with lanes := [] } (s.group c.gid) (o.stream % 64) = some 1)
    ∧ bits ctx0.cfg 31 24 ≠ 0 ∧ ctx0.abort = none ∧ ctx0.ended = false ∧ bits { ctx0 with cfg := 2 }.cfg 31 24 = 0
    ∧ (let c := { ctx0 with abort := some ⟨3, 0, true⟩ }
       (collState (coll0 0x55 1) true [(0, c)] []).ctx (4 * 0 + 0) = some c ∧ c.abort.isSome = true ∧ c.ended = false) := by decide

/-! ### Witnesses: membership and time -/

/-- A body of a kind and an epoch, with its effect in seconds, its count, and the limiter's two halfwords. -/
def body (kind epoch sec n rmax rwin : Nat) (es : List Byte) : List Byte :=
  [0xC5, 1] ++ leBytes 2 kind ++ leBytes 4 epoch ++ leBytes 12 0 ++ leBytes 8 sec ++ leBytes 4 0 ++ leBytes 2 n ++ leBytes 2 rmax ++ leBytes 2 rwin
    ++ List.replicate 26 0 ++ es
/-- A bundle without tokens. -/
def bundle (b : List Byte) : List Byte := leBytes 4 b.length ++ List.replicate 4 0 ++ b
/-- One entry of a CHANGE. -/
def ent (dev act : Nat) : List Byte := leBytes 2 dev ++ leBytes 6 act ++ List.replicate 32 0
def member0 : State := { (numbered up).setFlds pgMbr [(MBR_MSTAT_VIEW_VALID, 1), (MBR_POLICY_RATE_WIN, 60)] with mbr := { up.mbr with view := [(0, 2), (1, 2), (5, 1)] } }
def withMbr (f : MbrSt → MbrSt) : State := { member0 with mbr := f member0.mbr }
def held (b : List Byte) (epoch : Nat) : HeldBundle := ⟨epoch, bundle b, 0⟩
def holding (b : List Byte) (epoch : Nat) : State := withMbr (fun m => { m with held := [held b epoch] })

theorem witness_Bundles :
    (let s := withMbr (fun m => { m with inbox := [⟨[1], 0⟩] })
     s.pins.pwrGood = true ∧ s.mbr.inbox = ⟨[1], 0⟩ :: [] ∧ bundleOk [1] = false)
    ∧ (let b := bundle (body 2 1 0 0 4 60 [])
       bundleOk b = true ∧ bundleVerified [1, 0, 1, 1] b = false ∧ bundleVerified [1, 0, 0, 0] b = true ∧ bodyKind (bundleBody b) ≠ 3
         ∧ bodyEpoch (bundleBody b) = (ownEpoch member0 + 1) % 2 ^ 32
         ∧ member0.mbr.held.any (fun y => y.mepoch == bodyEpoch (bundleBody b) && bodyKind (bundleBody y.bytes) != 3) = false) := by decide

/-- CHANGE commands: out of rules, over the limit, of the future, and of the present with effect 0 and at once. -/
theorem witness_Changes :
    (∀ b ∈ [body 1 1 0 1 0 0 (ent 5 4), body 1 1 0 1 0 0 (ent 1 5), body 1 1 9 1 0 0 (ent 5 2), body 1 1 0 1 0 0 (ent 5 2)],
      nextCommand (holding b 1) 1 = some (held b 1) ∧ bundleBody (held b 1).bytes = b ∧ bundleOk (bundle b) = true)
    ∧ changeOk member0 (body 1 1 0 1 0 0 (ent 5 4)) = false
    ∧ (let b := body 1 1 0 1 0 0 (ent 1 5)
       let s := member0.setFld pgMbr MBR_POLICY_RATE_MAX 0
       changeOk s b = true ∧ bodyOverride b = false ∧ s.fld pgMbr MBR_POLICY_RATE_MAX < rateCount s b + countedFences s b)
    ∧ (let b := body 1 1 9 1 0 0 (ent 5 2)
       changeOk (holding b 1) b = true ∧ ¬ (bodyOverride b = false ∧ member0.fld pgMbr MBR_POLICY_RATE_MAX < rateCount member0 b + countedFences member0 b)
         ∧ timeNs (holding b 1) < timeOf (bodyEffect b))
    ∧ (let b := body 1 1 0 1 0 0 (ent 5 2)
       changeOk (holding b 1) b = true ∧ ¬ (bodyOverride b = false ∧ member0.fld pgMbr MBR_POLICY_RATE_MAX < rateCount member0 b + countedFences member0 b)
         ∧ timeOf (bodyEffect b) ≤ timeNs (holding b 1)) := by decide +kernel

/-- A FENCED device and a VACATE of its own number, not from its host port. -/
theorem witness_VacateFenced :
    let b := body 1 1 0 1 0 0 (ent 0 6)
    let s := { holding b 1 with mbr := { (holding b 1).mbr with view := [(0, 4), (1, 2)] } }
    nextCommand s 1 = some (held b 1) ∧ changeOk s b = true ∧ ¬ (bodyOverride b = false ∧ s.fld pgMbr MBR_POLICY_RATE_MAX < rateCount s b + countedFences s b)
      ∧ timeOf (bodyEffect b) ≤ timeNs s ∧ (bodyEntries b).map (fun e => (e.1, e.2.1)) = [(s.ownDev, 6)] ∧ (bodyEntries b).length = 1
      ∧ s.flag pgMbr MBR_DEVNUM_VALID = true ∧ s.selfFenced = true ∧ (held b 1).session = 0
      ∧ (holding b 1).selfFenced = false := by decide +kernel

theorem witness_PolicyAndSnapshot :
    (let b := body 2 1 0 0 4 60 []
     nextCommand (holding b 1) 2 = some (held b 1) ∧ effectOk (holding b 1) b = true ∧ effectOk (holding b 1) ((body 2 1 1 0 4 60 []).set 8 9) = false ∧ timeOf (member0.mbr.issueSec, member0.mbr.issueNs) ≤ timeOf (bodyIssue b)
       ∧ timeOf (bodyIssue b) < timeOf (1, 0))
    ∧ (let b := body 3 1 0 0 4 60 []
       (holding b 1).mbr.held.find? (fun h => bodyKind (bundleBody h.bytes) == 3) = some (held b 1)
         ∧ viewValid (holding b 1) = true ∧ (holding b 1).flag pgMbr MBR_MSTAT_STALE = false
         ∧ (let s := (holding b 1).setFld pgMbr MBR_MSTAT_STALE 1
            ¬ (seqBefore 1 (ownEpoch s) = true ∨ (viewValid s = true ∧ s.flag pgMbr MBR_MSTAT_STALE = false))))
    ∧ (let e : PendEntry := ⟨0, 0, 5, 2, 2, [], false⟩
       (withMbr (fun m => { m with pend := [e] })).mbr.pend = e :: [] ∧ e.ns_ ≤ timeNs member0 ∧ e.act ≠ 6)
    ∧ (let e : PendEntry := ⟨0, 0, 5, 0, 6, [], false⟩
       e.ns_ ≤ timeNs member0 ∧ e.act = 6 ∧ e.dev ≠ member0.ownDev ∧ e.act ≠ 1) := by decide

/-- A fragment of a bundle, whole and the first of two; a request for kept commands; circuits of device 1. -/
theorem witness_MemberMessages :
    (∀ x ∈ [([0x10, 1, 0, 1] ++ leBytes 4 1 ++ leBytes 8 2 ++ [7, 7]), ([0x10, 1, 0, 2] ++ leBytes 4 1 ++ leBytes 8 4 ++ [7, 7])],
      let s := { withMgmt member0 (mgmt 1 x) with sec := { up.sec with trust := [1] } }
      isAllocMsg 0x10 (mgmt 1 x) = true ∧ leAt x 1 1 = 1 ∧ allZero x 12 4 = true ∧ s.sec.trust ≠ []
        ∧ s.mbr.frags.find? (fun f => f.src == 1 && f.mepoch == leAt x 4 4) = none ∧ (leAt x 3 1 = 1 ∨ leAt x 2 1 < leAt x 3 1))
    ∧ (let x : List Byte := [0x11, 1, 0, 0] ++ leBytes 4 0 ++ leBytes 8 4
       isAllocMsg 0x11 (mgmt 1 x) = true ∧ leAt x 1 1 = 1 ∧ 1 ≤ leAt x 8 2 ∧ leAt x 8 2 ≤ 64 ∧ 1 / 32 = member0.ownDev / 32 ∧ linkPeer member0 (1 % 32) = some 1)
    ∧ (let s := holding (body 1 3 0 1 0 0 (ent 5 2)) 3
       gapOpen s = true ∧ { s with mbr := { s.mbr with gapAsked := true } }.mbr.gapAsked = true ∧ s.flag pgMbr MBR_MSTAT_STALE = false)
    ∧ (members member0).contains member0.ownIdx = true ∧ (members member0).contains (1 % 32) = true ∧ 1 % 32 ≠ member0.ownIdx
    ∧ (let x : List Byte := [0x12, 1] ++ List.replicate 38 0
       isAllocMsg 0x12 (mgmt 1 x) = true ∧ leAt x 1 1 = 1 ∧ x.length = 40)
    ∧ smHas (withMbr (fun m => { m with circuits := [(1, List.replicate 16 0)] })).mbr.circuits (1 % 32) = true
    ∧ countIf (fun x => !x.keeps) (up.events ++ up.host.unacked.map (·.2)) < 4032 := by decide

theorem witness_MgmtFirst (t : Nat) (p : Packet) (h : isAllocMsg t p = true) : FirstIn (isAllocMsg t) [p] p [] :=
  ⟨[], [], rfl, rfl, h, by simp⟩

theorem witness_Time :
    (let s := up.setFld pgTim TIM_TSTAT_ROOT 1
     s.flag pgTim TIM_TSTAT_ROOT = true ∧ s.inFault = false)
    ∧ (let s := up.setFlds pgTim [(TIM_ROOT_VALID, 1), (TIM_TSTAT_ROOT, 0)]
       s.flag pgTim TIM_ROOT_VALID = true ∧ s.flag pgTim TIM_TSTAT_ROOT = false)
    ∧ (let s := up.setFlds pgTim [(TIM_PARENT_VALID, 1), (TIM_TSTAT_HOLDOVER, 0), (TIM_OFFSET, 32)]
       s.flag pgTim TIM_PARENT_VALID = true ∧ s.flag pgTim TIM_TSTAT_HOLDOVER = false ∧ (sext 32 (s.fld pgTim TIM_OFFSET)).natAbs ≤ 32)
    ∧ (let s := (joined up.net).setFlds pgTim [(TIM_PARENT_VALID, 1), (TIM_PARENT_PLANE, 7), (TIM_PARENT_LINE, 1)]
       let key := pairKey (s.fld pgTim TIM_PARENT_PLANE) (s.fld pgTim TIM_PARENT_LINE)
       s.flag pgTim TIM_PARENT_VALID = true ∧ key ≠ 1 ∧ timeLane s (linkOf s key) = some 1)
    ∧ (let s := (joined up.net).setFlds pgTim [(TIM_PARENT_VALID, 1), (TIM_PARENT_PLANE, 0), (TIM_PARENT_LINE, 1)]
       let key := pairKey (s.fld pgTim TIM_PARENT_PLANE) (s.fld pgTim TIM_PARENT_LINE)
       s.flag pgTim TIM_PARENT_VALID = true ∧ timeLane s (linkOf s key) = some key)
    ∧ up.tim.ocxoFailed = false := by decide

theorem witness_TimeSet :
    (let s := up.setFld pgTim TIM_TSTAT_ROOT 1
     s.flag pgTim TIM_TSTAT_ROOT = true ∧ timeNs s ≤ 1000000000 * (setTime s).sec + (setTime s).ns)
    ∧ up.flag pgTim TIM_TSTAT_ROOT = false
    ∧ (let s := up.setFld pgTim TIM_SET_CTL_PEND 1
       s.flag pgTim TIM_SET_CTL_PEND = true ∧ s.time.sec ≤ s.tim.setSec
       ∧ ∀ n ∈ [0, 1], let u := { s.setFld pgTim TIM_TSTAT_ROOT n with time := { s.time with sec := s.time.sec + 1 } }
          u.flag pgTim TIM_SET_CTL_PEND = true ∧ u.tim.setSec < u.time.sec ∧ u.flag pgTim TIM_TSTAT_ROOT = (n == 1) ∧ u.mbr.pend = [])
    ∧ (strobeHeld up = false ∧ up.time.ns ≤ 2 ∧ 2 < { up with time := ⟨0, 3, 0⟩ }.time.ns
       ∧ strobeHeld (up.setFlds pgEas [(claim EAS_CLAIM_HELD 4, 1), (claim EAS_CLAIM_FUNC 4, 1)]) = true)
    ∧ up.flag pgHpt HPT_LSTAT_LINK_UP = false
    ∧ (let s := up.setFlds pgTim [((TIM_CAP_CTL_ARM).at 0x10, 1), ((TIM_CAP_CTL_SRC).at 0x10, 2)]
       s.flag pgTim (TIM_CAP_CTL_ARM.at (0x10 * 1)) = true ∧ s.fld pgTim (TIM_CAP_CTL_SRC.at (0x10 * 1)) = capSrc .throtN)
    ∧ (let s := { (up.setFld pgTim TIM_PTP_CTL_EN 1).setFld pgHpt HPT_LSTAT_LINK_UP 1 with host := { up.host with inq := [.ptp 7 [] ⟨0, 0, 0⟩] } }
       ptpOn s = true ∧ s.flag pgHpt HPT_LSTAT_LINK_UP = true ∧ s.host.inq = [.ptp 7 [] ⟨0, 0, 0⟩]) := by decide

/-! ### Witnesses: faults, temperature and power -/

/-- On each of the ten kinds of page source 0, with what the clauses ask. -/
theorem witness_ErrorPages : ∀ x ∈ [(pgMbr, PageType.mbr), (pgTim, .tim), (pgFlt, .flt), (pgThm, .thm), (pgPwr, .pwr), (pgHpt, .hpt), (pgSec, .sec), (pgEas, .eas),
    (pgStl 0, .stl), (pgKey 0, .key)],
    pageOf up.fuses.part (BitVec.ofNat 16 x.1).toNat = some (x.2, 0) ∧ (BitVec.ofNat 16 x.1).toNat = x.1 ∧ (sourceOf x.2 0).isSome = true
      ∧ bitAt (up.reg x.1 0x024) 0 = false ∧ up.flag x.1 ERR_FIRST_VALID = false ∧ up.flag x.1 PG_CTRL_LOCK = false := by decide

theorem witness_ErrorClauses :
    (∃ cls chk latch, sourceOf .mbr 0 = some (cls, chk, latch) ∧ cls ≠ 0 ∧ bits (up.reg pgMbr (actionOff 0)) 5 0 ≠ 0 ∧ bits (0x100#32) 11 8 ≠ 0
      ∧ bits (0x100#32) 11 8 ≠ bits (up.reg pgMbr (actionOff 0)) 11 8)
    ∧ (∃ chk latch, sourceOf .key 2 = some (0, chk, latch) ∧ bits (up.reg (pgKey 0) (actionOff 2)) 5 0 = 0 ∧ bitAt (up.reg (pgKey 0) 0x024) 2 = false)
    ∧ bitAt ((up.setReg pgMbr 0x024 1).reg pgMbr 0x024) 0 = true
    ∧ (let s := up.setFlds pgMbr [(ERR_FIRST_VALID, 1), (ERR_FIRST_MCOUNT, 3), (PG_CTRL_LOCK, 1)]
       s.flag pgMbr ERR_FIRST_VALID = true ∧ bitAt (0x80030000#32) 31 = true ∧ bits (0x80030000#32) 23 16 = s.fld pgMbr ERR_FIRST_MCOUNT
         ∧ smHas s.hub.arrived pgMbr = false ∧ s.flag pgMbr PG_CTRL_LOCK = true)
    ∧ (let s := up.setFld pgFlt FLT_FCTRL_INJ_EN 1
       bitAt (0x900#32) 8 = true ∧ bits (0x900#32) 4 0 = 0 ∧ injectRefused up pgMbr 0x900 = true ∧ bits (0x900#32) 11 10 = 2 ∧ injectRefused s pgMbr 0x900 = false
         ∧ (sourceOf .plt 2).any (fun x => x.2.1) = true ∧ bitAt (0x1102#32) 8 = true ∧ bits (0x1102#32) 4 0 = 2 ∧ bits (0x1102#32) 11 10 ≠ 2
         ∧ injectRefused s (pgPlt 0) 0x1102 = false) := by
  refine ⟨⟨_, _, _, rfl, by decide, by decide, by decide, by decide⟩, ⟨_, _, rfl, by decide, by decide⟩, by decide, by decide, by decide⟩

def report (page : Nat) : Report := { page := page, src := 1, cls := 2, merged := false, detail := 3, actions := 0x30, latch := false, ns := 4, sec := 5 }
def withHub (f : Hub → Hub) : State := { up with hub := f up.hub }

theorem witness_Hub :
    (let s := withHub (fun h => { h with reports := [report pgMbr] })
     s.hub.reports = report pgMbr :: [] ∧ s.inFault = false ∧ (report pgMbr).actions.testBit 5 = true ∧ (report pgMbr).actions.testBit 0 = false
       ∧ (report pgMbr).actions.testBit 1 = false ∧ s.hub.entries = [])
    ∧ (report pgMbr).ns = (report pgPwr).ns ∧ (report pgMbr).sec = (report pgPwr).sec ∧ (report pgPwr).page < (report pgMbr).page
    ∧ (let k := 32 * (BitVec.ofNat 16 pgMbr).toNat + 1
       smFind (withHub (fun h => { h with hold := [(k, ⟨2, some (report pgMbr)⟩)] })).hub.hold k = some ⟨2, some (report pgMbr)⟩
         ∧ smFind (withHub (fun h => { h with hold := [(k, ⟨0, none⟩)] })).hub.hold k = some ⟨0, none⟩)
    ∧ countIf (fun x => x.keeps) (up.events ++ up.host.unacked.map (·.2)) < 64
    ∧ (let s := { arrayWith mmCmd with hub := { up.hub with brst := [1] } }
       (8 * 0 + 1 + 0) ∈ s.hub.brst ∧ queueOf s 0 0 0 = [1]
         ∧ ∀ i ∈ blockInsts 0, ∀ id ∈ queueOf s 0 0 i, smHas s.cmds id = true ∧ (s.cmd id).core = 0 ∧ (0, i) ∈ unitsOf (s.cmd id).desc) := by decide

theorem witness_FaultPin :
    (∀ p ∈ [PinPhase.high, .lowMin, .low, .released], let s := withHub (fun h => { h with pinReq := 1, phase := p })
     0 < s.hub.pinReq ∧ s.hub.phase = p)
    ∧ (∀ b ∈ [true, false], let s := (withHub (fun h => { h with phase := .lowMin, relPend := b })).setFld pgFlt FLT_PIN_CTL_HOLD 1
       s.hub.phase = .lowMin ∧ s.hub.relPend = b ∧ s.flag pgFlt FLT_PIN_CTL_HOLD = true)
    ∧ (∀ b ∈ [true, false], let s := withHub (fun h => { h with phase := .released, deferred := b })
       s.hub.phase = .released ∧ s.hub.deferred = b)
    ∧ (let s := (withHub (fun h => { h with phase := .low })).setFld pgFlt FLT_PIN_CTL_HOLD 1
       s.hub.phase = .low ∧ s.flag pgFlt FLT_PIN_CTL_HOLD = true) := by decide

def faulted (quiet auto : Nat) : State := up.setFlds pgFlt [(FLT_FSTAT_FAULT, 1), (FLT_FSTAT_QUIET, quiet), (FLT_FCTRL_AUTO, auto), (FLT_FSTAT_LATCHED, 0)]

theorem witness_FaultState :
    (let s := withHub (fun h => { h with entries := [report pgMbr] })
     s.hub.entries ≠ [] ∧ s.hub.crst = false ∧ smWf CoreSt.init s.cores = true)
    ∧ (let s := faulted 0 0
       s.pins.pwrGood = true ∧ s.inFault = true ∧ s.flag pgFlt FLT_FSTAT_QUIET = false ∧ s.flag pgFlt FLT_FCTRL_AUTO = false
         ∧ ¬ (s.inFault = true ∧ s.flag pgFlt FLT_FSTAT_QUIET = true ∧ s.flag pgFlt FLT_FSTAT_LATCHED = false))
    ∧ (let s := faulted 1 0
       s.inFault = true ∧ s.flag pgFlt FLT_FSTAT_QUIET = true ∧ s.flag pgFlt FLT_FSTAT_LATCHED = false ∧ (∀ e ∈ s.thm.temps, e.1 < 128)
         ∧ (s.inFault = false ∨ s.flag pgFlt FLT_FCTRL_AUTO = false)) := by decide

theorem witness_cool : Cool up := ⟨fun _ h => (List.not_mem_nil h).elim, fun _ h => (List.not_mem_nil h).elim⟩

theorem witness_coolLatched : Cool (latchThm up) := ⟨fun _ h => (List.not_mem_nil h).elim, fun _ h => (List.not_mem_nil h).elim⟩

/-- Sensor 0 of die 0 below and at its CRIT threshold, and with a threshold that no reading reaches. -/
theorem witness_Sensors :
    monitored up 0 = true ∧ smHas up.thm.broken 0 = false ∧ up.pins.vin = true ∧ smHas up.thm.crit 0 = false
    ∧ memberOf 0 = some 0 ∧ (-320 : Int) ≤ 100 ∧ (100 : Int) < threshold (latchThm up) THM_THR_CRIT 0 ∧ threshold (latchThm up) THM_THR_CRIT 0 ≤ 1000
    ∧ threshold up THM_THR_CRIT 0 ≤ 1016
    ∧ 1016 < threshold (up.setFld pgThm THM_THR_CRIT 130) THM_THR_CRIT 0 := by decide

def thmDie0 (f : ThmDie → ThmDie) : State := { up with thm := { up.thm with dies := [(0, f ThmDie.init)] } }

theorem witness_Throttling :
    (∀ b ∈ [true, false], let s := thmDie0 (fun x => { x with grace := true, hot := b })
     (s.thmDie 0).grace = true ∧ (s.thmDie 0).hot = b ∧ s.pins.vin = true)
    ∧ (let s := thmDie0 (fun x => { x with therm := 6, hot := true, cool := true })
       (s.thmDie 0).hot = true ∧ (s.thmDie 0).therm ≠ 0 ∧ (s.thmDie 0).therm < 7 ∧ (s.thmDie 0).cool = true)
    ∧ (let s := up.setFld pgPwr PWR_PLIMIT_WATTS 99
       s.fld pgPwr PWR_PLIMIT_WATTS < (100#16).toNat ∧ s.thm.plimHot = false) := by decide

theorem witness_Steps :
    (let s := thmDie0 (fun x => { x with clamp := 2 })
     (s.thmDie 0).clamp ≠ 0 ∧ (s.thmDie 0).clamping = false ∧ (up.thmDie 0).clamp = 0)
    ∧ (let s := { up with thm := { up.thm with holds := [4] } }
       let held := s.thm.holds.filter (fun k => k / 4 == 1)
       held ≠ [] ∧ ratesLow s ((List.range 36).map (fun j => 36 * 1 + j) ++ held.flatMap (fun k => [88 + 2 * k, 89 + 2 * k])) = true)
    ∧ (let s := thmDie0 (fun x => { x with clamp := 2, clamping := true })
       (s.thmDie 0).clamping = true ∧ ratesLow s ((List.range 9).map (fun j => 9 * 0 + j) ++ [88 + 2 * 0, 89 + 2 * 0]) = true) := by decide +kernel

/-- A vector engine that may sleep and one that is wanted, a plate asleep, and one waking. -/
theorem witness_Sleepers : sleeperOf up (BitVec.ofNat 16 (pgVec 0)).toNat 0 = some (.eng 0 1) ∧ sleeperOf up (BitVec.ofNat 16 (pgPlt 0)).toNat 0 = some (.plt 0) :=
  ⟨rfl, rfl⟩
theorem witness_PowerStates :
    (let s := up.setFld (pgVec 0) PG_LATTOL_TOL 2
     powerOf s (.eng 0 1) < s.fld (BitVec.ofNat 16 (pgVec 0)).toNat PG_LATTOL_TOL
       ∧ wakingOf s (.eng 0 1) = false ∧ sleeperIdle s (.eng 0 1) = true ∧ sleeperWanted s (.eng 0 1) = false)
    ∧ (let s := up.modCore 0 (fun x => { x with vec := { x.vec with power := 1, queue := [1] } })
       powerOf s (.eng 0 1) ≠ 0 ∧ sleeperWanted s (.eng 0 1) = true)
    ∧ (let s := up.setPlate 0 { up.plate 0 with power := 3, waking := true }
       powerOf s (.plt 0) ≠ 0 ∧ wakingOf s (.plt 0) = true ∧ 3 ≤ powerOf s (.plt 0) ∧ s.flag (pgPlt 0) PLT_PSTAT_LOST = false
         ∧ powerOf (up.setPlate 0 { up.plate 0 with power := 1, waking := true }) (.plt 0) < 3) := by decide

/-! ### Witnesses: the pins, the host port, start-up and the pages -/

theorem witness_Pins :
    State.reset.pins.vin = false ∧ State.reset.pins.pwrGood = false ∧ State.reset.pins.mated = false ∧ State.reset.pins.pwrEn = false
    ∧ up.pins.mated = true
    ∧ (let s := { State.reset with pins := { State.reset.pins with mated := true, pwrEn := true } }
       s.pins.mated = true ∧ s.pins.pwrEn = true ∧ s.pins.pwrGood = false)
    ∧ (let s := { up with pins := { up.pins with pwrGood := false } }
       s.pins.vin = true ∧ s.pins.pwrEn = true ∧ s.pins.mated = true ∧ s.pins.lockout = false)
    ∧ (up.pins.pwrGood = true ∧ up.pins.vin = true ∧ (∀ e ∈ up.thm.temps, e.1 < 128)) := by decide

/-- The host link up, with every protocol on. -/
def linked : State :=
  { up.setFlds pgHpt [(HPT_LSTAT_LINK_UP, 1), (HPT_HCTRL_RAW_EN, 1), (HPT_HCTRL_IPV4_EN, 1), (HPT_HCTRL_IPV6_EN, 1), (HPT_HCTRL_PFC_EN, 1)] with pins := up.pins }
def hostSrc : HostSrc := .raw 5
def sess0 (reqs : SMap HostReq) : SessSt :=
  { src := hostSrc, nonce := 9, incarn := 1, events := true, begun := false, reqs := reqs, ack := 0, got := [], next := 0, busy := false, cache := [] }
def session (reqs : SMap HostReq) : State := { linked with host := { up.host with sess := [(0, sess0 reqs)] } }
/-- A frame to this device, its FCS in place. -/
def frameTo (dst typ : Nat) (pay : List Byte) : List Byte := closeFrame (leBytes 6 dst ++ leBytes 6 5 ++ beBytes 2 typ ++ pay)
def fr (b : List Byte) : HostFrame := ⟨b, 1, 0⟩
theorem witness_FecLost : 0 < (⟨[], 0, 2⟩ : HostFrame).fecLost ∧ (fr []).fecLost = 0 := by decide
/-- A Delay_Req of sequence 7, over 802.3. -/
def delayReq : List Byte := frameTo ptpMac 0x88F7 ([1, 2] ++ List.replicate 28 0 ++ [0, 7] ++ List.replicate 12 0)
/-- The address 10.0.0.7 asked for by broadcast, a solicitation for ::7, XOFF for priority 0, and a frame of no kind that is served. -/
def arpFrame : List Byte := frameTo broadcastMac 0x0806 ([0, 1, 0x08, 0, 6, 4, 0, 1] ++ leBytes 6 5 ++ [10, 0, 0, 9] ++ leBytes 6 0 ++ [10, 0, 0, 7])
def solicitIp : List Byte := (List.replicate 15 0) ++ [7]
def solicitIcmp (c : Nat) : List Byte := [135, 0] ++ beBytes 2 c ++ [0, 0, 0, 0] ++ solicitIp
def solicitFrame : List Byte :=
  frameTo 0 0x86DD ([0x60, 0, 0, 0, 0, 24, 58, 255] ++ (List.replicate 15 0 ++ [9]) ++ solicitIp
    ++ solicitIcmp (checksum (pseudoSum ((List.replicate 15 0 ++ [9]) ++ solicitIp) 58 24 + wordSum (solicitIcmp 0))))
def pfcXoff : List Byte := frameTo pfcMac 0x8808 ([1, 1, 0, 1, 0, 9] ++ List.replicate 14 0)
def pauseFrame : List Byte := frameTo pfcMac 0x8808 [0, 1, 0, 9]
/-- A request of session 0: CSR_RD, its CRC in place and not. -/
def reqMsg (crc : Nat) : List Byte := [1, 0x10, 0, 0, 0, 0] ++ leBytes 2 4 ++ leBytes 4 0 ++ leBytes 4 0 ++ leBytes 4 1 ++ leBytes 4 crc ++ leBytes 4 0
def goodMsg : List Byte := reqMsg (crc32c (reqMsg 0)).toNat

/-- The port with an IPv4 and an IPv6 address and PTP over 802.3, and one open session. -/
def addressed : State :=
  (session []).setFlds pgHpt [(HPT_IPV4, leNat [10, 0, 0, 7]), (HPT_IPV6.at 12, leNat [0, 0, 0, 7])]
    |>.setFlds pgTim [(TIM_PTP_CTL_EN, 1), (TIM_PTP_CTL_TRANSPORT, 2)]

theorem witness_HostFrames :
    (let s := session []
     s.flag pgHpt HPT_LSTAT_LINK_UP = true ∧ s.flag pgHpt ERR_INJECT_ARM = false ∧ bufLevel s + 8192 ≤ 4194304
       ∧ mctCrcOk (reqMsg 0) = false ∧ mctCrcOk goodMsg = true ∧ headerFits goodMsg = true ∧ leAt goodMsg 1 1 = 0x10
       ∧ s.sess (leAt goodMsg 4 1) = some (sess0 []) ∧ sameSrc (sess0 []).src hostSrc = true ∧ (sess0 []).incarn = leAt goodMsg 16 4
       ∧ (sess0 []).ack = leAt goodMsg 8 4) := by decide +kernel

/-- Frames of each kind that the port accepts, and one it does not. -/
theorem witness_FramesAccepted :
    hostBody addressed delayReq = some (.ptp 7 (List.replicate 10 0)) ∧ hostBody addressed arpFrame = some (.arp 5 (leNat [10, 0, 0, 9]) (leNat [10, 0, 0, 7]))
    ∧ hostBody addressed solicitFrame = some (.solicit 5 (leNat (List.replicate 15 0 ++ [9])) (leNat solicitIp))
    ∧ hostBody addressed pfcXoff = some (.pfc 1 [9, 0, 0, 0, 0, 0, 0, 0]) ∧ hostBody addressed pauseFrame = none
    ∧ hostBody addressed (frameTo 0 0x88B5 goodMsg) = some (.mct hostSrc goodMsg)
    ∧ hostBody addressed (frameTo 0 0x88B5 (reqMsg 0)) = some (.mct hostSrc (reqMsg 0)) := by decide +kernel

theorem witness_FcsOk : (fcsOk delayReq = true ∧ fcsOk pfcXoff = true) ∧ fcsOk (List.replicate 18 0) = false :=
  ⟨⟨(fcsOk_closeFrame _).2, (fcsOk_closeFrame _).2⟩, by decide +kernel⟩

/-- The check value of CRC-32, of the digits 1 to 9. -/
theorem test_crc32 : crc32 (strBytes "123456789") = 0xCBF43926#32 := by decide +kernel

def waits (s : State) (l : List HostIn) : State := { s with host := { s.host with inq := l } }

/-- The oldest of its kind, behind a frame of another kind. -/
theorem witness_Oldest (s : State) (i j : HostIn) (h : inKind j ≠ inKind i) : OldestIn (waits s [j, i]) i [j] :=
  ⟨[j], [], rfl, rfl, by intro x hx; rw [List.mem_singleton.mp hx]; exact h⟩

def sixteen : SMap SessSt := (List.range 16).map (fun k => (k, { sess0 [] with begun := true }))

theorem witness_Waiting :
    (let s := linked
     s.host.sess.find? (fun e => sameSrc e.2.src hostSrc && e.2.nonce == 9 && !e.2.begun) = none ∧ (0 < 16 ∧ smHas s.host.sess 0 = false))
    ∧ (let s := { linked with host := { up.host with sess := sixteen } }
       s.host.sess.find? (fun e => sameSrc e.2.src hostSrc && e.2.nonce == 9 && !e.2.begun) = none ∧ ∀ k, k < 16 → smHas s.host.sess k = true)
    ∧ (let s := { session [] with host := { (session []).host with evSess := some 0 } }
       s.host.evSess = some 0 ∧ seqBefore s.host.evNext 0 = false ∧ (session []).host.evSess ≠ some 0)
    ∧ (let s := linked.setFlds pgHpt [(HPT_IPV4, 7), (HPT_PFC_PRIO, 3)]
       s.flag pgHpt HPT_HCTRL_IPV4_EN = true ∧ ownIpv4 s = 7 ∧ s.flag pgHpt HPT_LSTAT_LINK_UP = true ∧ s.flag pgHpt HPT_HCTRL_IPV6_EN = true
         ∧ s.flag pgHpt HPT_HCTRL_PFC_EN = true ∧ Nat.testBit 8 (s.fld pgHpt HPT_PFC_PRIO) = true) := by decide

/-- A request of each kind that is answered at once, before and from STAGE 1. -/
theorem witness_Requests_served : ∀ x ∈ [(0x10, [0, 0, 0, 0]), (0x11, [0]), (0x12, [0]), (0x20, [0]), (0x21, [0]), (0x31, [1]), (0x40, [0]), (0x41, [1]), (0x41, [2]),
    (0x41, [3]), (0x41, [4])],
    let r : HostReq := ⟨x.1, x.2, hostSrc⟩
    let s := (session [(0, r)]).setFld pgSec SEC_BSTAT_STAGE 1
    nextReq s 0 (isTyp x.1) = some (sess0 [(0, r)], r) ∧ 1 ≤ stage s ∧ stage (session [(0, r)]) = 0 ∧ s.sess 0 = some (sess0 [(0, r)]) := by decide

theorem witness_Requests_rows : (servedRows 0).map (fun e =>
      [0x10, 0x11, 0x12, 0x20, 0x21, 0x31, 0x40, 0x41].any (fun t => [1, 2, 3, 4].any (fun o => e.2.1 ⟨t, [o], hostSrc⟩))) = List.replicate 10 true := by decide

/-- A MEM_WR to a plate, whose write is not tracked, and one to a core's SRAM. -/
def memWrReq (a : Nat) : HostReq := ⟨0x20, leBytes 8 a ++ List.replicate 8 0 ++ [1, 2, 3, 4], hostSrc⟩
theorem witness_MemWr : ∀ x ∈ [(own 0, false), (sram0, true)],
    let r := memWrReq x.1
    let s := numbered ((session [(0, r)]).setFld pgSec SEC_BSTAT_STAGE 1)
    let a := reqMemWr (.host 0 1 0) s r.bytes
    nextReq s 0 (isTyp 0x20) = some (sess0 [(0, r)], r) ∧ 1 ≤ stage s ∧ ackWaits a.2.2 (.host 0 1 0) = x.2 ∧ a.2.2.sess 0 = some (sess0 [(0, r)])
      ∧ ackWaits s (.host 0 1 0) = false ∧ stage (session [(0, r)]) = 0 := by decide +kernel

/-- The last write of a MEM_WR that commits. -/
theorem witness_MemWrCommits :
    let w := range 2 false false (some (.host 0 1 0))
    let r := memWrReq sram0
    let s := (session [(0, r)]).modCore 0 (fun x => { x with inbound := [range 0 true false none] ++ w :: [] })
    (s.core 0).inbound = [range 0 true false none] ++ w :: [] ∧ (s.core 0).inbound.length ≤ 64 ∧ w.fetched = false ∧ w.done = false
      ∧ (∀ y ∈ [range 0 true false none] ++ [], y.done = false) ∧ (∀ y ∈ [range 0 true false none], y.fetched = true)
      ∧ w.ack = some (.host 0 1 0) ∧ s.sess 0 = some (sess0 [(0, r)]) ∧ smFind (sess0 [(0, r)]).reqs 0 = some r
      ∧ ackWaits (s.modCore 0 (fun z => { z with inbound := [range 0 true false none] ++ [] })) (.host 0 1 0) = false := by decide

/-- The port paused. -/
theorem witness_Paused : mctPaused { linked with host := { up.host with paused := true } } = true ∧ mctPaused linked = false
    ∧ ((List.replicate 8 0).getD (linked.fld pgHpt HPT_PFC_PRIO) 0) = 0 := by decide

theorem witness_RequestKeepsSession : ((reqCsrRd (session [(0, ⟨0x10, [], hostSrc⟩)]) []).2.2.sess 0) = some (sess0 [(0, ⟨0x10, [], hostSrc⟩)]) := by decide

def event0 : HostEvent := ⟨2, 0, 0, 0, 0, 0, []⟩

theorem witness_Sessions :
    (let s := { (session [(0, ⟨0x42, [], hostSrc⟩)]).setFld pgSec SEC_BSTAT_STAGE 1 with sec := { up.sec with trust := [1] } }
     nextReq s 0 (isTyp 0x42) = some (sess0 [(0, ⟨0x42, [], hostSrc⟩)], ⟨0x42, [], hostSrc⟩) ∧ s.sec.trust ≠ [] ∧ 1 ≤ stage s)
    ∧ (nextReq (session [(0, ⟨0x42, [], hostSrc⟩)]) 0 (isTyp 0x42)).isSome = true ∧ (session []).sec.trust = []
    ∧ nextReq (session [(0, ⟨2, [], hostSrc⟩)]) 0 (isTyp 2) = some (sess0 [(0, ⟨2, [], hostSrc⟩)], ⟨2, [], hostSrc⟩)
    ∧ (session []).sess 0 ≠ none
    ∧ (let s := { session [] with events := [event0], host := { (session []).host with evSess := some 0, unacked := [(0, event0)] } }
       s.host.evSess = some 0 ∧ s.sess 0 = some (sess0 []) ∧ s.flag pgHpt HPT_LSTAT_LINK_UP = true ∧ mctPaused s = false ∧ s.host.queued = []
         ∧ s.events = event0 :: [] ∧ s.host.unacked.length < 256 ∧ s.host.unacked = (0, event0) :: []) := by decide

def atStage (n : Nat) : State := up.setFld pgSec SEC_BSTAT_STAGE n
def tested (n : Nat) : State := { atStage 5 with sec := { up.sec with tests := n } }

theorem witness_Startup :
    (∀ n ∈ [0, 1, 4], stage (atStage n) = n)
    ∧ up.pins.resetLow = false ∧ { up with pins := { up.pins with resetLow := true } }.pins.resetLow = true
    ∧ imageReason up.fuses (bootImage (atStage 4)) ≠ 0
    ∧ (let s := up.setFlds pgMbr [(MBR_MSTAT_UP, 1)]
       let s := s.setFld pgSec SEC_SVN_RUN 1
       s.flag pgMbr MBR_MSTAT_UP = true ∧ s.fuses.svnBurnt < s.fld pgSec SEC_SVN_RUN ∧ ¬ (up.flag pgMbr MBR_MSTAT_UP = true))
    ∧ (up.setFld pgEas EAS_ESTAT_FW_RUN 1).flag pgEas EAS_ESTAT_FW_RUN = true := by decide

theorem witness_StartupTests :
    (∀ n ∈ [0, 1, 2, 3, 4], stage (tested n) = 5 ∧ (tested n).sec.tests = n ∧ (tested n).pins.pwrGood = true) ∧ platePresent (tested 0) 0 = true
      ∧ deadPages (tested 3) ⟨[], [], [], []⟩ = [] ∧ deadPages (tested 3) ⟨[], [2], [], [0]⟩ = pgStl 2 :: [pgCol 0] ∧ (tested 3).inFault = false
      ∧ (tested 3).hub.entries = [] ∧ (tested 4).inFault = false ∧ (tested 4).flag pgMbr ERR_INJECT_ARM = false ∧ countIf (fun i => (tested 4).pins.slotId.toNat.testBit i) (List.range 6) % 2 = 0 := by decide

theorem witness_Registers :
    up.hub.csrBad = false ∧ (withHub (fun h => { h with csrBad := true })).hub.csrBad = true
    ∧ up.flag pgFlt ERR_INJECT_ARM = false ∧ pageOf up.fuses.part (0x7FFF#16).toNat = none ∧ (pageOf up.fuses.part (0x8120#16).toNat).isSome = true
    ∧ up.flag pgPwr PG_CTRL_LOCK = false ∧ bits (100#32) 15 0 ≤ up.fuses.part.tdp ∧ up.fuses.part.tdp < bits (0xFFFF#32) 15 0
    ∧ up.flag pgPwr PG_STAT_REFUSED = false ∧ up.flag pgPwr PG_STAT_LOCKED_WR = false
    ∧ (let s := up.setFld pgPwr PG_CTRL_LOCK 1
       s.flag pgPwr PG_CTRL_LOCK = true ∧ bits (0xFFFF#32) 15 0 ≠ s.fld pgPwr PWR_PLIMIT_WATTS)
    ∧ (let s := up.setFlds pgFlt [(ERR_INJECT_ARM, 1), (ERR_INJECT_SOURCE, 10), (ERR_INJECT_MODE, 0), (ERR_INJECT_NSYM, 1)]
       s.flag pgFlt ERR_INJECT_ARM = true ∧ s.fld pgFlt ERR_INJECT_SOURCE = 10 ∧ s.fld pgFlt ERR_INJECT_MODE = 0 ∧ 0 < s.fld pgFlt ERR_INJECT_NSYM) := by decide

theorem witness_Pages :
    pageOf up.fuses.part (BitVec.ofNat 16 pgMem).toNat ≠ none ∧ hasCounter up (BitVec.ofNat 16 pgMem).toNat 0 = true
    ∧ cycleCounter up pgMem 0 = false ∧ hasCounter up (pgGrv 0) 3 = true ∧ cycleCounter up (pgGrv 0) 3 = true
    ∧ (∀ a ∈ [mkFa 1 0 csrBase, mkFa 1 0 0], let p := packet 5 a 0 [0, 0, 0, 0]
       isDup (arrived p) p = false
         ∧ ((csrWrite (consumed (arrived p) (rx p) []) (.device 1) (csrPage (faOff p.addr)) (csrOff (faOff p.addr)) 0).1 = 3 ↔ a = mkFa 1 0 0)) := by decide

def claimed (k kind owner func : Nat) : State :=
  up.setFlds pgEas [(claim EAS_CLAIM_HELD k, 1), (claim EAS_CLAIM_KIND k, kind), (claim EAS_CLAIM_OWNER k, owner), (claim EAS_CLAIM_FUNC k, func)]
/-- A request in the name of session 0, and one in another's. -/
theorem witness_Claims :
    claimPresent up 0 = true ∧ claimPresent up 4 = true
    ∧ requestOk (.session 0) 0 (putBits (0x10000000#32) 2 0 1) = true ∧ requestOk (.session 0) 0 (putBits (0x20000000#32) 2 0 1) = false
    ∧ requestOk (.session 0) 0 (putBits (0x10000000#32) 2 0 2) = true ∧ requestOk (.session 0) 0 (putBits (0x10000000#32) 2 0 6) = true
    ∧ up.flag pgEas (claim EAS_CLAIM_HELD 0) = false
    ∧ (let s := claimed 0 1 0 0
       s.flag pgEas (claim EAS_CLAIM_HELD 0) = true ∧ s.fld pgEas (claim EAS_CLAIM_KIND 0) = bits (0x10000000#32) 30 28
         ∧ s.fld pgEas (claim EAS_CLAIM_OWNER 0) = bits (0x10000000#32) 27 14)
    ∧ (let s := claimed 0 3 0 0
       s.flag pgEas (claim EAS_CLAIM_HELD 0) = true ∧ s.fld pgEas (claim EAS_CLAIM_KIND 0) ≠ bits (0x10000000#32) 30 28
         ∧ holdsClaim s (.session 0) 0 = false ∧ s.flag pgFlt ERR_INJECT_ARM = false ∧ s.hub.csrBad = false)
    ∧ (∀ n, Writer.session 0 ≠ .device n) := ⟨by decide, by decide, by decide, by decide, by decide, by decide, by decide, by decide, by decide, nofun⟩

theorem witness_Debug :
    (let s := (claimed 4 1 0 1).setFld pgDbg DBG_DCTRL_STROBE_EN 1
     s.flag pgDbg DBG_DCTRL_STROBE_EN = true ∧ strobeHeld s = true ∧ s.pins.ppsHigh = false ∧ s.fld pgDbg DBG_DCTRL_STROBE_SRC = 0
       ∧ (s.setFld pgDbg DBG_DCTRL_STROBE_SRC 3).fld pgDbg DBG_DCTRL_STROBE_SRC = strobeSrc .epoch)
    ∧ (let s := claimed 4 3 0 1
       s.flag pgEas (claim EAS_CLAIM_HELD 4) = true ∧ s.fld pgEas (claim EAS_CLAIM_FUNC 4) = 1 ∧ holdsClaim s (.session 0) 4 = false)
    ∧ ({ up with dbgRestart := true }.dbgRestart = true ∧ up.dbgRestart = false) := by decide

/-! ### Witnesses: the device as a whole -/

theorem witness_Canonical : Canonical up ∧ Canonical State.reset ∧ Canonical linked := ⟨⟨rfl, rfl, rfl⟩, ⟨rfl, rfl, rfl⟩, ⟨rfl, rfl, rfl⟩⟩

theorem witness_Whole :
    up.pending = [] ∧ up.mbr.pend = [] ∧ State.reset.pending = [] ∧ up.pins.pwrGood = true ∧ State.reset.pins.pwrGood = false
    ∧ worksUnpowered (.nop 0) = false ∧ (faulted 0 0).inFault = true
    ∧ keepsMemory (.bundleVerify) = true ∧ keepsFlags (.bundleVerify) = true := by decide

/-- Ticks: with 54 V alone; on a link time's beat and between two; with no stamped frame and with one. -/
theorem witness_Ticks :
    (let s := { State.reset with pins := { State.reset.pins with vin := true } }
     s.pins.vin = true ∧ s.pins.pwrGood = false)
    ∧ passed 100 up.time (nextTime up) = false ∧ up.fld pgTim TIM_FREQ = 0 ∧ up.tim.acc = 0
    ∧ (let s := { up with time := ⟨0, 99, 0⟩ }
       passed 100 s.time (nextTime s) = true ∧ (passed 100 s.time (nextTime s) && sendsStamped s) = false) := by decide

/-- A step from a canonical state that answers a next state. -/
theorem witness_Step : ∃ t, step { up with pending := [.bundleVerify] } = .next t ∧ Canonical { up with pending := [.bundleVerify] } :=
  ⟨_, rfl, ⟨rfl, rfl, rfl⟩⟩

/-! ### Ill-formed commands are refused by Instr.wf -/

theorem wf_rejects_sram_scrub_symbol : (Instr.sramScrubRead 0 0 [⟨39, 1⟩]).wf = true ∧ (Instr.sramScrubRead 0 0 [⟨40, 1⟩]).wf = false
    ∧ (Instr.sramScrubRead 0 0 [⟨1, 1⟩, ⟨1, 2⟩]).wf = false ∧ (Instr.sramScrubRead 0 0 [⟨1, 0⟩]).wf = false := by decide
theorem wf_rejects_plate_read : (Instr.plateRead 64 [⟨71, 1⟩]).wf = true ∧ (Instr.plateRead 65 []).wf = false ∧ (Instr.plateRead 64 [⟨72, 1⟩]).wf = false
    ∧ (Instr.plateRead 64 [⟨1, 0⟩]).wf = false := by decide
theorem wf_rejects_plate_scrub : (Instr.plateScrubRead 64 [⟨3, 1⟩]).wf = true ∧ (Instr.plateScrubRead 1 []).wf = false
    ∧ (Instr.plateScrubRead 0 [⟨3, 1⟩, ⟨3, 2⟩]).wf = false := by decide
theorem wf_rejects_plate_write : (Instr.plateWrite 255 [1] false).wf = true ∧ (Instr.plateWrite 255 [1, 2] false).wf = false ∧ (Instr.plateWrite 0 [] false).wf = false := by decide
theorem wf_rejects_epoch_tests : (Instr.epochBoundary ⟨[(63, 31)], [], [], []⟩).wf = true ∧ (Instr.epochBoundary ⟨[(64, 0)], [], [], []⟩).wf = false
    ∧ (Instr.epochBoundary ⟨[], [(0, 32)], [], []⟩).wf = false ∧ (Instr.epochBoundary ⟨[], [], [(0, 0, 36)], []⟩).wf = false
    ∧ (Instr.epochBoundary ⟨[], [], [], [64]⟩).wf = false := by decide
theorem wf_rejects_frame : let f : Frame := ⟨List.replicate 2625 0, [(2239, 1023)], ⟨0, 0, 0⟩, ⟨0, 0, 0⟩⟩
    (Instr.frameReceive 0 3 f).wf = true ∧ (Instr.frameReceive 0 3 { f with bytes := List.replicate 2624 0 }).wf = false
    ∧ (∀ l ∈ [[(2240, 1)], [(0, 0)], [(0, 1024)], [(1, 1), (1, 2)]], (Instr.frameReceive 0 3 { f with errs := l }).wf = false)
    ∧ (∀ x ∈ [(⟨0, 1000000000, 0⟩ : Stamp), ⟨2 ^ 18, 0, 0⟩, ⟨0, 0, 65536⟩],
        (Instr.frameReceive 0 3 { f with arrival := x }).wf = false ∧ (Instr.frameReceive 0 3 { f with depart := x }).wf = false) := by decide +kernel
theorem wf_rejects_optical_power : (Instr.opticalPowerSample 0 0 0 (List.replicate 8 0) (List.replicate 8 0)).wf = true
    ∧ (Instr.opticalPowerSample 0 0 0 (List.replicate 7 0) (List.replicate 8 0)).wf = false := by decide
theorem wf_rejects_sequence_numbers : (Instr.linkRetransmit 0 65535).wf = true ∧ (Instr.linkRetransmit 0 65536).wf = false
    ∧ (Instr.e2eRetransmit false 0 4294967295).wf = true ∧ (Instr.e2eRetransmit false 0 4294967296).wf = false := by decide
theorem wf_rejects_sensor : (Instr.sensorSample [⟨127, 0⟩]).wf = true ∧ (Instr.sensorSample [⟨128, 0⟩]).wf = false := by decide
theorem wf_rejects_host_frame : (Instr.hostFrameReceive (fr pfcXoff)).wf = true ∧ (Instr.hostFrameReceive (fr (pfcXoff.take 63))).wf = false
    ∧ (Instr.hostFrameReceive ⟨pfcXoff, 3, 0⟩).wf = false := by decide

/-! ### The spec's worked examples -/

/-- R20: on a G1-1604-LC position S4 is instance 2, with sheet planes 12 to 17 and outer planes 52 and 53. -/
theorem test_positions : Part.g1604.stlPos 2 = 4 ∧ planeOf 2 0 = 12 ∧ planeOf 2 5 = 17 ∧ planeOf 2 6 = 52 ∧ planeOf 2 7 = 53 ∧ Part.g1608.stlPos 4 = 4 := by decide
/-- R33: DEV_GRADE of a G1-1608-LC. -/
theorem test_grade_word : (csrRead up pgDev 0x100).2.1 = 0x10081001#32 := by decide
/-- R64: block scores 31, 44, 39, 44, 28, 35 with L = 3, SINK = RECENT = 1 select blocks 0, 3 and 5. -/
theorem test_select_blocks : selectBlocks [31, 44, 39, 44, 28, 35] 3 1 1 = [0, 3, 5] := by decide
/-- R81: the block of 60.0, 40.0, 13.0 and −0.2 quantised to MXFP4. -/
theorem test_quantise_block : let q := quantBlock 0xB 0 0 [f32 0x42700000, f32 0x42200000, f32 0x41500000, f32 0xBE4CCCCD] []
    q.1 = 0x82 ∧ q.2.1 = [0x7, 0x6, 0x3, 0x8] := by decide
/-- R89, R90: 500.0 to E4M3 with and without SAT, and 450.0. -/
theorem test_convert_e4m3 : (encodeFp e4m3F 0 0 true (f32 0x43FA0000)).1 = 0x7E ∧ (encodeFp e4m3F 0 0 false (f32 0x43FA0000)).1 = 0x7F
    ∧ (encodeFp e4m3F 0 0 false (f32 0x43E10000)).1 = 0x7E := by decide
/-- R98: nibble 0xD of group 3 names indices 1 and 3; nibble 0x8 names 0 and 2. -/
theorem test_sparse_nibble : metaFirst 0xD000 3 = 1 ∧ metaSecond 0xD000 3 = 3 ∧ metaFirst 0x8 0 = 0 ∧ metaSecond 0x8 0 = 2 := by decide
/-- R103, R104: the eight table bytes of the example, and the coded byte 0x68 of the elements 1 and 5. -/
theorem test_canonical_code : let ls := codeLens 4 [0x34, 0x43, 0x44, 0x75, 0x38, 0x43, 0x44, 0x86]
    ls = [4, 3, 3, 4, 4, 4, 5, 7, 8, 3, 3, 4, 4, 4, 6, 8] ∧ lensOk 4 ls = true
      ∧ (readSyms (canonical 0 0 (sortedSyms ls)) 0x68 8 2 0).map (·.1) = [1, 5] := by decide
/-- R138: the threshold 2 is not met at 0x000F_FFFF and met at 0x0010_0002. -/
theorem test_wait_threshold : reached 0x000FFFFF 2 = false ∧ reached 0x00100002 2 = true := by decide
/-- R198: offset 0x0000_1234_5600 lies in channel 218, plate 3, row 4, bank 21. -/
theorem test_granule : let f := up.fuses
    granuleChannel f 0x123456 = 218 ∧ plateOf f 0x12345600 = 3 ∧ granuleIndex f 0x123456 = 0x48D ∧ indexRow 0x48D = 4 ∧ indexBank 0x48D = 21 := by decide
/-- R340: index 9, POS 2, M 4 and Q 32 give rank 38. -/
theorem test_rank : let s := up.setFld pgMbr MBR_MSTAT_INDEX 9
    let x : GroupSt := ⟨0x80002000, 0x30020, 0xFFFFFFFF, 0, 0⟩
    x.m = 4 ∧ x.q = 32 ∧ x.pos = 2 ∧ ownRank s x = 38 := by decide
/-- R370, R255: device 4,117 names index 18 of its sheet as device 4,114. -/
theorem test_sheet_device : sheetDev (up.setFlds pgMbr [(MBR_DEVNUM_VALID, 1), (MBR_DEVNUM_NUMBER, 4117)]) 18 = 4114 := by decide
/-- R393: ISSUE_SEC 43,201,800 and 43,203,700 lie in windows 12,000 and 12,001 when RATE_WIN is 60. -/
theorem test_rate_window : let s := up.setFld pgMbr MBR_POLICY_RATE_WIN 60
    let b (sec : Nat) : List Byte := [0xC5, 1] ++ leBytes 2 1 ++ leBytes 4 901 ++ leBytes 8 sec ++ List.replicate 48 0
    rateWindow s (b 43201800) = 12000 ∧ rateWindow s (b 43203700) = 12001 := by decide
/-- R405: the exchange of the example gives OFFSET 108 and DELAY 432. -/
theorem test_time_exchange : let t : TSync := ⟨⟨0, 1400, 0⟩, ⟨0, 1020, 16384⟩, 0, 0, 0, true, 0, 0, 0, true, false, false⟩
    let x := thetaOf up 0 t ⟨0, 1433, 49152⟩ ⟨0, 1000, 0⟩
    x.1 / 4096 = 108 ∧ x.2 / 4096 = 432 := by decide
/-- R424, R425: three occurrences on PLT instance 5, and the write that clears the record. -/
theorem test_error_record : let s := errOcc (errOcc (errOcc up (pgPlt 5) 1 0) (pgPlt 5) 2 0) (pgPlt 5) 1 0
    s.reg (pgPlt 5) 0x02C = 0xA1020000#32 ∧ s.reg (pgPlt 5) 0x030 = 6#32 ∧ s.reg (pgPlt 5) 0x020 = 6#32 := by decide
/-- R117, R157, R521: the doorbell address of ring 2 of core 3.141 on device 4,117, and PG_ID of its GRV page. -/
theorem test_doorbell_address : faDev 0x5015200001F68188 = 4117 ∧ qtailOf (faOff 0x5015200001F68188) = some (1005, 2)
    ∧ (csrRead up (pgGrv 1005) 0).2.1 = 0x013ED001#32 ∧ pgGrv 1005 = 0x1F68 ∧ pgSrm 1005 = 0x1F6D := by decide
/-- R396: the state of device 4,117 stands in VIEW_DATA bits 23 to 20 under VIEW_SEL 514. -/
theorem test_view_data : bits (csrRead ({ up with mbr := { up.mbr with view := [(4117, 3)] } }.setFld pgMbr MBR_VIEW_SEL_WORD 514) pgMbr 0x120).2.1 23 20 = 3 := by decide

/-! ### Commands -/

def nextOr (r : Host.Outcome State Fault Refusal) : State := match r with | .next t => t | _ => State.reset
/-- R137, R139: a counter wraps at 2^32. -/
theorem test_flag_wraps : (nextOr (exec (.flagIncrementApply 0) ({ up with flags := [(40, 0xFFFFFFFF)] }.modCore 0 (fun x => { x with finc := [{ flag := 40, inc := 1, set := false, poison := false }] })))).flagVal 0 40 = 0 := by decide
/-- R140: an outside write below LOCAL_LIMIT is refused. -/
theorem test_flag_limit : (nextOr (exec (.flagSpaceWrite .outside 0 40 7) (up.setFld (pgGrv 0) GRV_GCTRL_LOCAL_LIMIT 41))).flagVal 0 40 = 0
    ∧ (nextOr (exec (.flagSpaceWrite .outside 0 41 7) (up.setFld (pgGrv 0) GRV_GCTRL_LOCAL_LIMIT 41))).flagVal 0 41 = 7 := by decide
/-- R539: the three ranges of a reset pulse. -/
theorem test_reset_pulse : exec (.modReset (.rise 999)) up = .next up ∧ exec (.modReset (.rise 1000)) up = .fault .resetPulseUndefined
    ∧ stage (nextOr (exec (.modReset (.rise 10000)) (up.setFld pgSec SEC_BSTAT_STAGE 6))) = 0 := ⟨rfl, rfl, by decide +kernel⟩
/-- R130: a doorbell that moves TAIL, and one that would move it back. -/
theorem test_doorbell : qTail (nextOr (exec (.qtailWrite 0 0 2) (ring []))) 0 0 = 2 ∧ qTail (nextOr (exec (.qtailWrite 0 0 0) (ring []))) 0 0 = 1 := by decide
/-- R399: with an empty queue a second passes in one-nanosecond steps. -/
theorem test_tick : (nextOr (step { up with time := ⟨7, 999999999, 5⟩ })).time = ⟨8, 0, 5⟩ := by decide
/-- R370: at reset the number reads 0x3FFF and is not valid. -/
theorem test_reset_number : (csrRead up pgMbr 0x100).1 = 0 ∧ State.reset.fld pgMbr MBR_DEVNUM_NUMBER = 0x3FFF := by decide

end Sys2Proof.Tests
end

section
/-!
O21 (AqtCommands): what an aquatint engine makes of the AMUL at the head of its queue without a resident matrix (R175), and the state in
which that differs from the statement.
-/

open Sys2Proof.Machine Sys2Proof.Safety

namespace Sys2Proof.Proofs

/-! ### A command that ends -/

theorem cmd_setCmd_self (s : State) (id : Nat) (x : Cmd) : (s.setCmd id x).cmd id = x := by
  simp [State.cmd, State.setCmd, smGet]

theorem cmd_modCmd_self {s : State} {id : Nat} (h : smHas s.cmds id = true) (f : Cmd → Cmd) :
    (s.modCmd id f).cmd id = f (s.cmd id) := by
  rw [State.modCmd, if_pos h, cmd_setCmd_self]

theorem smHas_modCmd_self {s : State} {id : Nat} (h : smHas s.cmds id = true) (f : Cmd → Cmd) :
    smHas (s.modCmd id f).cmds id = true := by
  rw [State.modCmd, if_pos h]
  exact smHas_smInsert_self _ _ _

/-- The first failure of a command replaces all three of its records, the source among them. -/
theorem failWith_of_status_zero {x : Cmd} (h : x.status = 0) (status detail : Nat) (src : Option (Nat × Nat)) :
    x.failWith status detail src = { x with status := status, detail := detail, src := src } :=
  if_pos (.inl h)

theorem cmd_endCmd_self {s : State} {id : Nat} (h : smHas s.cmds id = true) (h0 : (s.cmd id).status = 0) (status detail : Nat)
    (src : Option (Nat × Nat)) :
    (endCmd s id status detail src).cmd id = { s.cmd id with status := status, detail := detail, src := src, ran := true } := by
  rw [endCmd, ranNow, cmd_modCmd_self (smHas_modCmd_self h _), cmd_modCmd_self h, failWith_of_status_zero h0]

/-! ### The command an engine takes -/

theorem runAqt_of_takes {s : State} {e : AqtId} {id op : Nat} (h : AqtTakes s e id op) (go : State → Nat → State) :
    runAqt s e op go = go s id := by
  obtain ⟨rest, hw⟩ := List.head?_eq_some_iff.mp h.head
  simp [runAqt, hw, h.free, h.due, h.recal, h.opcode]

/-- Without a resident matrix the check of R175 comes before that of R183 and before the run `go`. -/
theorem withMatrix_of_not_resident {s : State} {e id : Nat} (h : (s.aqt e).resident = false) (go : State) :
    withMatrix s e id go = endCmd s id 8 0 none := by
  simp [withMatrix, h]

theorem exec_amul_of_not_resident {s : State} {e : AqtId} {id : Nat} (h : AqtTakes s e id 0x61) (hr : (s.aqt e).resident = false) :
    exec (.amul (.run ⟨e, by omega⟩)) s = .next (endCmd s id 8 0 none) :=
  calc exec (.amul (.run ⟨e, by omega⟩)) s
    _ = .next (powered (doAmul (.run ⟨e, by omega⟩)) s) := rfl
    _ = .next (runAqt s e 0x61 (fun s id => withMatrix s e id (runAmul s e id))) := by rw [powered, if_pos h.power]; rfl
    _ = .next (endCmd s id 8 0 none) := by rw [runAqt_of_takes h, withMatrix_of_not_resident hr]

/-! ### The counterexample -/

/-- An AMUL that names a source of record although it has not failed. -/
def sourcedAmul : Cmd := { Cmd.none_ with desc := [0x61], cls := 6, src := some (pgAqt 0, 6) }

/-- The device with its rails up, engine 0 in service with no matrix resident, and that AMUL as command 1 at the head of its queue. -/
def sourcedAmulState : State :=
  (({ State.reset with pins := { State.reset.pins with pwrGood := true } }.setFld (pgAqt 0) AQT_STAT_OOS 0).setCmd 1 sourcedAmul).modAqt 0
    (fun x => { x with queue := [1] })

theorem sourcedAmulState_takes : AqtTakes sourcedAmulState 0 1 0x61 where
  power := by decide
  head := by decide
  free := by decide
  due := by decide
  recal := by decide
  opcode := by decide
  listed := by decide

/-- Refutes O21: the statement asks that an AMUL without a resident matrix keep the source of its record, but the engine ends the command
with no source. The two differ on `sourcedAmulState`, whose command has status 0 and names a source, which `AqtTakes` does not exclude. -/
theorem not_aqtCommands : ¬ Obligations.AqtCommands := by
  unfold Obligations.AqtCommands
  rintro ⟨-, hmatrix, -⟩
  have hstatus : (sourcedAmulState.cmd 1).status = 0 := by decide
  have hresident : (sourcedAmulState.aqt 0).resident = false := by decide
  obtain ⟨t, hexec, -, -, -, -, -, -, hsrc⟩ :=
    (hmatrix 0 sourcedAmulState 1 0x61 sourcedAmulState_takes hstatus _ (List.mem_cons_self ..) rfl).1 hresident
  obtain rfl : endCmd sourcedAmulState 1 8 0 none = t :=
    Host.Outcome.next.inj ((exec_amul_of_not_resident sourcedAmulState_takes hresident).symm.trans hexec)
  rw [cmd_endCmd_self sourcedAmulState_takes.listed hstatus] at hsrc
  exact absurd hsrc (by decide)

end Sys2Proof.Proofs
end

section
/-!
O25 (GranulesSpread): the granules of an aligned block of 2^B fall one in each channel (R196, R198). Within a block the shifted copies of
the granule number are constant, so the channel of granule r of a block is r XOR the channel of the block's first granule, and XOR with a
constant is its own inverse.
-/

open Sys2Proof.Machine

namespace Sys2Proof.Proofs

/-! ### The width B -/

theorem hashBits_of_plates_16 {f : Fuses} (h : f.part.plates = 16) : hashBits f = 10 := if_pos h

theorem hashBits_of_plates_8 {f : Fuses} (h : f.part.plates = 8) : hashBits f = 9 :=
  if_neg (by rw [h]; decide)

/-! ### The channel within a block -/

/-- A shift by a multiple of the width drops the granule's place r in its block. -/
theorem shiftRight_block {w r : Nat} (hr : r < 2 ^ w) (b k : Nat) : (2 ^ w * b + r) >>> ((k + 1) * w) = b >>> (k * w) := by
  have hdrop : (2 ^ w * b + r) >>> w = b := by
    rw [Nat.shiftRight_eq_div_pow, Nat.mul_add_div (Nat.two_pow_pos w), Nat.div_eq_of_lt hr, Nat.add_zero]
  rw [Nat.succ_mul, Nat.add_comm (k * w), Nat.shiftRight_add, hdrop]

theorem granuleChannel_lt (f : Fuses) (g : Nat) : granuleChannel f g < 2 ^ hashBits f :=
  Nat.mod_lt _ (Nat.two_pow_pos _)

/-- The hash of R196 on granule r of block b, with the shifts taken: only the first term of the XOR still holds r. -/
theorem granuleChannel_block_eq {f : Fuses} {r : Nat} (hr : r < 2 ^ hashBits f) (b : Nat) :
    granuleChannel f (2 ^ hashBits f * b + r) = r ^^^ (b ^^^ b >>> hashBits f ^^^ b >>> (2 * hashBits f)) % 2 ^ hashBits f := by
  have h1 : (2 ^ hashBits f * b + r) >>> hashBits f = b := by simpa using shiftRight_block hr b 0
  have h2 : (2 ^ hashBits f * b + r) >>> (2 * hashBits f) = b >>> hashBits f := by simpa using shiftRight_block hr b 1
  have h3 : (2 ^ hashBits f * b + r) >>> (3 * hashBits f) = b >>> (2 * hashBits f) := shiftRight_block hr b 2
  simp only [granuleChannel, h1, h2, h3, Nat.xor_assoc, Nat.xor_mod_two_pow, Nat.mul_add_mod, Nat.mod_eq_of_lt hr]

theorem granuleChannel_block {f : Fuses} {r : Nat} (hr : r < 2 ^ hashBits f) (b : Nat) :
    granuleChannel f (2 ^ hashBits f * b + r) = r ^^^ granuleChannel f (2 ^ hashBits f * b) := by
  have hfirst := granuleChannel_block_eq (f := f) (Nat.two_pow_pos _) b
  rw [Nat.add_zero, Nat.zero_xor] at hfirst
  rw [granuleChannel_block_eq hr, hfirst]

/-- Channel c of a block is that of granule c XOR the channel of the block's first granule, and of no other. -/
theorem granuleChannel_block_eq_iff {f : Fuses} {r : Nat} (hr : r < 2 ^ hashBits f) (b c : Nat) :
    granuleChannel f (2 ^ hashBits f * b + r) = c ↔ r = c ^^^ granuleChannel f (2 ^ hashBits f * b) := by
  rw [granuleChannel_block hr]
  constructor
  · rintro rfl
    exact (Nat.xor_xor_cancel_right ..).symm
  · rintro rfl
    exact Nat.xor_xor_cancel_right ..

/-- Settles O25: a channel c of block b is that of granule c XOR the channel of the block's first granule. -/
theorem granulesSpread : Obligations.GranulesSpread := by
  intro f b
  refine ⟨fun c hc => ?_, fun h => ?_, fun h => ?_⟩
  · have hr : c ^^^ granuleChannel f (2 ^ hashBits f * b) < 2 ^ hashBits f :=
      Nat.xor_lt_two_pow hc (granuleChannel_lt f _)
    exact ⟨_, hr, (granuleChannel_block_eq_iff hr b c).2 rfl, fun q hq => (granuleChannel_block_eq_iff hq b c).1⟩
  · rewrite [hashBits_of_plates_16 h]; rfl
  · rewrite [hashBits_of_plates_8 h]; rfl

end Sys2Proof.Proofs
end

section
/-!
O34 (DuplicatesAreDropped): a duplicate ATOMIC whose core has a full inbound tracker. ATOMIC_RECEIVE takes an ATOMIC only when the tracker
has room for its write (R49), and asks so before it looks for a duplicate (R295).
-/

open Sys2Proof.Machine Sys2Proof.Safety

namespace Sys2Proof.Proofs

/-! ### The packet ATOMIC_RECEIVE takes -/

theorem takeRx_eq_none {s : State} {want : RxPkt → Bool} (h : ∀ q ∈ s.net.rxq, want q = false) : takeRx s want = none := by
  have hfind : s.net.rxq.find? want = none := by simpa [List.find?_eq_none] using h
  rw [takeRx, pickRx, hfind]
  rfl

/-- While no ATOMIC of the buffers finds room for its write, ATOMIC_RECEIVE does nothing, duplicate or not. -/
theorem exec_atomicReceive_of_no_room {s : State} (h : ∀ q ∈ s.net.rxq, atomicRoom s q.pkt = false) : exec .atomicReceive s = .next s := by
  have htake : takeRx s (fun q => q.pkt.kind == 3 && rspRoom s q.pkt.src 8 && atomicRoom s q.pkt) = none :=
    takeRx_eq_none fun q hq => by rw [h q hq, Bool.and_false]
  have hdo : doAtomicReceive s = s := by rw [doAtomicReceive, htake]
  calc exec .atomicReceive s
    _ = .next (powered doAtomicReceive s) := rfl
    _ = .next s := by rw [powered, hdo, ite_self]

/-! ### The counterexample -/

/-- An ATOMIC from device 1 with ESEQ 0 to the first word of core 0's SRAM, received over link 1. -/
def duplicateAtomic : RxPkt := ⟨1, 0, 10, mkPkt 3 0 1 sramBase 0 (List.replicate 16 0)⟩

/-- A write in flight to the first line of an SRAM. -/
def lineInFlight : InRange :=
  { lo := 0, hi := 31, fetched := false, eng := 0, done := false, cmd := none, parts := [], pois := false, ack := none }

/-- The device with its rails up and a lane pair to device 1, whose CUM of device 1 has passed that ATOMIC and whose core 0 tracks 64
writes. -/
def fullTrackerState : State :=
  { State.reset.modCore 0 (fun x => { x with inbound := List.replicate 64 lineInFlight }) with
    pins := { State.reset.pins with pwrGood := true }
    lanes := [(pairKey 0 1, { LaneSt.init with st := 6, peerSt := 6 })]
    net := { State.reset.net with rx := [(1, { RxSrc.init with cum := 1 })], rxq := [duplicateAtomic] } }

theorem fullTrackerState_atomicRoom : ∀ q ∈ fullTrackerState.net.rxq, atomicRoom fullTrackerState q.pkt = false := by decide

/-- Refutes O34: the duplicate ATOMIC of `fullTrackerState` is the oldest that an RSP credit lets answer, but it stays in the receive
buffers, uncounted and unacknowledged, until the tracker of the core it addresses has room. -/
theorem not_duplicatesAreDropped : ¬ Obligations.DuplicatesAreDropped := by
  unfold Obligations.DuplicatesAreDropped
  intro h
  have hpower : fullTrackerState.pins.pwrGood = true := by decide
  have hbelow : 2 ^ 31 ≤ (duplicateAtomic.pkt.seq + 2 ^ 32 - (fullTrackerState.rxSrc duplicateAtomic.pkt.src).cum) % 2 ^ 32 := by decide
  have hfirst : FirstIn (fun q => q.pkt.kind == 3 && rspRoom fullTrackerState q.pkt.src 8) fullTrackerState.net.rxq duplicateAtomic [] :=
    ⟨[], [], rfl, rfl, by decide, List.forall_mem_nil _⟩
  obtain ⟨-, hrequests⟩ := h fullTrackerState duplicateAtomic [] hpower (.inl hbelow)
  obtain ⟨t, hexec, -, -, hrxq, -⟩ := hrequests (.atomicReceive, 3, fun _ => 8) (by simp) hfirst
  obtain rfl : fullTrackerState = t :=
    Host.Outcome.next.inj ((exec_atomicReceive_of_no_room fullTrackerState_atomicRoom).symm.trans hexec)
  exact List.cons_ne_nil _ _ hrxq

end Sys2Proof.Proofs
end
